-- ==== Sys2Proof/Word.lean ====
section
/-!
DEFINITION. The words of the Gnoulno module's model: the bit-vector abbreviations, and the plain records that a command
carries as an operand (a flit, a capability record, a certificate, a message between packages). Everything here is data;
what the device does with it stands under `Sys2Proof/Machine/`.
-/
namespace Sys2Proof

/-- A byte, the smallest addressable unit of every memory (R7, R8). -/
abbrev Byte := BitVec 8
/-- An integer register of a control core (R210). -/
abbrev Word32 := BitVec 32
/-- A 64-bit register or the value of a 64-bit access (R640). -/
abbrev Word64 := BitVec 64
/-- A 64-byte descriptor of the ME, VE, DMA or furrow queues, byte 0 in bits [7:0] (R157, R207, R336). Input records (R375) have the same size. -/
abbrev Desc := BitVec 512

/-- A table by number, held as pairs in rising order of the number; a number it does not list has the reader's default. -/
abbrev Tab (α : Type) := List (Nat × α)

/-- An exact number of the arithmetic of chapter 3: NaN, an infinity of a sign, or (−1)^neg · m · 2^e. A zero keeps its sign
(R78). Rounding turns it into a format's code. -/
inductive Ext where
  | nan
  | inf (neg : Bool)
  | fin (neg : Bool) (m : Nat) (e : Int)
  deriving DecidableEq, Repr

/-- How a processor core touches an address. -/
inductive Access where
  | fetch | load | store
  deriving DecidableEq, Repr

/-- A flit header and link word with its valid payload bytes (Tables 12-2 and 12-3). -/
structure Flit where
  vc : Nat
  cls : Nat
  hops : Nat
  dst : Nat
  src : Nat
  last : Bool
  poison : Bool
  payload : List Byte
  seq : Nat
  ack : Nat
  creditVc : Nat
  creditCls : Nat
  credit : Nat
  nak : Bool
  deriving DecidableEq, Repr

/-- The link word of a null flit (R433, Table 12-3). -/
structure LinkWord where
  ack : Nat
  creditVc : Nat
  creditCls : Nat
  credit : Nat
  nak : Bool
  deriving DecidableEq, Repr

/-- The capability record of Table 12-5. -/
structure CapRecord where
  version : Nat
  rates : Nat
  lanesOk : Nat
  adders : Nat
  pkg : Nat
  port : Nat
  firmware : Nat
  epoch : Nat
  deviceId : Nat
  busy : Bool
  unavailable : Bool
  admOn : Bool
  dup : Bool
  part : Nat
  dupId : Nat
  deriving DecidableEq, Repr

/-- ADM_PROOF of Table 16-4: the partner's OWNER_KEY_DIGEST, PKG, PORT and its signature. -/
structure AdmProof where
  ownerDigest : Nat
  pkg : Nat
  port : Nat
  r : Nat
  s : Nat
  deriving DecidableEq, Repr

/-- The header word of a reduction (R327). `pos` is the sender's position at the level of the hop; `src` is the flit's SRC. -/
structure FurHeader where
  level : Nat
  tag : Nat
  opcode : Nat
  kind : Nat
  op : Nat
  format : Nat
  group : Nat
  elements : Nat
  epoch : Nat
  n1 : Nat
  n2 : Nat
  n3 : Nat
  pos : Nat
  src : Nat
  deriving DecidableEq, Repr

/-- One word that a headland adder takes (R333): which element it begins at, its elements as bit patterns of the channel's
format (BSX: 66 byte values a block; SPARSE: index and value alternating), its poison mark, the ring level it arrives at,
and whether it travels in the gather phase (passed on without adding, R342, R343). -/
structure FurWord where
  level : Nat
  first : Nat
  elems : List Nat
  poison : Bool
  gather : Bool
  /-- SPARSE: the indices of the pairs that travel in poisoned words of 16 pairs -/
  bad : List Nat := []
  deriving DecidableEq, Repr

/-- The four group-wide counts of a summary exchange (R353). -/
structure FurCounts where
  nan : Nat
  poisonWords : Nat
  satBlocks : Nat
  maxLift : Nat
  deriving DecidableEq, Repr

/-- What a step computed for one request (R385, R392): the drafts in position order and the main model's token at each position. -/
structure StepResult where
  req : Nat
  drafts : List Nat
  mains : List Nat
  eos : List Bool
  deriving DecidableEq, Repr

/-- A TRANSFER record (Table 10-9, step 7). -/
structure Transfer where
  req : Nat
  emitted : Nat
  turnEmitted : Nat
  length : Nat
  dCur : Nat
  zeroStreak : Nat
  fullStreak : Nat
  seed : Nat
  dest : Nat
  destPkg : Nat
  deriving DecidableEq, Repr

/-- A RESERVE record (Table 10-9, step 1): what the decode package needs to take the request in. -/
structure Reserve where
  req : Nat
  cls : Nat
  variant : Nat
  tenant : Nat
  spec : Bool
  converse : Bool
  sample : Bool
  stops : List Nat
  maxLen : Nat
  maxNew : Nat
  dest : Nat
  destPkg : Nat
  deriving DecidableEq, Repr

/-- A resilience message of Table 13-4, after its TYPE: sender, epoch and the fields its type uses. -/
structure ResMsg where
  epoch : Nat
  sender : Nat
  step : Nat
  seq : Nat
  cost : Nat
  result : Nat
  count : Nat
  subject : Nat
  cause : Nat
  newEpoch : Nat
  removed : List Nat
  digest : Nat
  deriving DecidableEq, Repr

/-- One cause detected in a cycle: numbered within its source in the order Tables 14-1 and 14-2 list them, the unit of a cluster source that
detected it (0–7), and the core, function, die, column or claiming core that it names. -/
structure FaultCause where
  cause : Nat
  unit : Nat
  ident : Nat
  deriving DecidableEq, Repr

/-- One pulse of an error pin (R484): the collector (0–3 the DFC of that die, 4 the PFC), the source's status bit, and every cause detected
in that cycle. -/
structure FaultEvent where
  coll : Nat
  source : Nat
  causes : List FaultCause
  deriving DecidableEq, Repr

/-- What the end of a tier move names (R273–R275): the places of the cache's blocks before and after, in block order, and the contents of
the blocks that came back from T2. -/
structure MoveEnd where
  src : List Nat
  dst : List Nat
  data : List (List Byte)
  deriving DecidableEq, Repr

/-- What went wrong in a step: its requests that failed, each with the status of Table 10-6, and the variants whose private expert weights
were read poisoned (R401, R402). -/
structure StepFaults where
  reqs : List (Nat × Nat)
  weights : List Nat
  deriving DecidableEq, Repr

/-- The bytes of a sheaf page, and the 128-byte lines of it that came poisoned (R432). -/
structure PageData where
  bytes : List Byte
  poison : List Nat
  deriving DecidableEq, Repr

/-- Start-up measurements of one core rail (R591), in mV: the value read back and the value measured at the die, and how
many AVSBus transactions got no valid response (R592). -/
structure RailMeasure where
  readback : Nat
  measured : Nat
  failures : Nat
  deriving DecidableEq, Repr

/-- A defect entry of Table 15-11 without its CHECK byte. -/
structure Defect where
  kind : Nat
  level : Nat
  count : Nat
  runtime : Bool
  index : Nat
  sub : Nat
  firstSeen : Nat
  deriving DecidableEq, Repr

/-- The functions that R419 disables (Table 11-5). -/
inductive DisFn where
  | linkPort (p : Nat)
  | furrow (d c : Nat)
  | variant (v : Nat)
  | unit (u : Nat)
  | pcie (f : Nat)
  | pair (q : Nat)
  deriving DecidableEq, Repr

/-- A holder of a T0 quota (R398). -/
inductive Holder where
  | variant (v : Nat)
  | tenant (t : Nat)
  deriving DecidableEq, Repr

/-- Where an input record comes from (R375): a steward pair's queue or a front-end package. -/
inductive Source where
  | pair (q : Nat)
  | frontEnd (pkg : Nat)
  deriving DecidableEq, Repr

/-- A master that reads and writes registers (Table 17-2). -/
inductive Master where
  | mgmt (i : Nat)
  | app (i : Nat)
  | dieMgmt (d : Nat)
  | pf
  | vf (v : Nat)
  | control (core : Nat)
  deriving DecidableEq, Repr

end Sys2Proof
end

