-- ==== Sys2Proof/Syntax.lean ====
section
/-!
DEFINITION. The commands: one constructor per row of `spec/opcode_table.json`, with the operands the spec's text gives the
step. A unit `u` is its package number 0–511 (R11), a core its package core number (R56), a port its package link number
0–35 (R52), a die `d` 0–3, a furrow channel `c` 1–4 (R324).
-/
namespace Sys2Proof

/-- The steps of the module, each whole and indivisible. -/
inductive Instr where
  -- control cores and the unit-issue extension
  | uqPush (core rd rs1 rs2 : Nat)
  | uqPushnb (core rd rs1 rs2 : Nat)
  | pushAccept (core : Nat)
  | uqWait (core rd rs1 rs2 : Nat)
  | waitSatisfied (core : Nat)
  | uqEvt (core rd rs1 : Nat)
  | uqSig (core rs1 rs2 : Nat)
  | uqEvclr (core rs1 : Nat)
  | uqQstat (core rd rs1 : Nat)
  | illegalInstruction (core word : Nat)
  | controlCoreAccess (core : Nat) (kind : Access) (addr size value rd : Nat) (signed : Bool)
  -- matrix engine
  | meLoad (u : Nat)
  | meLoadComplete (u : Nat)
  | meStream (u : Nat)
  | meStreamRowEntry (u : Nat)
  | meOutputRowWrite (u : Nat)
  | meStreamComplete (u : Nat)
  | meDrain (u : Nat)
  | meDrainComplete (u : Nat)
  | meFence (u : Nat)
  | meFenceComplete (u : Nat)
  | ringRowConsume (u t : Nat)
  | completionRecordWrite (u q : Nat)
  -- vector engine
  | veChain (u : Nat)
  | veChainComplete (u : Nat)
  | veWinnow (u : Nat)
  | veWinnowComplete (u : Nat)
  | veFence (u : Nat)
  | veFenceComplete (u : Nat)
  -- DMA
  | dmaCopy (u : Nat)
  | dmaChunk (cluster : Nat)
  | dmaCopyComplete (u : Nat)
  | dmaFence (u : Nat)
  | dmaFenceComplete (u : Nat)
  | remoteAccessRequest (port src addr len : Nat) (write : Bool) (data : List Byte) (poison : Bool)
  | remoteResponse (u : Nat) (refused : Bool) (data : List Byte) (poison : Bool)
  | respTimeout (u : Nat)
  -- stash allocator and scrubbers
  | umStashClaim (core value : Nat)
  | umStashRelease (core value : Nat)
  | umPatrolScrub (u : Nat)
  | lpPatrolScrub (ch : Nat)
  | scrubStarvation (u : Nat)
  -- copy-on-write and the memory tiers
  | cowFirstWrite (addr : Nat) (data : List Byte)
  | cowPageCopied (page : Nat)
  | sheafPageSend
  | tierMoveComplete (req : Nat) (move : MoveEnd)
  | t2FreeRequest (owner block : Nat)
  | ttlExpiry (req : Nat)
  -- furrows
  | furReduce (d c : Nat)
  | furScale (d c : Nat)
  | furCommit (d c : Nat)
  | furLoop (d c : Nat)
  | furHeader (d c : Nat) (hdr : FurHeader)
  | headlandAdd (d c : Nat) (w : FurWord)
  | furSummaryExchange (d c : Nat) (others : FurCounts)
  | furPeerAbort (d c : Nat)
  | furTimeout (d c : Nat)
  | furChannelDisable (d c : Nat)
  -- serving
  | submit (src : Source) (record : Desc)
  | cancel (src : Source) (record : Desc)
  | input (src : Source) (record : Desc)
  | endTurn (src : Source) (record : Desc)
  | quota (src : Source) (record : Desc)
  | variantDisable (src : Source) (record : Desc)
  | buildStep
  | stepCommit (results : List StepResult) (failed : StepFaults)
  | srvOverrun
  | pauseIdle (req : Nat)
  | reclaimLate (h : Holder)
  | reserve (pkg : Nat) (r : Reserve)
  | grant (req : Nat)
  | defer (req : Nat)
  | retryCycles (req : Nat)
  | transfer (t : Transfer)
  | transferAcknowledge (req : Nat)
  | handoffTimeout (req : Nat)
  | abandon (req : Nat)
  -- jobs
  | mboxStart
  | mboxStop
  | mboxQuota
  | jobRelease
  | timeLimit
  | jobStalled
  | jobDrainComplete
  | jobDrainLimit
  | jobEndReport
  | disableDrainLimit (fn : DisFn)
  -- links
  | flitSend (p : Nat) (own : List (Nat × Flit))
  | dataFlitReceive (p : Nat) (raw : List Byte) (fecGood : Bool)
  | nullFlit (p : Nat) (w : LinkWord)
  | nak (p : Nat) (w : LinkWord)
  | linkSignalDetect (p : Nat)
  | linkSignalLoss (p : Nat)
  | rateProposal (p proposed rates : Nat)
  | equalisationComplete (p lanes loss delay : Nat)
  | trainTimeout (p : Nat)
  | capabilityRecord (p : Nat) (rec : CapRecord)
  | admNonce (p nonce : Nat)
  | admIdentity (p : Nat) (cert : List Byte)
  | admOwner (p : Nat) (cert : List Byte)
  | admProof (p : Nat) (proof : AdmProof)
  | admitTimeout (p : Nat)
  | discoveryWindow (p : Option Nat)
  | topologyCheck
  -- sheaves and survivors
  | sheafStart
  | sheafPageReceive (src slot seq index addr : Nat) (page : PageData)
  | sheafComplete
  | sheafTimeout
  | plan (m : ResMsg)
  | done (m : ResMsg)
  | digest (m : ResMsg)
  | notice (m : ResMsg)
  | noticeWait
  | reformWaitTimeout
  | reform (m : ResMsg)
  | restoreDigest
  | survivorReady (pkg : Nat)
  | resume (m : ResMsg)
  | join (m : ResMsg)
  | jobRestoreCheck
  | check (m : ResMsg)
  -- faults
  | faultEvent (e : FaultEvent)
  | collectorSelfCheck (coll : Nat)
  | thermalTrip (die : Nat)
  | thermalTripClear (die : Nat)
  | supplyWindow (rail : Nat)
  | pllUnlock (pll : Nat)
  | escalationTimer (coll source : Nat)
  | fcAck (coll value : Nat)
  | fcAckRelease (value : Nat)
  | fallowTimer
  | governorWindow (region : Nat)
  -- resets and start-up
  | pwrGoodFall
  | coldRstN (pulse : Nat)
  | warmRstN (pulse : Nat)
  | bootControlWarm (value : Nat)
  | resetRelease
  | bootRom (straps : List Nat) (slot response : Nat)
  | selectImage
  | rootPllLock (rails : List RailMeasure) (ucie : List (Nat × Nat))
  | lockTimeout (pll : Nat)
  | lpddr5xTraining (present failing : List Nat)
  | startTest (found : List Defect) (badLines : List Nat)
  | imageCopy
  | fastPath (selfRefresh : Bool)
  | segment (core : Nat) (bytes : List Byte)
  | gleanWait (core : Nat)
  | gleanFetch (core seq : Nat)
  | coreLoadComplete (core : Nat)
  | readyAssert
  | clkPreset (dies : Nat)
  | partialResetRelease (d : Nat)
  | partialResetReturn (d : Nat)
  | clkUreset (d value : Nat)
  | unitResetComplete (u : Nat)
  -- steward and host
  | stwQptrTail (m : Master) (q tail : Nat)
  | stwRptrRead (m : Master) (q value : Nat)
  | pairDisable (q : Nat)
  | secAttestStart (m : Master) (value : Nat)
  | attestationComplete
  | pcieFlr (f : Nat)
  | sriovDisable (vf : Option Nat)
  | busMasterDisable
  | pcieAccess (f bar offset size : Nat) (write : Bool) (value : Nat)
  | stewardCoreAccess (core : Nat) (kind : Access) (addr size value rd : Nat) (signed : Bool)
  | mgmtCoreAccess (core : Nat) (kind : Access) (addr size value rd : Nat) (signed : Bool)
  | nvmWrite (offset : Nat) (data : List Byte) (ok : Bool)
  | i3cAddressWrite (value : Nat)
  | i3cBridgeRead
  | bypass
  | idcode
  | samplePreload
  | extest
  | registerWrite (m : Master) (addr size value : Nat)
  | mboxBadCommand
  | supplyWindowClear (rail : Nat)
  | pllRelock (pll : Nat)
  | sheafRefused
  | resilienceMessageTimeout (pkg : Nat)
  | pairEnable (q : Nat)
  | busMasterEnable
  | pcieLinkTrained (gen width : Nat)
  deriving DecidableEq, Repr

end Sys2Proof
end

