-- ==== Sys2Proof/Decode.lean ====
section
/-!
DEFINITION. The commands that a word of bits spells. No row of `spec/opcode_table.json` gives bits, so no word spells a
command; a command reaches the block with its operands, as `Instr` has them.
-/
namespace Sys2Proof

/-- The command a word spells by the table's bits: none. -/
def decodeTableWord (_nbits _w : Nat) : Option Instr := none

end Sys2Proof
end

