-- ==== Sys2Proof/Machine/Tab.lean ====
section
/-!
DEFINITION. Reading and writing a table by number, and the few list operations the meanings share.
-/
namespace Sys2Proof.Machine

/-- Is key `k` listed? -/
def Tab.has {α : Type} (t : Tab α) (k : Nat) : Bool := t.any (fun p => p.1 == k)

/-- The value at `k`, or the default `d` where the table lists none. -/
def Tab.get {α : Type} (d : α) : Tab α → Nat → α
  | [], _ => d
  | (i, v) :: t, k => if i = k then v else Tab.get d t k

/-- Insert a value for a number the table does not list, in rising order. -/
def Tab.insert {α : Type} (k : Nat) (v : α) : Tab α → Tab α
  | [] => [(k, v)]
  | (i, w) :: t => if i < k then (i, w) :: Tab.insert k v t else (k, v) :: (i, w) :: t

/-- Remove what the table lists at `k`. -/
def Tab.del {α : Type} (k : Nat) : Tab α → Tab α
  | [] => []
  | (i, w) :: t => if i = k then Tab.del k t else (i, w) :: Tab.del k t

/-- Set the value at `k`. -/
def Tab.set {α : Type} (t : Tab α) (k : Nat) (v : α) : Tab α := Tab.insert k v (Tab.del k t)

/-- Change the value at `k`. -/
def Tab.upd {α : Type} (d : α) (t : Tab α) (k : Nat) (f : α → α) : Tab α := Tab.set t k (f (Tab.get d t k))

/-- Apply a change for every number of a list. -/
def forAll {σ : Type} (ks : List Nat) (f : Nat → σ → σ) (s : σ) : σ := ks.foldl (fun a k => f k a) s

/-- Replace element `i` of a list by a function of it. -/
def updAt {α : Type} (l : List α) (i : Nat) (f : α → α) : List α :=
  match l, i with
  | [], _ => []
  | a :: t, 0 => f a :: t
  | a :: t, n + 1 => a :: updAt t n f

/-- Bits [lo + n − 1 : lo] of a number (R7). -/
def bits (x lo n : Nat) : Nat := (x >>> lo) % 2 ^ n

/-- Bit `i` of a number. -/
def bit (x i : Nat) : Bool := x.testBit i

/-- A flag as a number. -/
def b2n (b : Bool) : Nat := if b then 1 else 0

/-- Little-endian bytes of a number (R8). -/
def toBytes (n x : Nat) : List Byte := (List.range n).map (fun i => BitVec.ofNat 8 (x >>> (8 * i)))

/-- The number that little-endian bytes spell (R8). -/
def ofBytes : List Byte → Nat
  | [] => 0
  | b :: t => b.toNat + 256 * ofBytes t

/-- The number that big-endian bytes spell (the byte order of external standards, R8). -/
def ofBytesBE (l : List Byte) : Nat := l.foldl (fun a b => 256 * a + b.toNat) 0

/-- Big-endian bytes of a number. -/
def toBytesBE (n x : Nat) : List Byte := (toBytes n x).reverse

/-- Add `k` to a count that sticks at `top`: the new count and whether it stuck (R20). -/
def stick (top n k : Nat) : Nat × Bool := if n + k > top then (top, true) else (n + k, false)

end Sys2Proof.Machine
end

