-- ==== Sys2Proof/Machine/Codes.lean ====
section
/-!
DEFINITION. The Reed–Solomon codes of both memories (R254): GF(2^8) with the field polynomial x^8 + x^4 + x^3 + x^2 + 1 and α = 2, the
check symbols of a codeword, and what a decoder that corrects two symbol errors makes of an error pattern.
-/
namespace Sys2Proof.Machine

/-- α times an element. -/
def gfTwice (x : Nat) : Nat := if x < 128 then 2 * x else (2 * x) ^^^ 0x11D

/-- The product of two elements. -/
def gfMul (a b : Nat) : Nat :=
  [7, 6, 5, 4, 3, 2, 1, 0].foldl (fun acc i => gfTwice acc ^^^ (if a.testBit i then b else 0)) 0

/-- α to the power `n`. -/
def gfExp (n : Nat) : Nat := (List.range (n % 255)).foldl (fun x _ => gfTwice x) 1

/-- The inverse of an element: its power 254. -/
def gfInv (a : Nat) : Nat := (List.range 253).foldl (fun x _ => gfMul x a) a

/-- The generator, highest coefficient first: the product of x − α^i for i below `n` (R254). -/
def rsGen (n : Nat) : List Nat :=
  (List.range n).foldl (fun p i => List.zipWith Nat.xor (p ++ [0]) (0 :: p.map (gfMul (gfExp i)))) [1]

/-- The `n` check symbols of a message, its first symbol the highest coefficient: the remainder modulo the generator (R254). -/
def rsCheck (n : Nat) (msg : List Nat) : List Nat :=
  let g := (rsGen n).drop 1
  msg.foldl (fun r m =>
    let f := m ^^^ r.headD 0
    List.zipWith Nat.xor (r.drop 1 ++ [0]) (g.map (gfMul f))) (List.replicate n 0)

/-- Syndrome `i` of an error pattern, (symbol, value) in a codeword of `len` symbols. -/
def rsSyndrome (len i : Nat) (pat : List (Nat × Nat)) : Nat :=
  pat.foldl (fun s p => s ^^^ gfMul p.2 (gfExp (i * (len - 1 - p.1)))) 0

/-- All `n` syndromes. -/
def rsSyndromes (n len : Nat) (pat : List (Nat × Nat)) : List Nat := (List.range n).map (fun i => rsSyndrome len i pat)

/-- Two errors that the first four syndromes point to: the roots of their locator among the codeword's places. -/
def rsPair (len : Nat) (s : List Nat) : List (Nat × Nat) :=
  let a := s.getD 0 0
  let b := s.getD 1 0
  let x := s.getD 2 0
  let y := s.getD 3 0
  let det := gfMul b b ^^^ gfMul a x
  if det = 0 then []
  else
    let inv := gfInv det
    let s1 := gfMul (gfMul x b ^^^ gfMul a y) inv
    let s2 := gfMul (gfMul b y ^^^ gfMul x x) inv
    match (List.range len).filter (fun j => let v := gfExp (len - 1 - j); gfMul v v ^^^ gfMul s1 v ^^^ s2 == 0) with
    | [j, k] =>
      let v := gfExp (len - 1 - j)
      let w := gfExp (len - 1 - k)
      let e := gfMul (b ^^^ gfMul v a) (gfInv (v ^^^ w))
      [(j, a ^^^ e), (k, e)]
    | _ => []

/-- What a decoder that corrects two symbol errors takes for the error of a word with this pattern; none where no codeword of `n` check
and `len` symbols lies within two symbols of it: an uncorrectable error (R254). A pattern beyond its limits may come out as the error
against another codeword. -/
def rsFix (n len : Nat) (pat : List (Nat × Nat)) : Option (List (Nat × Nat)) :=
  let s := rsSyndromes n len pat
  let fits (fix : List (Nat × Nat)) : Bool := rsSyndromes n len fix == s
  if fits [] then some []
  else
    let ones := (List.range len).map (fun j => [(j, s.headD 0)])
    match ones.find? fits with
    | some fix => some fix
    | none =>
      let two := rsPair len s
      if !two.isEmpty && fits two then some two else none

end Sys2Proof.Machine
end

