-- ==== Sys2Proof/Config.lean ====
section
/-!
DEFINITION. What an implementation fixes and the spec does not: the free values. Each constant here is opaque and has no body,
so no proof can see a value of it (log entries 2 to 5). A meaning applies one to the counter `fresh` of the state where the
spec leaves a value undefined, or to the operands where the spec bounds a value without stating it.
-/
namespace Sys2Proof.Config

/-- The `n`-th undefined byte: what a destination left undefined holds (R164, R226, R227). -/
opaque freeByte : Nat → Byte
/-- The `n`-th undefined 32-bit value (a nonce, a number the spec does not state). -/
opaque freeNat : Nat → Nat
/-- The `n`-th undefined choice between two courses the spec allows (R623, R170, R254). -/
opaque freeBool : Nat → Bool
/-- Whether the NVM fails at its `n`-th append of a runtime defect (R526). -/
opaque nvmFails : Nat → Bool
/-- Where within 2 ulp an approximate function of R102 lands: function number and operand code to a step of codes. -/
opaque approxStep : Nat → Nat → Nat
/-- Whether a control core handles a misaligned load or store itself or traps it (the RISC-V base lets either). -/
opaque misalignedTraps : Bool
/-- Whether `mtval` of a trap holds the faulting instruction or address, or zero (the RISC-V base lets either). -/
opaque mtvalWritten : Bool
/-- Whether some teacher stage has no holder left once the listed trays are removed (R72): no register or section of the spec holds
which packages hold which stage. -/
opaque stageLost : List Nat → Bool
/-- The PUF seed that the boot ROM reconstructs from the response of the SRAM PUF and the helper data (R538): the code it uses is not stated. -/
opaque pufSeed (response : Nat) (helper : List (BitVec 8)) : Nat
/-- Whether the buddy or the witness of some removed ward is itself in a removed tray (R477): a package's own block names its own buddy,
witness, ward and witnessed package only (Table 13-2). -/
opaque wardLost : List Nat → Bool
/-- The buddy of the package that this one witnesses, to which it sends the digest in step 6 of Table 13-6: Table 13-2 does not name it. -/
opaque buddyOf : Nat → Nat
/-- The digest of the vendor root public key that the boot ROM holds (chapter 16 gives no value). -/
opaque rootDigest : Nat
/-- IDCODE bits [31:28] and [11:1], version and maker: IEEE 1149.1 gives them a place, the spec no value. -/
opaque jtagVersion : Nat
opaque jtagMaker : Nat

end Sys2Proof.Config
end

