-- ==== Sys2Proof/Machine/State.lean ====
section
/-!
DEFINITION. The state of one package: everything the spec gives it, as plain data. Memories are one canonical byte list
(`State.mem`), keyed by package physical address (Table 06-2), with the core RAMs and the configuration NVM above the 48-bit
map; every other register, queue, table and pin stands in `Dev`; `State.pending` is the queue of waiting commands. A `Tab`
lists only what differs from the reader's default, so the reset state is small.
-/
namespace Sys2Proof.Machine

/-- Reasons a step stops with a fault. No command of a well-formed queue raises one: a refused access is a protection
violation, which the spec describes as a change of state (R244, R500). -/
inductive Fault where
  /-- An address outside every memory of the package was reached inside a meaning. Nobody raises it: every meaning checks its
  addresses first (R244). Safe: the machine would stop. -/
  | noSuchAddress (a : Nat)
  deriving DecidableEq, Repr

/-- Reasons a command is refused. -/
inductive Refusal where
  /-- A command whose meaning is not written. Raised by an arm of `exec` only. Safe: nothing can be proved of a next state. -/
  | notModelled (mnemonic : String)
  /-- An operand names a unit, core, port, die or field value the hardware does not have (R10 to R15, R52, R56). Raised by
  `perform` for every command. Safe: the machine has no such command. -/
  | illFormed
  deriving DecidableEq, Repr

/-! ### The units -/

/-- A stationary tile of the matrix engine (R108, R109): per column its K slice, as element codes of `fmt`, and in MXFP4 the
scale byte of each 32-element block. -/
structure Tile where
  mode : Nat := 0
  fmt : Nat := 0
  rows : Nat := 0
  cols : Nat := 0
  elems : List (List Nat) := []
  scales : List (List Nat) := []
  deriving DecidableEq, Repr

/-- An output row in the array: its number and its exact column combinations, not yet rounded (R112, R136). -/
structure RowOut where
  n : Nat
  sums : List Ext
  deriving DecidableEq, Repr

/-- A streamed row in the 128 feeder queues, one entry of each (R140): its number, element codes and MXFP4 block scales. -/
structure FedRow where
  n : Nat
  codes : List Nat
  scales : List Nat
  deriving DecidableEq, Repr

/-- A command in a queue (R215), with what it has done since it started. -/
structure Entry where
  /-- package core number of the control core that pushed it -/
  core : Nat
  /-- the descriptor, its scalar slots replaced under R179 -/
  desc : Desc
  started : Bool := false
  /-- ME_STREAM: rows that entered or were skipped; ring consumer: rows released; DMA: bytes moved -/
  pos : Nat := 0
  /-- ME_STREAM: output rows on their way through the array, oldest first -/
  flight : List RowOut := []
  /-- ME_STREAM: the rows in the feeder queues, oldest first, and the next row the feeder fetches; none before it has begun (R140, R141) -/
  feed : List FedRow := []
  fetchNext : Option Nat := none
  /-- ring consumer: the number of the next row it takes (R124, R125) -/
  ringNext : Nat := 0
  /-- RELEASE drain: the rows read so far, as 32-bit codes; VE_CHAIN: the rows that have left the chain, as codes of its type -/
  rows : List (List Nat) := []
  /-- VE_CHAIN with ACC: the records that stood in D when it started (R194) -/
  old : List (Nat × Int) := []
  /-- VE: lane-cycles of its work that the governor has not counted yet (R594) -/
  lanes : Nat := 0
  /-- ME_LOAD: the tile read, in place once the load completes; ME_STREAM: the shape of the tile its rows meet -/
  tile : Option Tile := none
  /-- a poisoned word was read -/
  poison : Bool := false
  /-- DMA: bases of the destination words or lines poisoned so far; their number is DETAIL of `DMA_POISON_CARRIED` -/
  carried : List Nat := []
  /-- DMA: remote requests sent and not answered, as (position, length), oldest first -/
  await : List (Nat × Nat) := []
  /-- DMA: clock of each of these requests (R455) -/
  sentAt : List Nat := []
  /-- DMA: the port that each of them left by (Table 11-5) -/
  via : List Nat := []
  /-- DMA: a remote package refused a part -/
  remoteRefused : Bool := false
  /-- the work is over with (status, detail); the completion record is still to be written (R220) -/
  ended : Option (Nat × Nat) := none
  deriving DecidableEq, Repr

/-- One of a unit's three command queues with its halt fields (R165, Tables 04-11, 05-13). -/
structure Queue where
  entries : List Entry := []
  halted : Bool := false
  haltStatus : Nat := 0
  haltTag : Nat := 0
  /-- the core whose push the queue took last: a higher-numbered core may meet it in the same CLK_MEM cycle (R214) -/
  lastCore : Option Nat := none
  deriving DecidableEq, Repr

/-- The ring counts of one tile register (R122, Table 04-14), and the rows the ring stream set aside (R119). -/
structure Ring where
  written : Nat := 0
  released : Nat := 0
  active : Bool := false
  base : Nat := 0
  len : Nat := 1
  deriving DecidableEq, Repr

/-- An event counter (Table 05-14). -/
structure Evt where
  count : Nat := 0
  sticky : Bool := false
  deriving DecidableEq, Repr

/-- A completion ring (Table 05-15). -/
structure Cpl where
  base : Nat := 0
  lenLog2 : Nat := 0
  enable : Bool := false
  head : Nat := 0
  tail : Nat := 0
  deriving DecidableEq, Repr

/-- Error counts of a memory (Tables 06-9 and 06-12). -/
structure Ecc where
  corrected : Nat := 0
  poisoned : Nat := 0
  correctedSticky : Bool := false
  poisonedSticky : Bool := false
  deriving DecidableEq, Repr

/-- UM_REGION (Table 06-8), in units of 64 KiB. -/
structure Region where
  wabBase : Nat := 0
  wabSize : Nat := 0
  sbBase : Nat := 0
  sbSize : Nat := 0
  stashBase : Nat := 0
  stashSize : Nat := 0
  deriving DecidableEq, Repr

/-- The stash allocator of a unit (R302): frames as (tier, pages), top first; the spill slice of UM_STASH_SPILL; the grant
register of each core. -/
structure Stash where
  frames : List (Nat × Nat) := []
  unitTop : Nat := 0
  spillTop : Nat := 0
  exhausted : Bool := false
  spillBase : Nat := 0
  spillSize : Nat := 0
  grants : Tab (Nat × Nat) := []
  deriving DecidableEq, Repr

/-- One unit (R46). -/
structure UnitSt where
  me : Queue := {}
  ve : Queue := {}
  dma : Queue := {}
  /-- the stationary tile, none when not loaded -/
  tile : Option Tile := none
  rings : Tab Ring := []
  evts : Tab Evt := []
  cpls : Tab Cpl := []
  region : Region := {}
  ecc : Ecc := {}
  /-- UM_ECC.SPARES_USED -/
  spares : Nat := 0
  stash : Stash := {}
  /-- effective width W; reads 0 until loaded at start, and when the unit is retired (Table 04-12) -/
  width : Nat := 0
  /-- bypass map of the 128 physical columns (ME_COLMAP0–3) -/
  colmap : Nat := 0
  /-- windows refused, number kept (R58) -/
  retired : Bool := false
  /-- the epoch at which the unit was last admitted (R65) -/
  epoch : Nat := 0
  /-- a unit reset runs since the clock named (R599) -/
  resetting : Bool := false
  /-- its memory has been discarded and it may take work again (R50, R483) -/
  admitted : Bool := true
  /-- next word of the patrol scrubber, and whether its request starves (R234, R260) -/
  scrub : Nat := 0
  scrubJoins : Bool := false
  deriving DecidableEq, Repr

/-- What a processor core waits for. -/
inductive Stall where
  | no
  /-- UQ.PUSH on a full queue (R212): queue, the 64 bytes, rd -/
  | push (q : Nat) (desc : Desc) (rd : Nat)
  /-- UQ.WAIT (R212): counter, value, rd -/
  | wait (evt value rd : Nat)
  deriving DecidableEq, Repr

/-- The load of a core (R520–R522). -/
inductive LoadSt where
  | reset | loading | loaded | defective
  deriving DecidableEq, Repr

/-- A processor core (R56): its registers, its machine-mode trap state, and how far its load is. -/
structure CoreSt where
  regs : Tab Word64 := []
  fregs : Tab Word64 := []
  vregs : Tab (List Byte) := []
  pc : Word64 := 0
  priv : Nat := 3
  mstatus : Word64 := 0
  mtvec : Word64 := 0
  mepc : Word64 := 0
  mcause : Word64 := 0
  mtval : Word64 := 0
  mie : Word64 := 0
  mip : Word64 := 0
  mscratch : Word64 := 0
  satp : Word64 := 0
  stall : Stall := .no
  load : LoadSt := .reset
  /-- stopped by a fault reaction (R499) -/
  frozen : Bool := false
  /-- PFC source whose reaction froze an application core; 0 none -/
  frozenBy : Nat := 0
  /-- stopped by a job's end until a unit reset (Table 11-4) -/
  halted : Bool := false
  /-- a released application core takes an access fault at its next step (Table 14-6) -/
  faultDue : Bool := false
  deriving DecidableEq, Repr

/-- A cluster's DMA engine (R221): the unit its round robin serves next, frozen under R499. -/
structure ClusterSt where
  turn : Nat := 0
  frozen : Bool := false
  deriving DecidableEq, Repr

/-! ### Fault collectors -/

/-- An open episode (Table 14-5). -/
structure Episode where
  level : Nat
  ceiling : Nat
  timer : Bool := true
  since : Nat := 0
  /-- highest level whose actions have been performed -/
  done : Nat := 0
  /-- what the events of the episode that entered at L1 or above named: unit of the cluster (8: the whole cluster), function -/
  idents : List Nat := []
  /-- its L2 froze a master (R495) -/
  froze : Bool := false
  deriving DecidableEq, Repr

/-- One fault collector (Tables 14-10 to 14-21). -/
structure Coll where
  status : Word64 := 0
  cause : Word64 := 0
  causeLnk : Word64 := 0
  clerr : Tab Word64 := []
  pvAddr : Nat := 0
  pvKind : Nat := 0
  pvValid : Bool := false
  pvId : Nat := 0
  thresh : Tab (Nat × Nat) := []
  escTimer : Nat := 0
  counts : Tab Nat := []
  sticky : Word64 := 0
  /-- window of R488: start clock, count -/
  windows : Tab (Nat × Nat) := []
  episodes : Tab Episode := []
  deriving DecidableEq, Repr

/-! ### Memory, clocks and power -/

/-- The LPDDR5X block of a die (Tables 06-10 to 06-12), its clock block (Tables 18-10 and 18-12) and its partial reset. -/
structure DieSt where
  rate : Nat := 0
  rateMin : Nat := 0
  zoneGib : Nat := 0
  scrubLog2 : Nat := 0
  rateReached : Nat := 0
  trained : Bool := false
  devices : Nat := 0
  chTrained : Nat := 0
  ecc : Tab Ecc := []
  /-- next code page of each channel's scrubber (R260) -/
  scrub : Tab Nat := []
  domainRun : Nat := 0
  locked : Bool := false
  /-- CLK_URESET.REFUSED -/
  uresetRefused : Bool := false
  /-- 0 none; 1 domains held in reset; 2 released, zeroed and returning (Table 18-9) -/
  preset : Nat := 0
  /-- every master of the die is frozen by a partial reset or the safe state, commands in flight stopped -/
  stopped : Bool := false
  /-- the epoch at which the die was last admitted (R65) -/
  epoch : Nat := 0
  /-- comparators asserted: thermal, supply; PLL out of lock (R504) -/
  thermal : Bool := false
  supply : Bool := false
  pllLost : Bool := false
  deriving DecidableEq, Repr

/-- LP_COW, held alike by the four dies (Table 06-13), the generation of each page that differs from 0, the staged copies
(page, staging address), the pages the streamer has sent out of order in this sheaf, and the first writes that wait. -/
structure CowSt where
  gen : Nat := 0
  active : Bool := false
  abandonRun : Nat := 0
  pageGen : Tab Nat := []
  staged : Tab Nat := []
  /-- first writes whose page copy is under way or waiting for staging: (address, bytes) -/
  waiting : List (Nat × List Byte) := []
  /-- the streamer's next page in ascending order, and the pages it has sent out of order (R270) -/
  next : Nat := 0
  early : List Nat := []
  deriving DecidableEq, Repr

/-- A core rail (Table 18-13). -/
structure Rail where
  vset : Nat := 0
  measured : Nat := 0
  readback : Nat := 0
  avsRail : Nat := 0
  ok : Bool := false
  deriving DecidableEq, Repr

/-- The governor of a region (R594): the count of its window and whether issue is held. -/
structure Gov where
  count : Nat := 0
  hold : Bool := false
  deriving DecidableEq, Repr

/-! ### Jobs -/

/-- An area of LPDDR5X (Table 06-6). -/
structure Area where
  base : Nat
  size : Nat
  write : Bool
  host : Bool
  remote : Bool
  sheaf : Bool
  staging : Bool
  deriving DecidableEq, Repr

/-- A function being disabled with work in flight (R419): when the disable took effect, and its drain limit. -/
structure Drain where
  fn : DisFn
  since : Nat
  limit : Nat
  deriving DecidableEq, Repr

/-- The job block of die 0 (Tables 11-6 to 11-8) and the fields of the entry in force (Table 11-1). -/
structure JobSt where
  index : Nat := 0
  running : Bool := false
  ending : Bool := false
  endCode : Nat := 0xFF
  refusal : Nat := 0
  overQuota : Bool := false
  overrun : Bool := false
  quota : Nat := 0
  step : Nat := 0
  stepSticky : Bool := false
  /-- entry fields -/
  kind : Nat := 0
  maxSteps : Nat := 0
  drainLimit : Nat := 0
  stallLimit : Nat := 0
  timeLimit : Nat := 0
  memQuota : Nat := 0
  stepWcet : Nat := 0
  areas : List Area := []
  /-- the cores of the program section are released and the job runs (R408) -/
  released : Bool := false
  /-- clocks: of the release, of the step counter's last rise, of the running step's first cycle -/
  releasedAt : Nat := 0
  stepAt : Nat := 0
  stepStart : Nat := 0
  /-- SERVE: cycles that steps in flight have taken since the counter's last rise, the step now in flight apart (R414) -/
  flown : Nat := 0
  /-- ending: clock of the end cause; step 4 and step 5 of Table 11-4 done -/
  endedAt : Nat := 0
  stopped : Bool := false
  zeroed : Bool := false
  /-- functions being disabled (R419) -/
  drains : List Drain := []
  /-- functions disabled for good or until re-enabled, the drain over -/
  disabled : List DisFn := []
  deriving DecidableEq, Repr

/-! ### Links -/

/-- Link configuration and routing tables of a die (Tables 12-8 and 12-9, R452: slot 0–7, tray 8–263, row 264–391). -/
structure LinkCfg where
  admOn : Bool := false
  vcWeight : Tab Nat := []
  trainTimeout : Nat := 0
  respTimeout : Nat := 0
  discoveryWindow : Nat := 0
  admitTimeout : Nat := 0
  routes : Tab Nat := []
  deriving DecidableEq, Repr

/-- What the partner of a port has reported (Tables 12-12 and 12-5). -/
structure Partner where
  pkg : Nat := 0
  port : Nat := 0
  adders : Nat := 0
  firmware : Nat := 0
  epoch : Nat := 0
  deviceId : Nat := 0
  rates : Nat := 0
  admOn : Bool := false
  unavailable : Bool := false
  /-- its RATES have come in a rate exchange, and its capability record has come -/
  heard : Bool := false
  seen : Bool := false
  deriving DecidableEq, Repr

/-- The admission exchange of a port (R442, R550): the nonce this side chose, the one it received, the partner's device key
and owner key digest once its certificates verified, and the verdict of its proof. -/
structure Admission where
  ownNonce : Nat := 0
  peerNonce : Nat := 0
  haveNonce : Bool := false
  devX : Nat := 0
  devY : Nat := 0
  idOk : Bool := false
  haveId : Bool := false
  ownerOk : Bool := false
  haveOwner : Bool := false
  ownerDigest : Nat := 0
  proofOk : Bool := false
  haveProof : Bool := false
  failed : Bool := false
  deriving DecidableEq, Repr

/-- A flit waiting to leave by a port, and for a transit flit the port it arrived at and its receive buffer (2·vc + class), which
returns to the partner when the flit leaves (R437). -/
structure TxFlit where
  flit : Flit
  origin : Option (Nat × Nat) := none
  deriving DecidableEq, Repr

/-- The transmit and receive state of a port's link layer (R434–R438). -/
structure LinkLayer where
  /-- stored unacknowledged flits, oldest first -/
  replay : List Flit := []
  txSeq : Nat := 0
  rxNext : Nat := 0
  /-- a discard episode is open: its one NAK is due or has left (R435) -/
  discarding : Bool := false
  nakDue : Bool := false
  /-- replays in a row of the oldest stored flit (R436) -/
  replayFails : Nat := 0
  /-- flits to resend, in order -/
  resend : List Flit := []
  /-- flits routed to this port and not yet sent -/
  txq : List TxFlit := []
  /-- credits used, and buffers to return, per 2·vc + class -/
  used : Tab Nat := []
  owed : Tab Nat := []
  owedTurn : Nat := 0
  /-- weighted round robin: the VC being served and how many flits it has sent in its turn -/
  turn : Nat := 1
  turnSent : Nat := 0
  deriving DecidableEq, Repr

/-- One link port (Tables 12-10 to 12-14) with the steps of its training (Table 12-4). -/
structure Port where
  use : Nat := 0
  expRate : Nat := 0
  expLanes : Nat := 0
  expLength : Nat := 0
  lengthTol : Nat := 0
  expPkg : Nat := 0
  expPort : Nat := 0
  state : Nat := 0
  rate : Nat := 0
  lanes : Nat := 0
  downCause : Nat := 0
  degRate : Bool := false
  degWidth : Bool := false
  degLength : Bool := false
  heldEpoch : Bool := false
  heldUnavail : Bool := false
  heldLate : Bool := false
  busy : Bool := false
  admitted : Bool := false
  dup : Bool := false
  partner : Partner := {}
  loss : Nat := 0
  length : Nat := 0
  lanesOk : Nat := 0
  errCrc : Nat := 0
  errReplay : Nat := 0
  errRetrain : Nat := 0
  errMisrouted : Nat := 0
  errSticky : Nat := 0
  /-- step of Table 12-4 reached: 0 none, 1 pattern, 2 attempts, 7 records, 8 admission -/
  step : Nat := 0
  /-- clock of the retrain under way; it followed a loss of signal and has not been noticed as overdue yet (cause 1 of Table 13-5) -/
  retrainAt : Nat := 0
  lost : Bool := false
  /-- rate code of the attempt, failed attempts at it, clock of the attempt, clock of the last training's end -/
  code : Nat := 0
  attempts : Nat := 0
  since : Nat := 0
  lastEnd : Nat := 0
  /-- the code agreed with the partner for this attempt (R652) -/
  agreed : Bool := false
  signal : Bool := false
  /-- it was HELD when the retrain began; it had trained before the check; a training repeated under R444 -/
  wasHeld : Bool := false
  beforeCheck : Bool := false
  again : Bool := false
  admission : Admission := {}
  link : LinkLayer := {}
  deriving DecidableEq, Repr

/-- LNK_TOPOLOGY (Table 12-15), the clock at which the link stage began, and a package ID found duplicated (R449). -/
structure Topology where
  outcome : Nat := 0
  dupSeen : Bool := false
  down : Nat := 0
  degraded : Nat := 0
  held : Nat := 0
  maxDown : Nat := 0
  maxDegraded : Nat := 0
  started : Bool := false
  since : Nat := 0
  dup : Option Nat := none
  deriving DecidableEq, Repr

/-! ### Start-up -/

/-- The loading of one core (R522): the plan and segment sections it reads from, as package addresses, its group, the segments it
has as (SEQ, key of the payload, bytes), those read in this attempt, the attempt, the clock of the last segment, whether it
gleans, and whether it is under way. -/
structure Loader where
  plan : Nat := 0
  segs : Nat := 0
  group : Nat := 0
  /-- segments of its group that the drill broadcast has sent it (R521) -/
  next : Nat := 0
  got : List (Nat × Nat × Nat) := []
  tried : List Nat := []
  attempt : Nat := 1
  since : Nat := 0
  gleaning : Bool := false
  active : Bool := false
  deriving DecidableEq, Repr

/-- Start-up (Tables 15-15 to 15-19, 19-5 straps) and what it keeps of the defect list. -/
structure BootSt where
  stage : Nat := 0
  /-- how far stage 4 is: 0 begun; 1 the full path is taken; 2 LPDDR5X trained; 3 start test over; and stage 5: 1 the lane
  loopback of a cold start is awaited -/
  sub : Nat := 0
  /-- clock of the stage's beginning -/
  stageAt : Nat := 0
  /-- START_NUMBER has been raised in this cold start (R513) -/
  numbered : Bool := false
  fast : Bool := false
  stopped : Bool := false
  error : Nat := 0
  slot : Nat := 0
  copy : Nat := 0
  exclA : Bool := false
  exclB : Bool := false
  variant : Nat := 0
  certValid : Bool := false
  startSticky : Bool := false
  startNumber : Nat := 0
  imageVersion : Nat := 0
  firmware : Nat := 0
  entries : Nat := 0
  appended : Nat := 0
  unsaved : Nat := 0
  unsavedSticky : Bool := false
  full : Bool := false
  cleared : Bool := false
  digest : Nat := 0
  straps : Tab Nat := []
  slotPin : Nat := 0
  /-- package ID, 0 until stage 2 has selected a slot (R639) -/
  pkg : Nat := 0
  /-- directory copy in use -/
  dirCopy : Nat := 0
  /-- kind of the start under way: true cold -/
  cold : Bool := true
  /-- stage 4 has completed since the last cold reset (R532) -/
  stage4Ever : Bool := false
  /-- READY has been asserted in this start -/
  readyEver : Bool := false
  /-- the collectors act (from the end of stage 2, R510) -/
  armed : Bool := false
  /-- the list in force and the elements held out without an entry (R526, R527) -/
  inForce : List Defect := []
  heldOut : List Defect := []
  /-- elements retired during a partial reset of their die, taking effect after it (R61) -/
  late : List Defect := []
  loaders : Tab Loader := []
  lockTimeout : Nat := 0
  /-- first 8 bytes of the public device ID (Table 12-5) -/
  deviceId8 : Nat := 0
  deriving DecidableEq, Repr

/-- The safe state and recovery (Table 14-22). -/
structure SafeSt where
  fallow : Nat := 0
  recoveryLimit : Nat := 0
  safe : Bool := false
  held : Bool := false
  recoveryCount : Nat := 0
  recoverySticky : Bool := false
  /-- clock at which the fallow timer was last loaded -/
  since : Nat := 0
  /-- the fallow timer has expired and the dies return from their partial resets (steps 4 to 6 of Table 14-8) -/
  leaving : Bool := false
  /-- steward comparators: thermal, supply rails out of their window (4 VDD_CORE_S, 5 VDD_SERDES, 6 VDD_LPPHY), root PLL out of lock -/
  thermal : Bool := false
  supply : List Nat := []
  pllLost : Bool := false
  deriving DecidableEq, Repr

/-- The output and input pins of the sideband (chapter 19), as levels driven or applied; an asserted active-low pin is true. -/
structure Pins where
  ready : Bool := false
  alert : Bool := false
  safe : Bool := false
  thermtrip : Bool := false
  pwrGood : Bool := false
  coldRst : Bool := true
  warmRst : Bool := false
  deriving DecidableEq, Repr

/-! ### The steward -/

/-- A queue pair (Tables 17-7 and 17-8). HEAD, TAIL, READ and WRITE are the full 32-bit counts. -/
structure QPair where
  qbase : Nat := 0
  log2 : Nat := 0
  enable : Bool := false
  rbase : Nat := 0
  rsizeLog2 : Nat := 0
  tail : Nat := 0
  head : Nat := 0
  /-- records from HEAD on that are never taken (R378, R570) -/
  dead : Nat := 0
  qerr : Bool := false
  read : Nat := 0
  write : Nat := 0
  rerr : Bool := false
  deriving DecidableEq, Repr

/-- The answer to the last access of an interface: completed or refused, the value read, and the EP bit of a completion that
carries poison (R574). -/
structure Answer where
  ok : Bool := true
  value : Nat := 0
  ep : Bool := false
  deriving DecidableEq, Repr

/-- The steward block (Tables 17-7 to 17-11), PCIe functions, the management bridge and the test port. -/
structure StwSt where
  pairs : Tab QPair := []
  /-- STW_MBOX_CMD as last written, and the command taken by the controller next -/
  mboxCmd : Nat := 0
  mboxPending : Option Nat := none
  replyCode : Nat := 0
  replyOp : Nat := 0
  busy : Bool := false
  cmdLost : Bool := false
  /-- the loss happened before the command now in progress was taken (R564) -/
  lostBefore : Bool := false
  endIndex : Nat := 0
  endCode : Nat := 0xFF
  endStep : Nat := 0
  irq : Nat := 0
  irqEn : Nat := 0
  irqCores : Nat := 0
  maxGen : Nat := 0
  numVfs : Nat := 0
  gen : Nat := 0
  width : Nat := 0
  vfwin : Tab (Nat × Nat) := []
  ucie : Tab Nat := []
  /-- bus mastering of the physical function, which the virtual functions follow -/
  busMaster : Bool := false
  bridgeAddr : Nat := 0
  bridge : Answer := {}
  pcie : Answer := {}
  jtagInstr : Nat := 0
  jtagOut : Nat := 0
  bsr : Nat := 0
  rails : Tab Rail := []
  locked : Bool := false
  domainRun : Nat := 0
  deriving DecidableEq, Repr

/-! ### Furrows -/

/-- A hop of a furrow ring (R329): at level 0 from a die over one of its UCIe modules to the next die, on the channel's number; above
it over a link port, on the virtual channel of the channel's number (R324), to a package. -/
inductive FurHop where
  | crossing (ucie die : Nat)
  | link (port vc pkg : Nat)
  deriving DecidableEq, Repr

/-- A reduction under way on a channel (R326, R327): its descriptor, the ring levels whose header has been taken, the sums
complete at this die that wait for a partial sum, the words taken so far, and the counts of this die's own result words. -/
structure FurRun where
  desc : Desc
  iter : Nat := 0
  headers : List Nat := []
  /-- sums complete below a ring level, waiting for that level's travelling word -/
  sums : List FurWord := []
  /-- words taken: ring level, gather phase, first element -/
  taken : List (Nat × Bool × Nat) := []
  /-- result exponents to be written: (block, e) -/
  exps : Tab Nat := []
  /-- blocks among them whose word was poisoned (R352) -/
  badExps : List Nat := []
  counts : FurCounts := { nan := 0, poisonWords := 0, satBlocks := 0, maxLift := 0 }
  /-- the group-wide counts, once a die of this package has completed the summary exchange (R353) -/
  agreed : Option FurCounts := none
  /-- clock of the last word -/
  since : Nat := 0
  deriving DecidableEq, Repr

/-- A furrow channel (Tables 09-11 to 09-13): state 0 IDLE, 1 WAITING, 2 RUNNING, 3 HALTED, 4 DISABLED, 5 FROZEN. -/
structure FurChan where
  base : Nat := 0
  len : Nat := 0
  state : Nat := 0
  haltStatus : Nat := 0
  haltTag : Nat := 0
  pc : Nat := 0
  iter : Nat := 0
  iterSticky : Bool := false
  run : Option FurRun := none
  deriving DecidableEq, Repr

/-- The furrow engine of a die (Tables 09-9, 09-10, 09-14), its step latch (R354), and the step of a sheaf point whose verdict
it holds back: channel and iteration (R462). -/
structure FurSt where
  timeout : Nat := 0
  nanPolicy : Bool := false
  groups : Nat := 0
  groupBase : Nat := 0
  skipCount : Nat := 0
  skipSticky : Bool := false
  latch : Bool := false
  held : Option (Nat × Nat) := none
  /-- FUR_COMMIT completions of this die, aligned with the step counter: the step its next one belongs to -/
  commits : Nat := 0
  /-- UCIe module, 0–3 of its group, that takes the next word of the level-0 hop (R329) -/
  rot : Nat := 0
  chans : Tab FurChan := []
  deriving DecidableEq, Repr

/-! ### Serving -/

/-- A class entry (Table 10-2). -/
structure ClassSt where
  deadline : Nat := 0
  ttl1 : Nat := 0
  ttl2 : Nat := 0
  idle : Nat := 0
  deriving DecidableEq, Repr

/-- A variant in service (Table 10-3) and its quota now in force. -/
structure VariantSt where
  valid : Bool := false
  priv : Nat := 0
  experts : List Nat := []
  image : Nat := 0
  quota : Nat := 0
  overQuota : Bool := false
  /-- the reclaim that runs: the clock of its limit, and whether its lateness has been reported (R400) -/
  reclaim : Option (Nat × Bool) := none
  deriving DecidableEq, Repr

/-- A tenant's T0 quota. -/
structure TenantSt where
  image : Nat := 0
  quota : Nat := 0
  overQuota : Bool := false
  reclaim : Option (Nat × Bool) := none
  deriving DecidableEq, Repr

/-- A request that is not final (R373). `state` is the code of Table 10-8, `cause` the blocked cause of Table 10-6. `tier` is
where its cache lies: 0 T0, 1 T1, 2 T2, 3 none; `moving` the tier it moves to. -/
structure Req where
  id : Nat
  cls : Nat := 0
  converse : Bool := false
  spec : Bool := false
  sample : Bool := false
  variant : Nat := 0
  tenant : Nat := 0
  dest : Nat := 0
  destPkg : Nat := 0
  promptAddr : Nat := 0
  promptLen : Nat := 0
  maxNew : Nat := 0
  maxLen : Nat := 0
  decodePkg : Nat := 0
  isLocal : Bool := true
  seed : Nat := 0
  stops : List Nat := []
  state : Nat := 0
  cause : Nat := 0
  promptLeft : Nat := 0
  length : Nat := 0
  emitted : Nat := 0
  turnEmitted : Nat := 0
  dCur : Nat := 0
  zeroStreak : Nat := 0
  fullStreak : Nat := 0
  tier : Nat := 3
  moving : Option Nat := none
  /-- it holds slot, reservation and cost (member of the admitted set), and when it was admitted -/
  admitted : Bool := false
  admittedAt : Nat := 0
  acceptedAt : Nat := 0
  pausedAt : Nat := 0
  /-- order stamp of its last step -/
  steppedAt : Nat := 0
  /-- paused under R382, R389 or R400, or holding input: may be resumed -/
  runnable : Bool := false
  /-- its turn has ended and no input has come since -/
  turnOver : Bool := false
  /-- inputs held while paused, oldest first: (address, length) -/
  inputs : List (Nat × Nat) := []
  /-- clock of the entry into its tier, or into AWAIT_INPUT -/
  since : Nat := 0
  /-- addresses of its cache blocks in T0 or T1, as far as a move has placed them -/
  addrs : List Nat := []
  /-- T2 slots that hold its blocks, or that they are moving to, and the CRC-32C of each block sent there (R275) -/
  t2 : List Nat := []
  crcs : List Nat := []
  /-- it pauses for a reclaim, whose moves come first (R400); order stamp of its move -/
  urgent : Bool := false
  movedAt : Nat := 0
  /-- the port that its blocks leave or return by, while they move over VC6 (Table 11-5) -/
  via : Option Nat := none
  /-- pause under R400 due after the step's commit -/
  pauseDue : Bool := false
  /-- its time to live ran out during the move under way (R274) -/
  expired : Bool := false
  /-- hand-off: 0 none, 1 RESERVE sent, 2 granted, 3 deferred, 4 shipping, 5 TRANSFER sent; 6 GRANTed here and awaiting its
  TRANSFER, 7 owned here since its TRANSFER -/
  hand : Nat := 0
  handAt : Nat := 0
  /-- package at the other end of the hand-off -/
  handPkg : Nat := 0
  deriving DecidableEq, Repr

/-- An entry of the ledger (R396): final with a state, or forwarded to a package. -/
structure LedgerEntry where
  id : Nat
  state : Nat
  forward : Option Nat
  deriving DecidableEq, Repr

/-- A step in flight (R384): decode entries (request, d), chunks (request, tokens), its worst case W, and the clock of its start. -/
structure StepPlan where
  decodes : List (Nat × Nat) := []
  chunks : List (Nat × Nat) := []
  worst : Nat := 0
  since : Nat := 0
  /-- the overrun has been reported -/
  overran : Bool := false
  /-- it cannot commit: a queue halted in it with poison, or its die took a partial reset (R402) -/
  lost : Bool := false
  deriving DecidableEq, Repr

/-- A record entry of Table 10-6 due to a destination: (dest, destination package) and 16 bytes. -/
structure BatchEntry where
  dest : Nat
  destPkg : Nat
  bytes : List Byte
  deriving DecidableEq, Repr

/-- The sequencer (Tables 10-1, 10-10, 10-11; R367): parameters, tables, requests in order of acceptance. -/
structure SrvSt where
  role : Nat := 0
  t2Form : Nat := 0
  t2Target : Nat := 0
  t0Blocks : Nat := 0
  t1Blocks : Nat := 0
  t2Blocks : Nat := 0
  sharedExperts : Nat := 0
  blockBytes : Nat := 0
  maxLenLimit : Nat := 0
  dMax : Nat := 0
  chunkMax : Nat := 0
  prefillReserve : Nat := 0
  stepBase : Nat := 0
  variantCost : Nat := 0
  decodeToken : List Nat := []
  draftToken : List Nat := []
  prefillToken : List Nat := []
  reclaimLimit : Nat := 0
  retryCycles : Nat := 0
  handoffTimeout : Nat := 0
  quotaAdjust : Bool := false
  classes : List ClassSt := []
  variants : Tab VariantSt := []
  tenants : Tab TenantSt := []
  reqs : List Req := []
  /-- blocks held for other packages: (owner, block) (R276) -/
  t2Held : List (Nat × Nat) := []
  ledger : List LedgerEntry := []
  plan : Option StepPlan := none
  /-- rotation point of each class: the admission stamp of its last request in the previous step -/
  rotation : Tab Nat := []
  /-- entries due with the batch of the step in flight -/
  batch : List BatchEntry := []
  /-- the source served last, a pair by number, a front-end package as 8 more than its ID: the round robin of R375 begins behind it -/
  turn : Nat := 7
  /-- final requests whose slot and cache the step in flight still reads (R395) -/
  leaving : List Req := []
  /-- order stamps handed out -/
  stamp : Nat := 0
  overrun : Bool := false
  reclaimLate : Bool := false
  deriving DecidableEq, Repr

/-! ### Sheaves and survivors -/

/-- A sheaf in progress on this package (R462, R465). -/
structure SheafRun where
  seq : Nat
  step : Nat
  slot : Nat
  startStep : Nat
  since : Nat
  /-- pages of the set, and how many have been sent -/
  pages : Nat
  sent : Nat := 0
  digest : Nat := 0
  digestSent : Bool := false
  buddyAck : Bool := false
  witnessAck : Bool := false
  deriving DecidableEq, Repr

/-- A home or ward slot (R465, R469): what it holds. -/
structure SlotSt where
  valid : Bool := false
  seq : Nat := 0
  step : Nat := 0
  pages : Nat := 0
  got : Nat := 0
  deriving DecidableEq, Repr

/-- The resilience block (Table 13-2) and registers (Tables 13-7 to 13-9), the coordinator's and notice takers' books. -/
structure ResSt where
  /-- the job entry has a furrow section, and with it this block -/
  present : Bool := false
  enable : Bool := false
  buddy : Nat := 0
  witness : Nat := 0
  ward : Nat := 0x3FFFF
  witnessed : Nat := 0x3FFFF
  homeBase : Nat := 0
  wardBase : Nat := 0
  slotPages : Nat := 0
  tauMin : Nat := 0
  tauMax : Nat := 0
  kLog2 : Nat := 0
  planLead : Nat := 0
  sheafTimeout : Nat := 0
  noticeWait : Nat := 0
  cursorAddr : Nat := 0
  restartAddr : Nat := 0
  checkBase : Nat := 0
  checkBytes : Nat := 0
  skipPorts : List Nat := []
  roster2 : List Nat := []
  roster3 : List Nat := []
  /-- digest of the program section -/
  programDigest : Nat := 0
  /-- JOB_SHEAF, JOB_SHEAF_STEP -/
  state : Nat := 0
  committedSlot : Nat := 0
  valid : Bool := false
  lastResult : Nat := 0
  tau : Nat := 0
  seq : Nat := 0
  committedStep : Nat := 0
  /-- JOB_RESTORE -/
  checkResult : Nat := 0
  restores : Nat := 0
  restoresSticky : Bool := false
  lostSteps : Nat := 0
  /-- the sheaf point planned, and whether the plan is still ahead -/
  planned : Option Nat := none
  nextSeq : Nat := 0
  run : Option SheafRun := none
  home : List SlotSt := []
  wards : List SlotSt := []
  /-- digests this package holds as a witness, newest first, the one of the committed sheaf, and in a restore the witness's digest of
  this package's removed ward -/
  witnessDigests : List Nat := []
  witnessGood : Option Nat := none
  wardDigest : Option Nat := none
  /-- DONE messages taken by slot 0 from its tray, and by the coordinator from the trays -/
  trayDones : List ResMsg := []
  coordDones : List ResMsg := []
  /-- S of the last PLAN -/
  lastPoint : Nat := 0
  /-- step numbers of the last 16 notices -/
  notices : List Nat := []
  /-- trays named by notices not yet acted on, clock of the first -/
  named : List Nat := []
  namedAt : Nat := 0
  /-- trays removed so far; clock at which this package last sent a notice that no REFORM has answered -/
  removed : List Nat := []
  noticeAt : Option Nat := none
  /-- messages that await a response: (package, clock) -/
  awaiting : List (Nat × Nat) := []
  /-- restore: 0 none, 1 REFORM taken (steps 1 to 4 done), 2 digest checked and READY sent; 3 waiting to be admitted after JOIN -/
  restore : Nat := 0
  refetched : Bool := false
  /-- STEP of the REFORM taken, to which the restore goes back -/
  reformStep : Nat := 0
  readies : List Nat := []
  joins : List Nat := []
  /-- digests of the replica check received by slot 0: (package, digest) -/
  checks : Tab Nat := []
  checkSent : Bool := false
  deriving DecidableEq, Repr

/-! ### Identity -/

/-- Identity and attestation (Tables 16-5 to 16-8). The device private key stays here and no register reads it (R539). -/
structure SecSt where
  rootOk : Bool := false
  pufOk : Bool := false
  idCertOk : Bool := false
  ownerSigned : Bool := false
  installed : Bool := false
  floor : Nat := 0
  deviceId : Nat := 0
  key : Nat := 0
  keyX : Nat := 0
  keyY : Nat := 0
  nonce : Tab Nat := []
  busy : Bool := false
  result : Nat := 0
  addr : Nat := 0
  /-- the report latched at START, unsigned, the address it goes to, and the master that asked -/
  report : List Byte := []
  target : Nat := 0
  asker : Option Master := none
  /-- OWNER_KEY_DIGEST of the running image -/
  ownerDigest : Nat := 0
  /-- the 32 section entries of the running image, as they were verified at its start (R547, Table 16-3) -/
  sections : List Byte := []
  deriving DecidableEq, Repr

/-- A message that leaves the package or its host interfaces, newest last in the outbox. -/
inductive Msg where
  /-- capability record on a port (R441) -/
  | capability (p : Nat) (rec : CapRecord)
  /-- request of a cluster DMA engine to another package (R224) -/
  | remoteRequest (pkg unit addr len : Nat) (write : Bool) (data : List Byte) (poison : Bool)
  /-- answer to another package's request (R224, R446) -/
  | remoteResponse (pkg port : Nat) (refused : Bool) (data : List Byte) (poison : Bool)
  /-- MSI-X vector of a function (Table 17-6) -/
  | msix (fn vector : Nat)
  /-- peer abort of channel `c` of die `d`, on the hop of one ring of the group (R363) -/
  | peerAbort (d c : Nat) (hop : FurHop)
  /-- header of a reduction, to the next member at a ring level (R327) -/
  | furHeader (d c : Nat) (hop : FurHop) (hdr : FurHeader)
  /-- word of a reduction to the next member at its ring level (R332, R342) -/
  | furWord (d c : Nat) (hop : FurHop) (w : FurWord)
  /-- a member's counts into the summary exchange (R353) -/
  | furCounts (d c : Nat) (hop : FurHop) (n : FurCounts)
  /-- a data flit sent on a port (R434), and a null flit or NAK -/
  | flit (p : Nat) (f : Flit)
  | nullFlit (p : Nat) (w : LinkWord)
  /-- a data flit handed to its virtual channel's consumer in this package (R453) -/
  | delivered (p : Nat) (f : Flit)
  /-- rate proposal on a port, with this side's RATES (R652, step 2 of Table 12-4) -/
  | rateProposal (p code rates : Nat)
  /-- admission exchange on a port (Table 16-4) -/
  | admNonce (p nonce : Nat)
  | admIdentity (p : Nat) (cert : List Byte)
  | admOwner (p : Nat) (cert : List Byte)
  | admProof (p : Nat) (proof : AdmProof)
  /-- resilience message of a type (Table 13-4) to a package; it leaves in a flit on VC0 (R468) -/
  | resilience (pkg type : Nat) (m : ResMsg)
  /-- sheaf page, or the manifest as page index 0, to the buddy on VC7; the lines of the page that are poisoned (R258, R432, R465) -/
  | sheafPage (pkg slot seq index addr : Nat) (data : List Byte) (poison : List Nat)
  /-- a buddy's or witness's acknowledgement or refusal -/
  | sheafAck (pkg seq : Nat) (witness : Bool) (ok : Bool)
  /-- a READY of a survivor to the coordinator (Table 13-6) -/
  | survivorReady (pkg : Nat)
  /-- a batch of step records to a front-end package (R377) -/
  | batch (pkg : Nat) (data : List Byte)
  /-- hand-off messages (Table 10-9): RESERVE, GRANT, DEFER, TRANSFER, its acknowledgement, ABANDON, and a forwarded CANCEL -/
  | reserve (pkg : Nat) (r : Reserve)
  | grant (pkg req : Nat)
  | defer (pkg req : Nat)
  | transfer (pkg : Nat) (t : Transfer)
  | transferAck (pkg req : Nat)
  | abandon (pkg req : Nat)
  | cancel (pkg req : Nat)
  /-- the cache of a request starts a move to a tier (R274) -/
  | move (req tier : Nat)
  /-- a cache block written over VC6 to a package, or (none) to the host buffer, with its CRC-32C (R273, R275, Table 10-9) -/
  | block (req : Nat) (pkg : Option Nat) (addr : Nat) (data : List Byte) (crc : Nat)
  /-- the owner frees the block at an address of a T2 neighbour (R276) -/
  | t2Free (pkg block : Nat)
  /-- a VC6 request of a package is refused: this one is BUSY, or the requester frozen (R446, Table 14-6) -/
  | refused (pkg : Nat)
  deriving DecidableEq, Repr

/-! ### The whole -/

/-- Everything but the memories and the command queue. -/
structure Dev where
  units : Tab UnitSt := []
  cores : Tab CoreSt := []
  clusters : Tab ClusterSt := []
  dies : Tab DieSt := []
  colls : Tab Coll := []
  cow : CowSt := {}
  gov : Tab Gov := []
  job : JobSt := {}
  linkCfg : Tab LinkCfg := []
  ports : Tab Port := []
  topo : Topology := {}
  /-- remote packages frozen as requesters until this package's job ends (Table 14-6) -/
  frozenRemotes : List Nat := []
  boot : BootSt := {}
  safe : SafeSt := {}
  pins : Pins := {}
  stw : StwSt := {}
  furrows : Tab FurSt := []
  srv : SrvSt := {}
  res : ResSt := {}
  sec : SecSt := {}
  /-- membership epoch (R65), 32 bits, and stuck (R411) -/
  epoch : Nat := 0
  epochStuck : Bool := false
  /-- bases of the poisoned unit memory words and LPDDR5X lines (R255) -/
  poison : List Nat := []
  /-- symbol errors present in a stored codeword, by its base address: (symbol, exclusive or of stored and written) (R254) -/
  errs : Tab (List (Nat × Nat)) := []
  /-- answer to the last access of each processor core -/
  answers : Tab Answer := []
  outbox : List Msg := []
  /-- the model's own: CLK_SLOW cycles elapsed, and how many free values have been drawn -/
  slow : Nat := 0
  fresh : Nat := 0
  deriving DecidableEq, Repr

/-- One package: its memories as one canonical byte list, its devices, and the commands that wait, first in, first out. -/
structure State where
  mem : List Host.Cell
  dev : Dev
  pending : List Instr
  deriving DecidableEq, Repr

/-- The package at a cold reset, before any command: every field at its Reset value (R18, R648), no byte of memory listed,
nothing pending. -/
def State.reset : State := { mem := [], dev := {}, pending := [] }

end Sys2Proof.Machine
end

