-- ==== Sys2Proof/WellFormed.lean ====
section
/-!
DEFINITION. Which commands name hardware that exists: a unit below 512 (R11), a core below 2,094 (R56), a control core below
2,048, a port below 36 (R52), a die below 4, a furrow channel 1 to 4 (R324), and fields within their widths.
-/
namespace Sys2Proof

/-- One of the five collectors, and a source it has (Tables 14-1 and 14-2). -/
def sourceOk (coll source : Nat) : Bool := (coll < 4 && source < 48) || (coll == 4 && 4 ≤ source && source < 17)

/-- How many causes a source has (Tables 14-1 and 14-2). -/
def causeCount (coll source : Nat) : Nat :=
  if coll < 4 then
    if source < 16 then 9 else if source < 20 then 1 else if source < 28 then 3 else if source < 37 then 5
    else if source < 41 then 2 else if source = 42 then 4 else 1
  else if source = 4 || source = 6 || source = 9 then 2 else 1

/-- A pulse of an error pin carries at least one cause of its source (R484). -/
def FaultEvent.wf (e : FaultEvent) : Bool :=
  sourceOk e.coll e.source && !e.causes.isEmpty && e.causes.all (fun k => k.cause < causeCount e.coll e.source && k.unit < 8)

/-- Is the access size one of the four? -/
def sizeOk (n : Nat) : Bool := n == 1 || n == 2 || n == 4 || n == 8

/-- A function to disable exists. -/
def DisFn.wf : DisFn → Bool
  | .linkPort p => p < 36
  | .furrow d c => d < 4 && 1 ≤ c && c ≤ 4
  | .variant v => v < 1024
  | .unit u => u < 512
  | .pcie f => f < 9
  | .pair q => q < 8

/-- A source of input records exists. -/
def Source.wf : Source → Bool
  | .pair q => q < 8
  | .frontEnd pkg => pkg < 2 ^ 18

/-- A register master exists. -/
def Master.wf : Master → Bool
  | .mgmt i => i < 2
  | .app i => i < 24
  | .dieMgmt d => d < 4
  | .pf => true
  | .vf v => 1 ≤ v && v ≤ 8
  | .control core => core < 2048

/-- The fields of a flit fit their widths (Table 12-3). -/
def Flit.wf (f : Flit) : Bool :=
  f.vc < 8 && f.cls < 2 && f.hops < 32 && f.dst < 2 ^ 18 && f.src < 2 ^ 18 && f.payload.length ≤ 240 && f.seq < 4096 &&
  f.ack < 4096 && f.creditVc < 8 && f.creditCls < 2 && f.credit < 8

/-- The fields of a null flit's link word fit their widths. -/
def LinkWord.wf (w : LinkWord) : Bool := w.ack < 4096 && w.creditVc < 8 && w.creditCls < 2 && w.credit < 8

/-- A die and channel of the furrows. -/
def chanOk (d c : Nat) : Bool := d < 4 && 1 ≤ c && c ≤ 4

/-- Does the command name only hardware that exists? -/
def Instr.wf : Instr → Bool
  | .uqPush core rd rs1 rs2 | .uqPushnb core rd rs1 rs2 | .uqWait core rd rs1 rs2 =>
    core < 2048 && rd < 32 && rs1 < 32 && rs2 < 32
  | .uqEvt core rd rs1 | .uqQstat core rd rs1 => core < 2048 && rd < 32 && rs1 < 32
  | .uqSig core rs1 rs2 => core < 2048 && rs1 < 32 && rs2 < 32
  | .uqEvclr core rs1 => core < 2048 && rs1 < 32
  | .pushAccept core | .waitSatisfied core => core < 2048
  | .illegalInstruction core w => core < 2048 && w < 2 ^ 32
  | .controlCoreAccess core _ a n v rd _ => core < 2048 && a < 2 ^ 32 && (n == 1 || n == 2 || n == 4) && v < 2 ^ 32 && rd < 32
  | .meLoad u | .meLoadComplete u | .meStream u | .meStreamRowEntry u | .meOutputRowWrite u | .meStreamComplete u
  | .meDrain u | .meDrainComplete u | .meFence u | .meFenceComplete u => u < 512
  | .ringRowConsume u t => u < 512 && t < 4
  | .completionRecordWrite u q => u < 512 && q < 3
  | .veChain u | .veChainComplete u | .veWinnow u | .veWinnowComplete u | .veFence u | .veFenceComplete u => u < 512
  | .dmaCopy u | .dmaCopyComplete u | .dmaFence u | .dmaFenceComplete u => u < 512
  | .dmaChunk k => k < 64
  | .remoteAccessRequest p src a n w data _ => p < 36 && src < 2 ^ 18 && a < 2 ^ 48 && n < 2 ^ 32 && data.length == (if w then n else 0)
  | .remoteResponse u _ _ _ => u < 512
  | .respTimeout u => u < 512
  | .umStashClaim core v | .umStashRelease core v => core < 2048 && v < 2 ^ 32
  | .umPatrolScrub u | .scrubStarvation u => u < 512
  | .lpPatrolScrub ch => ch < 128
  | .cowFirstWrite a data => a + data.length ≤ 2 ^ 48 && data ≠ []
  | .cowPageCopied page => page < 2 ^ 32
  | .sheafPageSend => true
  | .tierMoveComplete req m => req < 2 ^ 32 && (m.src ++ m.dst).all (fun a => a < 2 ^ 48)
  | .t2FreeRequest owner _ => owner < 2 ^ 18
  | .ttlExpiry req => req < 2 ^ 32
  | .furReduce d c | .furScale d c | .furCommit d c | .furLoop d c | .furPeerAbort d c | .furTimeout d c
  | .furChannelDisable d c => chanOk d c
  | .furHeader d c _ => chanOk d c
  | .headlandAdd d c w => chanOk d c && w.level < 4
  | .furSummaryExchange d c _ => chanOk d c
  | .submit src _ | .cancel src _ | .input src _ | .endTurn src _ | .quota src _ | .variantDisable src _ => src.wf
  | .buildStep => true
  | .stepCommit _ failed => failed.weights.all (fun v => v < 1024)
  | .srvOverrun => true
  | .pauseIdle req => req < 2 ^ 32
  | .reclaimLate _ => true
  | .reserve pkg _ => pkg < 2 ^ 18
  | .grant req | .defer req | .retryCycles req | .transferAcknowledge req | .handoffTimeout req | .abandon req =>
    req < 2 ^ 32
  | .transfer _ => true
  | .mboxStart | .mboxStop | .mboxQuota | .jobRelease | .timeLimit | .jobStalled | .jobDrainComplete | .jobDrainLimit
  | .jobEndReport => true
  | .disableDrainLimit fn => fn.wf
  | .flitSend p own => p < 36 && own.all (fun m => m.1 < 4 && m.2.wf)
  | .dataFlitReceive p raw _ => p < 36 && raw.length == 256
  | .nullFlit p w | .nak p w => p < 36 && w.wf
  | .linkSignalDetect p | .linkSignalLoss p | .trainTimeout p | .admitTimeout p => p < 36
  | .rateProposal p r rates => p < 36 && r < 3 && rates < 8
  | .equalisationComplete p lanes loss delay => p < 36 && lanes < 16 && loss < 256 && delay < 65536
  | .capabilityRecord p r => p < 36 && r.pkg < 2 ^ 18 && r.epoch < 2 ^ 32 && r.adders < 32 && r.rates < 8
  | .admNonce p n => p < 36 && n < 2 ^ 384
  | .admIdentity p _ | .admOwner p _ | .admProof p _ => p < 36
  | .discoveryWindow p => match p with | some q => q < 36 | none => true
  | .topologyCheck => true
  | .sheafStart | .sheafComplete | .sheafTimeout | .noticeWait | .reformWaitTimeout | .restoreDigest | .jobRestoreCheck
  | .sheafRefused => true
  | .sheafPageReceive src _ _ _ a page => src < 2 ^ 18 && a < 2 ^ 48 && page.bytes.length ≤ 65536 && page.poison.all (fun l => l < 512)
  | .plan _ | .done _ | .digest _ | .notice _ | .reform _ | .resume _ | .join _ | .check _ => true
  | .survivorReady pkg | .resilienceMessageTimeout pkg => pkg < 2 ^ 18
  | .faultEvent e => e.wf
  | .collectorSelfCheck coll => coll < 5
  | .thermalTrip d | .thermalTripClear d => d < 5
  | .supplyWindow r | .supplyWindowClear r => r < 7
  | .pllUnlock p | .lockTimeout p | .pllRelock p => p < 5
  | .escalationTimer coll s => sourceOk coll s
  | .fcAck coll v => coll < 5 && v < 2 ^ 32
  | .fcAckRelease v => v < 2 ^ 32
  | .fallowTimer => true
  | .governorWindow r => r < 16
  | .pwrGoodFall => true
  | .coldRstN _ | .warmRstN _ => true
  | .bootControlWarm v => v < 2 ^ 32
  | .resetRelease | .selectImage | .imageCopy | .readyAssert => true
  | .bootRom straps slot _ => straps.length == 8 && straps.all (fun v => v ≤ 1980) && slot < 8
  | .rootPllLock rails ucie => rails.length == 5 && ucie.length == 4 && ucie.all (fun r => r.1 ≤ 2 && (r.1 != 2 || r.2 ≤ 2))
  | .lpddr5xTraining present failing => present.length == 32 && failing.length == 128
  | .startTest _ _ => true
  | .fastPath _ => true
  | .segment core _ | .gleanWait core | .gleanFetch core _ | .coreLoadComplete core => core < 2094
  | .clkPreset v => v < 16
  | .partialResetRelease d | .partialResetReturn d => d < 4
  | .clkUreset d v => d < 4 && v < 2 ^ 32
  | .unitResetComplete u => u < 512
  | .stwQptrTail m q tail => m.wf && q < 8 && tail < 2 ^ 32
  | .stwRptrRead m q v => m.wf && q < 8 && v < 2 ^ 32
  | .pairDisable q | .pairEnable q => q < 8
  | .secAttestStart m v => m.wf && v < 2 ^ 64
  | .attestationComplete => true
  | .pcieFlr f => f < 9
  | .sriovDisable vf => match vf with | some v => 1 ≤ v && v ≤ 8 | none => true
  | .busMasterDisable | .busMasterEnable => true
  | .pcieAccess f bar _ n _ v => f < 9 && (bar == 0 || bar == 2 || bar == 4) && sizeOk n && v < 2 ^ 64
  | .stewardCoreAccess core _ a n v rd _ => 2070 ≤ core && core < 2094 && a < 2 ^ 48 && sizeOk n && v < 2 ^ 64 && rd < 32
  | .mgmtCoreAccess core _ a n v rd _ => 2064 ≤ core && core < 2070 && a < 2 ^ 48 && sizeOk n && v < 2 ^ 64 && rd < 32
  | .nvmWrite off data _ => off + data.length ≤ 2 ^ 32
  | .i3cAddressWrite v => v < 2 ^ 64
  | .i3cBridgeRead | .bypass | .idcode | .samplePreload | .extest => true
  | .registerWrite m a n v => m.wf && a < 2 ^ 48 && sizeOk n && v < 2 ^ 64
  | .mboxBadCommand => true
  | .pcieLinkTrained gen width => gen < 3 && width ≤ 16
end Sys2Proof
end

