-- ==== Sys2Proof/Machine/Ops.lean ====
section
/-!
DEFINITION. The operations over memory and registers that every meaning is written in. A meaning is a function of a `Ctx`: the
memory as the command found it, the devices, and the log of memory writes so far, which its own reads see. `State.run` applies
the log to the memory once, so every command keeps the memory's canonical form and leaves the queue alone; `perform` refuses
a command that names hardware that does not exist.
-/
namespace Sys2Proof.Machine

/-! ### Memory -/

/-- The value of one byte; an unlisted byte reads 0 (log entry 1). -/
def Memory.get (m : List Host.Cell) (a : Nat) : Byte :=
  match m.find? (fun p => p.1 == a) with
  | some p => p.2
  | none => 0

/-- Write one byte, keeping addresses rising and no zero listed. -/
def Memory.put (m : List Host.Cell) (a : Nat) (v : Byte) : List Host.Cell :=
  m.filter (fun p => p.1 < a) ++ (if v = 0 then [] else [(a, v)]) ++ m.filter (fun p => a < p.1)

/-- Write zero to `n` bytes. -/
def Memory.zero (m : List Host.Cell) (lo n : Nat) : List Host.Cell := m.filter (fun p => p.1 < lo || lo + n ≤ p.1)

/-- The canonical form: addresses strictly rising, nothing listed that an unlisted byte reads as. -/
abbrev Memory.wf (m : List Host.Cell) : Prop := m.Pairwise (fun p q => p.1 < q.1) ∧ ∀ p ∈ m, p.2 ≠ 0

/-- One memory write of a meaning. `free` leaves `n` bytes undefined: byte `lo + i` takes the free byte `seed + i`. -/
inductive Wr where
  | byte (a : Nat) (v : Byte)
  | zero (lo n : Nat)
  | free (lo n seed : Nat)
  deriving DecidableEq, Repr

/-- The memory after one write. -/
def Wr.apply (m : List Host.Cell) : Wr → List Host.Cell
  | .byte a v => Memory.put m a v
  | .zero lo n => Memory.zero m lo n
  | .free lo n seed => (List.range n).foldl (fun m i => Memory.put m (lo + i) (Config.freeByte (seed + i))) m

/-- The memory after a log of writes, newest first. -/
def applyLog (m : List Host.Cell) : List Wr → List Host.Cell
  | [] => m
  | w :: rest => w.apply (applyLog m rest)

/-- What a meaning works on. -/
structure Ctx where
  mem : List Host.Cell
  dev : Dev
  log : List Wr
  deriving DecidableEq, Repr

/-- One byte as a read finds it: through the log, newest first, to the memory. -/
def readLog (m : List Host.Cell) (a : Nat) : List Wr → Byte
  | [] => Memory.get m a
  | .byte b v :: rest => if a = b then v else readLog m a rest
  | .zero lo n :: rest => if lo ≤ a ∧ a < lo + n then 0 else readLog m a rest
  | .free lo n seed :: rest => if lo ≤ a ∧ a < lo + n then Config.freeByte (seed + (a - lo)) else readLog m a rest

/-- One byte. -/
def Ctx.byte (c : Ctx) (a : Nat) : Byte := readLog c.mem a c.log

/-- `n` bytes from `a`. -/
def Ctx.read (c : Ctx) (a n : Nat) : List Byte := (List.range n).map (fun i => c.byte (a + i))

/-- A little-endian number of `n` bytes (R8). -/
def Ctx.readNat (c : Ctx) (a n : Nat) : Nat := ofBytes (c.read a n)

/-- Write bytes from `a`. -/
def Ctx.write (c : Ctx) (a : Nat) : List Byte → Ctx
  | [] => c
  | v :: t => Ctx.write { c with log := .byte a v :: c.log } (a + 1) t

/-- Write a little-endian number of `n` bytes. -/
def Ctx.writeNat (c : Ctx) (a n x : Nat) : Ctx := c.write a (toBytes n x)

/-- Write zero to `n` bytes. -/
def Ctx.zero (c : Ctx) (lo n : Nat) : Ctx := if n = 0 then c else { c with log := .zero lo n :: c.log }

/-- Draw `k` free values: the counter before, and the context after. -/
def Ctx.draw (c : Ctx) (k : Nat) : Nat × Ctx := (c.dev.fresh, { c with dev := { c.dev with fresh := c.dev.fresh + k } })

/-- Leave `n` bytes from `lo` undefined (R164, R226). -/
def Ctx.undef (c : Ctx) (lo n : Nat) : Ctx :=
  if n = 0 then c else
  let (seed, c') := c.draw n
  { c' with log := .free lo n seed :: c'.log }

/-- Run a meaning on a state: the log goes to memory, the devices are the meaning's, the queue stays. -/
def State.run (s : State) (f : Ctx → Ctx) : State :=
  let c := f { mem := s.mem, dev := s.dev, log := [] }
  { mem := applyLog s.mem c.log, dev := c.dev, pending := s.pending }

/-- Perform a command: refused if it names hardware that does not exist, else the next state. -/
def perform (i : Instr) (s : State) (f : Ctx → Ctx) : Host.Outcome State Fault Refusal :=
  if i.wf then .next (s.run f) else .refused .illFormed

/-- The context a meaning starts from. -/
def State.ctx (s : State) : Ctx := { mem := s.mem, dev := s.dev, log := [] }

/-! ### Address map (Table 06-2, Table 17-1; log entry 6 for the keys above the map) -/

/-- Usable LPDDR5X, 3.75 TiB. -/
def lpSize : Nat := 0x03C000000000
/-- Unit memory of unit `u`. -/
def umBase (u : Nat) : Nat := 0x100000000000 + u * 2 ^ 26
/-- Populated bytes of a unit's memory: 48 MiB (R229). -/
def umSize : Nat := 0x3000000
/-- Tile registers of unit `u`. -/
def trBase (u : Nat) : Nat := 0x200000000000 + u * 2 ^ 20
/-- Element (i, j) of tile register `t` (R173). -/
def trAddr (u t i j : Nat) : Nat := trBase u + 2 ^ 18 * t + 512 * i + 4 * j
/-- Queue RAM, 32 MiB. -/
def queueRam : Nat := 0xF00080000000
/-- Bytes of queue RAM. -/
def queueRamSize : Nat := 0x2000000
/-- Boot window of application core `i`, 1 MiB. -/
def bootWindow (i : Nat) : Nat := 0xF00090000000 + i * 2 ^ 20
/-- Key of a core's own RAM: local addresses 0–0xFFFF instruction, 0x1_0000–0x1_7FFF data. -/
def coreRam (core : Nat) : Nat := 2 ^ 48 + core * 2 ^ 17
/-- Key of NVM byte 0. -/
def nvmBase : Nat := 2 ^ 60
/-- Image copy `k` (R518). -/
def imageCopy (k : Nat) : Nat := 0x03BF80000000 + k * 0x40000000

/-- What an address of the package map is (Table 06-2). -/
inductive Place where
  | lpddr
  | um (u off : Nat)
  | tr (u off : Nat)
  | queue (off : Nat)
  | boot (i off : Nat)
  | stewardReg (off : Nat)
  | dieReg (d off : Nat)
  | unmapped
  deriving DecidableEq, Repr

/-- The place of a package physical address. -/
def place (a : Nat) : Place :=
  if a < lpSize then .lpddr
  else if 0x100000000000 ≤ a && a < 0x100800000000 then
    let o := a - 0x100000000000
    if o % 2 ^ 26 < umSize then .um (o / 2 ^ 26) (o % 2 ^ 26) else .unmapped
  else if 0x200000000000 ≤ a && a < 0x200020000000 then
    let o := a - 0x200000000000
    .tr (o / 2 ^ 20) (o % 2 ^ 20)
  else if queueRam ≤ a && a < queueRam + queueRamSize then .queue (a - queueRam)
  else if bootWindow 0 ≤ a && a < bootWindow 24 then .boot ((a - bootWindow 0) / 2 ^ 20) ((a - bootWindow 0) % 2 ^ 20)
  else if 0xF00000000000 ≤ a && a < 0xF00001000000 then .stewardReg (a - 0xF00000000000)
  else if 0xF00100000000 ≤ a && a < 0xF00500000000 then
    let o := a - 0xF00100000000
    .dieReg (o / 2 ^ 32) (o % 2 ^ 32)
  else .unmapped

/-! ### Numbering (R10–R13, R52, R56) -/

/-- Die of a unit. -/
def dieOfUnit (u : Nat) : Nat := u / 128
/-- Cluster (package number) of a unit. -/
def clusterOf (u : Nat) : Nat := u / 8
/-- Region (package number) of a unit. -/
def regionOf (u : Nat) : Nat := u / 32
/-- The 7-bit cluster index of cluster `k` (package number): die[6:5], region[4:3], cluster[2:0] (R12). -/
def clusterIndex (k : Nat) : Nat := 32 * (k / 16) + 8 * (k / 4 % 4) + k % 4
/-- What the mhartid register of a core reads: its package core number (R56). It is hard-wired. -/
def mhartid (core : Nat) : Word64 := BitVec.ofNat 64 core
/-- Unit 0 of a cluster is the wide one (R13). -/
def isWide (u : Nat) : Bool := u % 8 == 0
/-- Unit of a control core. -/
def unitOfCore (core : Nat) : Nat := core / 4
/-- Die of a control, region management or die management core. -/
def dieOfCore (core : Nat) : Nat :=
  if core < 2048 then core / 512 else if core < 2064 then (core - 2048) / 4 else core - 2064

/-! ### Tables of the devices -/

def Ctx.unit (c : Ctx) (u : Nat) : UnitSt := Tab.get {} c.dev.units u
def Ctx.setUnit (c : Ctx) (u : Nat) (x : UnitSt) : Ctx := { c with dev := { c.dev with units := Tab.set c.dev.units u x } }
def Ctx.updUnit (c : Ctx) (u : Nat) (f : UnitSt → UnitSt) : Ctx := c.setUnit u (f (c.unit u))
def Ctx.core (c : Ctx) (n : Nat) : CoreSt := Tab.get {} c.dev.cores n
def Ctx.updCore (c : Ctx) (n : Nat) (f : CoreSt → CoreSt) : Ctx :=
  { c with dev := { c.dev with cores := Tab.set c.dev.cores n (f (c.core n)) } }
def Ctx.cluster (c : Ctx) (k : Nat) : ClusterSt := Tab.get {} c.dev.clusters k
def Ctx.updCluster (c : Ctx) (k : Nat) (f : ClusterSt → ClusterSt) : Ctx :=
  { c with dev := { c.dev with clusters := Tab.set c.dev.clusters k (f (c.cluster k)) } }
def Ctx.die (c : Ctx) (d : Nat) : DieSt := Tab.get {} c.dev.dies d
def Ctx.updDie (c : Ctx) (d : Nat) (f : DieSt → DieSt) : Ctx :=
  { c with dev := { c.dev with dies := Tab.set c.dev.dies d (f (c.die d)) } }
def Ctx.coll (c : Ctx) (k : Nat) : Coll := Tab.get {} c.dev.colls k
def Ctx.updColl (c : Ctx) (k : Nat) (f : Coll → Coll) : Ctx :=
  { c with dev := { c.dev with colls := Tab.set c.dev.colls k (f (c.coll k)) } }
def Ctx.port (c : Ctx) (p : Nat) : Port := Tab.get {} c.dev.ports p
def Ctx.updPort (c : Ctx) (p : Nat) (f : Port → Port) : Ctx :=
  { c with dev := { c.dev with ports := Tab.set c.dev.ports p (f (c.port p)) } }
def Ctx.linkCfg (c : Ctx) (d : Nat) : LinkCfg := Tab.get {} c.dev.linkCfg d
def Ctx.pair (c : Ctx) (q : Nat) : QPair := Tab.get {} c.dev.stw.pairs q
def Ctx.updPair (c : Ctx) (q : Nat) (f : QPair → QPair) : Ctx :=
  { c with dev := { c.dev with stw := { c.dev.stw with pairs := Tab.set c.dev.stw.pairs q (f (c.pair q)) } } }
def Ctx.updJob (c : Ctx) (f : JobSt → JobSt) : Ctx := { c with dev := { c.dev with job := f c.dev.job } }
def Ctx.updBoot (c : Ctx) (f : BootSt → BootSt) : Ctx := { c with dev := { c.dev with boot := f c.dev.boot } }
def Ctx.updSafe (c : Ctx) (f : SafeSt → SafeSt) : Ctx := { c with dev := { c.dev with safe := f c.dev.safe } }
def Ctx.updPins (c : Ctx) (f : Pins → Pins) : Ctx := { c with dev := { c.dev with pins := f c.dev.pins } }
def Ctx.updStw (c : Ctx) (f : StwSt → StwSt) : Ctx := { c with dev := { c.dev with stw := f c.dev.stw } }
def Ctx.updCow (c : Ctx) (f : CowSt → CowSt) : Ctx := { c with dev := { c.dev with cow := f c.dev.cow } }
def Ctx.updTopo (c : Ctx) (f : Topology → Topology) : Ctx := { c with dev := { c.dev with topo := f c.dev.topo } }
def Ctx.send (c : Ctx) (m : Msg) : Ctx := { c with dev := { c.dev with outbox := c.dev.outbox ++ [m] } }
def Ctx.answer (c : Ctx) (core : Nat) (a : Answer) : Ctx :=
  { c with dev := { c.dev with answers := Tab.set c.dev.answers core a } }

def Ctx.fur (c : Ctx) (d : Nat) : FurSt := Tab.get {} c.dev.furrows d
def Ctx.updFur (c : Ctx) (d : Nat) (f : FurSt → FurSt) : Ctx :=
  { c with dev := { c.dev with furrows := Tab.set c.dev.furrows d (f (c.fur d)) } }
def Ctx.chan (c : Ctx) (d k : Nat) : FurChan := Tab.get {} (c.fur d).chans k
def Ctx.updChan (c : Ctx) (d k : Nat) (f : FurChan → FurChan) : Ctx :=
  c.updFur d (fun x => { x with chans := Tab.set x.chans k (f (Tab.get {} x.chans k)) })

/-- A pair whose records still in the queue are never taken (R378, R570). -/
def QPair.leave (p : QPair) : QPair := { p with dead := (p.tail + 2 ^ 32 - p.head) % 2 ^ 32 }
/-- Go past the records that are never taken: HEAD moves when the queue is used again. -/
def QPair.skip (p : QPair) : QPair := { p with head := (p.head + p.dead) % 2 ^ 32, dead := 0 }

/-- CLK_SLOW cycles since a stamp. -/
def Ctx.since (c : Ctx) (stamp : Nat) : Nat := c.dev.slow - stamp

/-- Integer register `r` of a core; x0 reads zero. -/
def CoreSt.reg (k : CoreSt) (r : Nat) : Word64 := if r = 0 then 0 else Tab.get 0 k.regs r
/-- Write an integer register; x0 discards. -/
def CoreSt.setReg (k : CoreSt) (r : Nat) (v : Word64) : CoreSt := if r = 0 then k else { k with regs := Tab.set k.regs r v }

/-- Is a reset of the package held: an input low, or power not good? -/
def resetHeld (c : Ctx) : Bool := c.dev.pins.coldRst || c.dev.pins.warmRst || !c.dev.pins.pwrGood

/-- Is a fence of the die's compute logic closed: in partial reset before its return, or in the safe state (R503, R602)? -/
def Ctx.dieStopped (c : Ctx) (d : Nat) : Bool := (c.die d).stopped || c.dev.safe.safe

/-- Can core `n` execute its next step? -/
def Ctx.coreRuns (c : Ctx) (n : Nat) : Bool :=
  let k := c.core n
  k.load = .loaded && !k.frozen && !k.halted && k.stall = .no && (decide (2048 ≤ n) || c.dev.job.released) &&
    (if n < 2064 then !c.dieStopped (dieOfCore n) else if 2070 ≤ n then !c.dev.safe.safe else true)

end Sys2Proof.Machine
end

