-- ==== Sys2Proof/Machine/Faults.lean ====
section
/-!
DEFINITION. Fault collection as shared operations (chapter 14): recording and classifying an event, the ladder and its
actions, freezing a master, retiring an element, the safe state, and a protection violation. Every command that raises an
event goes through `raise` or `violate`.
-/
namespace Sys2Proof.Machine

/-! ### Interrupts and pins -/

/-- Set bit `n` of a 64-bit word. -/
def setBit (w : Word64) (n : Nat) : Word64 := w ||| (1#64 <<< n)

/-- Set a pending bit of STW_IRQ; an enabled one raises the supervisor external interrupt of the cores chosen (Table 17-10). -/
def irqRaise (b : Nat) (c : Ctx) : Ctx :=
  let c1 := c.updStw (fun s => { s with irq := s.irq ||| 2 ^ b })
  if bit c1.dev.stw.irqEn b then
    forAll ((List.range 24).filter (fun i => bit c1.dev.stw.irqCores i))
      (fun i a => a.updCore (2070 + i) (fun k => { k with mip := setBit k.mip 9 })) c1
  else c1

/-- Send an MSI-X vector while bus mastering is on (R573). The spec places no mask bits and no command for those of a virtual function. -/
def msix (fn v : Nat) (c : Ctx) : Ctx :=
  if c.dev.stw.busMaster then c.send (.msix fn v) else c

/-- Is any episode open at L1 or above in any collector (R497)? -/
def anyEpisode (c : Ctx) : Bool :=
  (List.range 5).any (fun k => (c.coll k).episodes.any (fun p => decide (p.2.level ≥ 1)))

/-- ALERT_N follows the episodes, the safe state and a stopped start-up (R497, R509, R621); its assertion is an event (Tables 17-6, 17-10). -/
def updAlert (c : Ctx) : Ctx :=
  let a := anyEpisode c || c.dev.safe.safe || c.dev.boot.stopped
  let c1 := c.updPins (fun p => { p with alert := a })
  if a && !c.dev.pins.alert then msix 0 2 (irqRaise 10 c1) else c1

/-! ### Capability records -/

/-- A port in a state that has trained: UP, DEGRADED, HELD (Table 12-6). -/
def Port.trained (p : Port) : Bool := p.state == 2 || p.state == 3 || p.state == 6

/-- Is a compute partial reset of some die in progress? -/
def anyPreset (c : Ctx) : Bool := (List.range 4).any (fun d => decide ((c.die d).preset ≠ 0))

/-- The capability record the package sends on port `p` (Table 12-5). All adders are present on every part. -/
def capOf (c : Ctx) (p : Nat) (lanesOk deviceId : Nat) : CapRecord :=
  { version := 1, rates := 7, lanesOk := lanesOk, adders := 31, pkg := c.dev.boot.pkg, port := p,
    firmware := c.dev.boot.firmware, epoch := c.dev.epoch, deviceId := deviceId, busy := anyPreset c,
    unavailable := c.dev.safe.safe || c.dev.boot.stopped, admOn := (c.linkCfg 0).admOn,
    dup := c.dev.topo.dup.isSome, part := c.dev.boot.variant, dupId := c.dev.topo.dup.getD 0 }

/-- Send the record on every port that has sent it in its training: whenever EPOCH, FLAGS or DUP_ID changes (R441). -/
def sendCaps (c : Ctx) : Ctx :=
  forAll ((List.range 36).filter (fun p => (c.port p).trained || decide (7 ≤ (c.port p).step)))
    (fun p a => a.send (.capability p (capOf a p (a.port p).lanesOk a.dev.boot.deviceId8))) c

/-! ### Ending a job, disabling a function -/

/-- The first end cause taken latches END_CODE and sets ENDING (R415, step 1 of Table 11-4). -/
def endCause (code : Nat) (c : Ctx) : Ctx :=
  if c.dev.job.running && !c.dev.job.ending then
    c.updJob (fun j => { j with ending := true, endCode := code, endedAt := c.dev.slow })
  else c

/-- A function is disabled, its drain over or not (R419). -/
def isDisabled (c : Ctx) (fn : DisFn) : Bool :=
  c.dev.job.disabled.contains fn || c.dev.job.drains.any (fun d => d.fn == fn)

/-- Start disabling a function with work in flight (R419); a second disable does not restart its timer (R421). -/
def disableFn (fn : DisFn) (c : Ctx) : Ctx :=
  if isDisabled c fn then c
  else c.updJob (fun j => { j with drains := j.drains ++ [{ fn := fn, since := c.dev.slow, limit := j.drainLimit }] })

/-! ### The defect list (R524, R526) -/

/-- The 16 bytes of an entry (Table 15-11). -/
def defectBytes (e : Defect) : List Byte :=
  let b0 := e.kind + 16 * e.level
  let tail := toBytes 4 e.index ++ toBytes 4 e.sub ++ toBytes 4 e.firstSeen
  let sum := b0 + e.count + b2n e.runtime + (tail.map (fun b => b.toNat)).sum
  [BitVec.ofNat 8 b0, BitVec.ofNat 8 e.count, BitVec.ofNat 8 (b2n e.runtime), BitVec.ofNat 8 (255 - sum % 256)] ++ tail

/-- NVM address of field `off` of the directory copy in use (Table 15-3). -/
def dirField (c : Ctx) (off n : Nat) : Nat := c.readNat (nvmBase + (if c.dev.boot.dirCopy = 1 then 0x1000 else 0) + off) n

/-- First empty slot of the defect area, from slot `i` on. -/
def firstEmpty (c : Ctx) (base : Nat) : Nat → Nat → Option Nat
  | 0, _ => none
  | k + 1, i => if (c.read (base + 16 * i) 16).all (fun b => b == 0xFF) then some i else firstEmpty c base k (i + 1)

/-- Append an entry in the first empty slot: `none` when the area is full. -/
def defectWrite (c : Ctx) (e : Defect) : Option Ctx :=
  let base := nvmBase + dirField c 20 4
  match firstEmpty c base (dirField c 24 4 / 16) 0 with
  | some i => some (c.write (base + 16 * i) (defectBytes e))
  | none => none

/-- A runtime entry: appended, or, in a full area or with an NVM that fails, held out and counted in UNSAVED (R526). Whether the NVM fails is
a free value (log entry 128). The second result asks for an NVM event. -/
def defectAppend (e : Defect) (c0 : Ctx) : Ctx × Bool :=
  let (k, c) := c0.draw 1
  match (if Config.nvmFails k then none else defectWrite c e) with
  | some c1 => (c1.updBoot (fun b => { b with appended := b.appended + 1 }), false)
  | none =>
    (c.updBoot (fun b =>
      let (n, s) := stick 255 b.unsaved 1
      { b with unsaved := n, unsavedSticky := b.unsavedSticky || s, heldOut := b.heldOut ++ [e] }), true)

/-- The defect entry of an element found bad in service, RUNTIME set once READY has been asserted (Table 15-11). -/
def runtimeDefect (c : Ctx) (kind level index sub count : Nat) : Defect :=
  { kind := kind, level := level, count := count, runtime := c.dev.boot.readyEver, index := index, sub := sub,
    firstSeen := c.dev.boot.startNumber }

/-! ### Freezing (Table 14-6) -/

/-- Freeze a control core; its job ends with `JOB_FAULT` (R415). -/
def freezeControl (core : Nat) (c : Ctx) : Ctx := endCause 0x14 (c.updCore core (fun k => { k with frozen := true }))
/-- Freeze a cluster DMA engine. -/
def freezeCluster (k : Nat) (c : Ctx) : Ctx := endCause 0x14 (c.updCluster k (fun x => { x with frozen := true }))
/-- Freeze a remote requester until this package's job ends. -/
def freezeRemote (pkg : Nat) (c : Ctx) : Ctx :=
  if c.dev.frozenRemotes.contains pkg then c else { c with dev := { c.dev with frozenRemotes := pkg :: c.dev.frozenRemotes } }
/-- Hold an application core at its faulting instruction; `source` is the PFC source of the reaction. -/
def freezeApp (source i : Nat) (c : Ctx) : Ctx :=
  c.updCore (2070 + i) (fun k => { k with frozen := true, frozenBy := if k.frozen then k.frozenBy else source })

/-! ### Partial reset and safe state: their entry -/

/-- The step in flight of a SERVE job cannot commit (R402). -/
def stepLost (c : Ctx) : Ctx :=
  { c with dev := { c.dev with srv := { c.dev.srv with plan := c.dev.srv.plan.map (fun p => { p with lost := true }) } } }

/-- What a unit reset clears (R50, R118, R309): queues, tile registers, event counters, completion rings, allocator; the fields
loaded (L), UM_ECC, the region and the spill slice stay. -/
def UnitSt.cleared (x : UnitSt) : UnitSt :=
  { width := x.width, colmap := x.colmap, retired := x.retired, region := x.region, ecc := x.ecc, spares := x.spares,
    epoch := x.epoch, scrub := x.scrub, scrubJoins := x.scrubJoins, admitted := false,
    stash := { spillBase := x.stash.spillBase, spillSize := x.stash.spillSize } }

/-- The furrow channels of a die freeze with its other masters (Table 14-6). -/
def chansFreeze (d : Nat) (c : Ctx) : Ctx :=
  { c with dev := { c.dev with furrows := c.dev.furrows.map (fun p =>
      if p.1 = d then
        (p.1, { p.2 with chans := p.2.chans.map (fun q =>
          (q.1, if q.2.state = 0 then q.2 else { q.2 with state := 5, run := none })) })
      else p) } }

/-- Steps 2 and 3 of Table 18-9: the die's masters freeze, commands in flight stop without records, and the domains of its regions are
held in reset: units, control cores, region management cores, cluster engines and governors at their reset values (Table 18-8, R647). -/
def presetHold (d : Nat) (c : Ctx) : Ctx :=
  let c1 := chansFreeze d (c.updDie d (fun x =>
    { x with preset := 1, stopped := true, domainRun := x.domainRun - x.domainRun % 256 }))
  let inDie (n k : Nat) : Bool := n / k == d
  let c2 : Ctx := { c1 with dev := { c1.dev with
    units := c1.dev.units.map (fun p => if inDie p.1 128 then (p.1, p.2.cleared) else p)
    cores := c1.dev.cores.filter (fun p => !((p.1 < 2048 && inDie p.1 512) || (2048 ≤ p.1 && p.1 < 2064 && inDie (p.1 - 2048) 4)))
    clusters := c1.dev.clusters.filter (fun p => !inDie p.1 16)
    gov := c1.dev.gov.filter (fun p => !inDie p.1 4) } }
  let c3 := c2.updBoot (fun b => { b with loaders := b.loaders.filter (fun p =>
    !((p.1 < 2048 && inDie p.1 512) || (2048 ≤ p.1 && p.1 < 2064 && inDie (p.1 - 2048) 4))) })
  (c3.zero (coreRam (512 * d)) (512 * 2 ^ 17)).zero (coreRam (2048 + 4 * d)) (4 * 2 ^ 17)

/-- Start a compute partial reset of die `d` (Table 18-9): absorbed while one runs (R51), no effect in the safe state (R600). A job
other than SERVE ends (R415), the step in flight of a SERVE job cannot commit (R402). BUSY goes to every partner. -/
def presetStart (d : Nat) (c : Ctx) : Ctx :=
  if c.dev.safe.safe || decide ((c.die d).preset ≠ 0) then c
  else
    let c1 := presetHold d c
    let c2 := if c.dev.job.kind = 2 then stepLost c1 else endCause 0x14 c1
    sendCaps c2

/-- Enter the safe state (Table 14-7): every master stops, READY is released, ALERT_N and SAFE_N are asserted, the capability
records say UNAVAILABLE, a job's end is latched as `JOB_FAULT`, the fallow timer is loaded, and partial resets are abandoned (R496). The
application cores stay frozen after it (R499): `source` is the PFC_STATUS bit under which FC_ACK releases them. -/
def safeEnter (source : Nat) (c : Ctx) : Ctx :=
  if c.dev.safe.safe then c
  else
    let c1 := c.updSafe (fun s => { s with safe := true, since := c.dev.slow })
    let c2 := forAll (List.range 4) (fun d a => chansFreeze d (if (a.die d).preset = 0 then a else a.updDie d (fun x => { x with preset := 0 }))) c1
    let c3 := forAll (List.range 24) (fun i a => if (a.core (2070 + i)).load = .loaded then freezeApp source i a else a) c2
    endCause 0x14 (sendCaps (updAlert (c3.updPins (fun p => { p with ready := false, safe := true }))))

/-! ### Retiring (R498) -/

/-- Take a unit out at once: no work in flight, windows refused, width 0, its control cores held in reset (R58, R520, Table 04-12). -/
def unitGone (u : Nat) (c : Ctx) : Ctx :=
  let c1 := forAll [4 * u, 4 * u + 1, 4 * u + 2, 4 * u + 3] (fun n a => a.updCore n (fun k => if k.load = .defective then k else {}))
    (c.updBoot (fun b => { b with loaders := b.loaders.filter (fun p => p.1 / 4 != u) }))
  c1.updUnit u (fun x => { x with retired := true, width := 0 })

/-- Disable a unit being retired: with a drain while a job runs (R419), late during a partial reset of its die (R61), at once
otherwise. -/
def unitDisable (u : Nat) (e : Defect) (c : Ctx) : Ctx :=
  if (c.unit u).retired then c
  else if (c.die (dieOfUnit u)).preset ≠ 0 then c.updBoot (fun b => { b with late := b.late ++ [e] })
  else if c.dev.job.running && c.dev.job.released then disableFn (.unit u) c
  else unitGone u c

/-- Address of group entry `i` of die `d` (R328). -/
def groupEntry (c : Ctx) (d i : Nat) : Nat := (c.fur d).groupBase + 64 * i
/-- N_L and POS_L of the entry at `e`, 1 and 0 for a level that is absent. -/
def entryLevel? (c : Ctx) (e l : Nat) : Nat × Nat :=
  if bit (c.readNat (e + 1) 1) l then (c.readNat (e + 16 * l) 2, c.readNat (e + 16 * l + 2) 2) else (1, 0)
/-- Link port of the entry at `e` that leads die `d` to NEXT_L (`o` = 12) or from PREV_L (`o` = 14). -/
def entryPort (c : Ctx) (e d l o : Nat) : Nat := 9 * d + bits (c.readNat (e + 16 * l + o) 2) (4 * d) 4

/-- Channels of port `p`'s die whose running reduction uses the port (Table 11-5). -/
def chansThrough (c : Ctx) (p : Nat) : List Nat :=
  let d := p / 9
  [1, 2, 3, 4].filter (fun k => match (c.chan d k).run with
    | some r =>
      let e := groupEntry c d (bits r.desc.toNat 56 6)
      [1, 2, 3].any (fun l => (entryLevel? c e l).1 != 1 && [12, 14].any (fun o => entryPort c e d l o == p))
    | none => false)

/-- A port is disabled: so are the channels whose reduction runs through it (R364). -/
def disableThrough (p : Nat) (c : Ctx) : Ctx :=
  (chansThrough c p).foldl (fun a k => a.updChan (p / 9) k (fun x => if x.state = 2 then { x with state := 4 } else x)) c

/-- Take a port DOWN with `DISABLED` (Table 12-6), its transmitters idle, its traffic drained under R419; during a partial reset of its die
after that (R61), when `late` says that it is over. -/
def portDisable (late : Bool) (p : Nat) (c : Ctx) : Ctx :=
  if !late && decide ((c.die (p / 9)).preset ≠ 0) then c.updBoot (fun b => { b with late := b.late ++ [runtimeDefect c 7 3 p 0 1] }) else
  let c1 := disableThrough p (c.updPort p (fun x => { x with state := 5, downCause := 7, step := 0 }))
  if c.dev.job.running then disableFn (.linkPort p) c1 else c1

/-- Disable a PCIe function with its pairs (R574). -/
def functionDisable (f : Nat) (c : Ctx) : Ctx :=
  let owns (q : Nat) : Bool := if c.dev.stw.numVfs > q then f == q + 1 else f == 0
  let qs := (List.range 8).filter (fun q => owns q && (c.pair q).enable)
  let c1 := forAll qs (fun q a => disableFn (.pair q) (a.updPair q (fun x => { x.leave with enable := false }))) c
  disableFn (.pcie f) c1

/-- The elements an L3 of a source retires (Tables 14-1, 14-2): units by package number. -/
def l3Units (coll source : Nat) (idents : List Nat) : List Nat :=
  if coll < 4 then
    if source < 16 then
      if idents.contains 8 then (List.range 8).map (fun i => 128 * coll + 8 * source + i)
      else idents.map (fun i => 128 * coll + 8 * source + i)
    else if source < 20 then (List.range 32).map (fun i => 128 * coll + 32 * (source - 16) + i)
    else []
  else []

/-- Has the source an element to retire (Table 14-4)? -/
def hasL3 (coll source : Nat) : Bool :=
  if coll < 4 then source < 20 || (28 ≤ source && source < 37) else source == 6

/-- Entry level of a class: 0 NOTE, 1 CORRECTED, 2 DEGRADE, 3 SEVERE, 4 FATAL (Table 14-4). -/
def entryLevel : Nat → Nat
  | 2 => 1 | 3 => 2 | 4 => 5 | _ => 0

/-- Ceiling of a class. -/
def ceilingLevel (l3 : Bool) : Nat → Nat
  | 2 => if l3 then 3 else 1
  | 3 => if l3 then 3 else 4
  | 4 => 5
  | _ => 0

/-- Classification in the source's window (R488): the class, and the window after. -/
def classify (now n w : Nat) (win : Nat × Nat) (cls : Nat) : Nat × (Nat × Nat) :=
  if cls = 1 || cls = 2 then
    let win1 := if win.2 = 0 || decide (now - win.1 ≥ w * 65536) then (now, 0) else win
    let k := win1.2 + 1
    if k ≥ n then (3, (win1.1, 0)) else (cls, (win1.1, k))
  else (cls, win)

/-- Record an event at L0 (R485, R489): the status bit and the counter. -/
def recordEvent (coll source : Nat) (c : Ctx) : Ctx :=
  c.updColl coll (fun x =>
    let (n, s) := stick 255 (Tab.get 0 x.counts source) 1
    { x with
      status := setBit x.status source
      counts := Tab.set x.counts source n
      sticky := if s then setBit x.sticky source else x.sticky })

/-- The actions of one level for a source (Table 14-3). `again` raises the NVM event of a failed append. -/
def levelAction (again : Ctx → Ctx) (coll source : Nat) (idents : List Nat) (lvl : Nat) (c : Ctx) : Ctx :=
  match lvl with
  | 1 => forAll [2068, 2069] (fun n a => a.updCore n (fun k => { k with mip := setBit k.mip 11 })) c
  | 2 => if coll = 4 && source = 4 then forAll idents (freezeApp 4) c else c
  | 3 =>
    if coll < 4 && 28 ≤ source && source < 37 then
      let p := 9 * coll + (source - 28)
      let (c1, failed) := defectAppend (runtimeDefect c 7 3 p 0 1) c
      portDisable false p (if failed then again c1 else c1)
    else if coll = 4 && source = 6 then forAll idents functionDisable c
    else
      forAll (l3Units coll source idents)
        (fun u a =>
          if (a.unit u).retired || isDisabled a (.unit u) then a
          else
            let e := runtimeDefect a 1 0 u 0 1
            let (a1, failed) := defectAppend e a
            unitDisable u e (if failed then again a1 else a1)) c
  | 4 => if coll < 4 then presetStart coll c else c
  | 5 => safeEnter (if coll = 4 then source else coll) c
  | _ => c

/-- Raise an episode to `lvl`: the actions not yet performed, in order, those on an element that the episode has not named before (`news`) at
the levels it has performed as well (R490, R492, R496; log entry 36). Nothing runs in the safe state (R504). -/
def raiseTo (again : Ctx → Ctx) (coll source lvl : Nat) (news : List Nat) (c : Ctx) : Ctx :=
  match (c.coll coll).episodes.find? (fun p => p.1 == source) with
  | none => c
  | some (_, e) =>
    if c.dev.safe.safe then c
    else
      let todo := (List.range 6).filter (fun l => l ≤ lvl && (e.done < l || ((l == 2 || l == 3) && !news.isEmpty)))
      let c1 := c.updColl coll (fun x => { x with episodes := Tab.set x.episodes source { e with done := max e.done lvl } })
      forAll todo (fun l a => levelAction again coll source (if e.done < l then e.idents else news) l a) c1

/-- One event of a source (R484–R492), the NVM event of a failed append at most `fuel` deep. -/
def raiseN : Nat → Nat → Nat → Nat → List Nat → Ctx → Ctx
  | 0, _, _, _, _, c => c
  | fuel + 1, coll, source, cls, idents, c =>
    let again : Ctx → Ctx := fun a => raiseN fuel 4 7 2 [] (a.updColl 4 (fun x => { x with cause := setBit x.cause 6 }))
    let c1 := recordEvent coll source c
    if !c.dev.boot.armed then c1
    else
      let x := c1.coll coll
      let (n, w) := Tab.get (0, 0) x.thresh source
      let (cls1, win) := classify c.dev.slow n w (Tab.get (0, 0) x.windows source) cls
      let c2 := c1.updColl coll (fun y => { y with windows := Tab.set y.windows source win })
      let c3 := if c.dev.safe.safe then c2.updSafe (fun s => { s with since := c.dev.slow }) else c2
      let lvl := entryLevel cls1
      let old := x.episodes.find? (fun p => p.1 == source)
      if lvl = 0 && old.isNone then c3
      else
        let l3 := hasL3 coll source
        let known := old.elim [] (fun o => o.2.idents)
        let news := if lvl = 0 then [] else idents.filter (fun i => !known.contains i)
        let e : Episode := match old with
          | some (_, o) =>
            { o with
              level := max o.level lvl
              ceiling := max o.ceiling (ceilingLevel l3 cls1)
              idents := o.idents ++ news }
          | none => { level := lvl, ceiling := ceilingLevel l3 cls1, since := c.dev.slow, idents := idents }
        let c4 := c3.updColl coll (fun y => { y with episodes := Tab.set y.episodes source e })
        updAlert (raiseTo again coll source e.level news c4)

/-- One event of a source. -/
def raise (coll source cls : Nat) (idents : List Nat) (c : Ctx) : Ctx := raiseN 2 coll source cls idents c

/-! ### Events of the blocks, with their cause bits -/

/-- A cause of unit `u` in the cluster error register (Table 14-12): bit 0 MEM_CORRECTED, 1 MEM_POISONED, 2 QUEUE_POISON,
3 CORE_POISON, 4 COLUMN, 5 CHECKER, 6 STASH. -/
def unitCause (u cause : Nat) (c : Ctx) : Ctx :=
  let d := dieOfUnit u
  let k := clusterOf u % 16
  c.updColl d (fun x => { x with clerr := Tab.set x.clerr k (setBit (Tab.get 0 x.clerr k) (7 * (u % 8) + cause)) })

/-- The unit raises its error pin with a cause. -/
def unitEvent (u cause : Nat) (c : Ctx) : Ctx :=
  let cls := if cause = 0 then 1 else if cause ≤ 4 then 2 else 3
  raise (dieOfUnit u) (clusterOf u % 16) cls [u % 8] (unitCause u cause c)

/-- LPDDR5X controller `k` of die `d` raises its pin: 0 CORRECTED, 1 POISONED, 2 CONTROLLER. -/
def lpEvent (d k cause : Nat) (c : Ctx) : Ctx :=
  raise d (20 + k) (if cause = 0 then 1 else if cause = 1 then 2 else 3) []
    (c.updColl d (fun x => { x with cause := setBit x.cause (3 * k + cause) }))

/-- Link port `p` raises its pin: 0 CORRECTED, 1 RETRAIN, 2 DOWN, 3 MISROUTED, 4 DUP. -/
def linkEvent (p cause : Nat) (c : Ctx) : Ctx :=
  let d := p / 9
  raise d (28 + p % 9) (if cause = 0 then 1 else if cause ≤ 2 then 2 else 0) []
    (c.updColl d (fun x => { x with causeLnk := setBit x.causeLnk (5 * (p % 9) + cause) }))

/-- The die management core of die `d` raises a NOTE or FATAL cause of bit 42: bits 32 SRV_OVERRUN, 33 RECLAIM_LATE,
34 JOB_OVERRUN, 35 MGMT_CORE. -/
def mgmtEvent (d b : Nat) (c : Ctx) : Ctx :=
  raise d 42 (if b = 35 then 4 else 0) [] (c.updColl d (fun x => { x with cause := setBit x.cause b }))

/-! ### Protection violations (R58, R500) -/

/-- Hold the record of the first violation (R500, Table 14-16). -/
def pvRecord (coll kind id addr : Nat) (c : Ctx) : Ctx :=
  c.updColl coll (fun x =>
    if x.pvValid then x else { x with pvAddr := addr % 2 ^ 48, pvKind := kind, pvId := id, pvValid := true })

/-- The open episode of a source froze a master (R495). -/
def markFroze (coll source : Nat) (c : Ctx) : Ctx :=
  c.updColl coll (fun x =>
    { x with episodes := x.episodes.map (fun p => if p.1 = source then (p.1, { p.2 with froze := true }) else p) })

/-- A control core's refused access: raised in its die's collector, the core frozen. -/
def violateCore (core addr : Nat) (c : Ctx) : Ctx :=
  freezeControl core (markFroze (dieOfCore core) 46 (raise (dieOfCore core) 46 3 [] (pvRecord (dieOfCore core) 0 core addr c)))

/-- A cluster DMA engine's refused access while it moves; FC_PV1 takes the 7-bit cluster index (Table 14-16, R12). -/
def violateCluster (k addr : Nat) (c : Ctx) : Ctx :=
  freezeCluster k (markFroze (k / 16) 46 (raise (k / 16) 46 3 [] (pvRecord (k / 16) 1 (clusterIndex k) addr c)))

/-- A remote requester's refused access, in the collector of the die whose port received it. -/
def violateRemote (d pkg addr : Nat) (c : Ctx) : Ctx :=
  freezeRemote pkg (markFroze d 46 (raise d 46 3 [] (pvRecord d 3 pkg addr c)))

/-- A steward application core's refused access (PFC bit 14, APP_CORE_ID). -/
def violateApp (i addr : Nat) (c : Ctx) : Ctx :=
  let c1 := c.updColl 4 (fun x =>
    { x with cause := BitVec.ofNat 64 (x.cause.toNat - bits x.cause.toNat 8 5 * 2 ^ 8 + i * 2 ^ 8) })
  freezeApp 14 i (raise 4 14 3 [] (pvRecord 4 4 (2070 + i) addr c1))

/-- A management core's refused access: a FATAL cause of its own source (R58, R500). -/
def violateMgmt (core : Nat) (c : Ctx) : Ctx :=
  if core < 2068 then mgmtEvent (core - 2064) 35 c else raise 4 5 4 [] c

/-- A PCIe function's refused access: PCIE_FUNCTION, naming the function (R561). -/
def pcieRefused (f : Nat) (c : Ctx) : Ctx :=
  let c1 := c.updColl 4 (fun x =>
    let w := x.cause.toNat
    { x with cause := setBit (BitVec.ofNat 64 (w - bits w 13 4 * 2 ^ 13 + f * 2 ^ 13)) 3 })
  raise 4 6 2 [f] c1

end Sys2Proof.Machine
end

