-- ==== Sys2Proof/Machine/Ecc.lean ====
section
/-!
DEFINITION. Error correction and poison (R230, R253–R259, R651), and a write that respects them.
-/
namespace Sys2Proof.Machine

/-- Package channel and channel-local offset of a usable LPDDR5X address (R252). -/
def lpDecode (zoneGib a : Nat) : Nat × Nat :=
  let z := zoneGib * 2 ^ 30
  if a < z then
    let k := a / 4096
    (32 * (k % 4) + (k / 4) % 32, (k / 128) * 4096 + a % 4096)
  else
    let q := (3840 * 2 ^ 30 - z) / 4
    let d := (a - z) / q
    let k := ((a - z) % q) / 4096
    (32 * d + k % 32, z / 128 + (k / 32) * 4096 + a % 4096)

/-- Device offset of a channel-local offset (R252, R253). -/
def lpDeviceOffset (o : Nat) : Nat := (o / 128 / 15) * 2048 + (o / 128 % 15) * 128 + o % 128

/-- The bank of the word at a unit memory offset (R230). -/
def umBank (o : Nat) : Nat := bits o 6 5 ^^^ bits o 11 5

/-- Bytes of the codeword at an address: a 64-byte word, or a 128-byte line. -/
def wordSize (a : Nat) : Nat := if a < lpSize then 128 else 64
/-- Base of the codeword at an address. -/
def wordBase (a : Nat) : Nat := a - a % wordSize a
/-- Does the place hold codewords: unit memory or LPDDR5X? -/
def isCoded (a : Nat) : Bool := a < lpSize || (0x100000000000 ≤ a && a < 0x100800000000)

/-- Bases of the codewords that `n` bytes from `a` touch. -/
def wordsOf (a n : Nat) : List Nat :=
  if n = 0 || !isCoded a then [] else
  let s := wordSize a
  (List.range ((a + n - 1) / s - a / s + 1)).map (fun i => (a / s + i) * s)

/-- Is a codeword poisoned? -/
def isPoisoned (c : Ctx) (base : Nat) : Bool := c.dev.poison.contains base
/-- Is any codeword of `n` bytes from `a` poisoned? -/
def poisonAt (c : Ctx) (a n : Nat) : Bool := !c.dev.poison.isEmpty && (wordsOf a n).any (isPoisoned c)
/-- Poison a codeword in place. -/
def setPoison (base : Nat) (c : Ctx) : Ctx :=
  if isPoisoned c base then c else { c with dev := { c.dev with poison := base :: c.dev.poison } }
/-- Clear the poison and errors of a codeword written whole (R259). -/
def clearWord (base : Nat) (c : Ctx) : Ctx :=
  { c with dev := { c.dev with poison := c.dev.poison.filter (fun b => b != base), errs := Tab.del base c.dev.errs } }

/-- Count one corrected or newly poisoned codeword (R262). -/
def Ecc.add (e : Ecc) (poisoned : Bool) : Ecc :=
  if poisoned then
    let (n, s) := stick 255 e.poisoned 1
    { e with poisoned := n, poisonedSticky := e.poisonedSticky || s }
  else
    let (n, s) := stick 255 e.corrected 1
    { e with corrected := n, correctedSticky := e.correctedSticky || s }

/-- Count and report a corrected (false) or poisoned (true) codeword (R256, R257). -/
def eccEvent (base : Nat) (poisoned : Bool) (c : Ctx) : Ctx :=
  if base < lpSize then
    let ch := (lpDecode (c.die 0).zoneGib base).1
    let d := ch / 32
    let k := ch % 32 / 4
    lpEvent d k (b2n poisoned) (c.updDie d (fun x => { x with ecc := Tab.set x.ecc k ((Tab.get {} x.ecc k).add poisoned) }))
  else
    let u := (base - 0x100000000000) / 2 ^ 26
    unitEvent u (b2n poisoned) (c.updUnit u (fun x => { x with ecc := x.ecc.add poisoned }))

/-- Check symbols and symbols of a codeword (R254): 6 of 136 in LPDDR5X, 5 of 69 in unit memory. -/
def codeOf (base : Nat) : Nat × Nat := if base < lpSize then (6, 136) else (5, 69)

/-- The check symbols inverted, which marks a poisoned unit memory word (R255), as a pattern. -/
def inverted : List (Nat × Nat) := (List.range 5).map (fun i => (64 + i, 0xFF))

/-- The two metadata bytes of an LPDDR5X line: POISON and the copy-on-write generation of its page (Table 06-4, R265). -/
def lineMeta (c : Ctx) (base : Nat) : List Nat := [b2n (isPoisoned c base), Tab.get 0 c.dev.cow.pageGen (base / 65536)]

/-- The codeword of a word or line as it is stored: its data, an LPDDR5X line's metadata, its check symbols, inverted in a poisoned
unit memory word, and the symbol errors it bears (R254, R255). -/
def storedWord (c : Ctx) (base : Nat) : List Nat :=
  let (n, _) := codeOf base
  let msg := (c.read base (wordSize base)).map (fun x => x.toNat) ++ (if base < lpSize then lineMeta c base else [])
  let bad := Tab.get [] c.dev.errs base ++ (if base < lpSize || !isPoisoned c base then [] else inverted)
  bad.foldl (fun w p => updAt w p.1 (fun x => x ^^^ p.2)) (msg ++ rsCheck n msg)

/-- A word is miscorrected: pattern and correction together change its data and may set a line's POISON bit (R254); a poisoned word stays
poisoned (R651). The model keeps one GEN a page: a line's own copy does not change (log entry 109). -/
def miscorrect (base : Nat) (diff : List (Nat × Nat)) (c : Ctx) : Ctx :=
  let c1 := diff.foldl (fun a p =>
    if p.1 < wordSize base then a.write (base + p.1) [a.byte (base + p.1) ^^^ BitVec.ofNat 8 p.2] else a) c
  let flip := diff.foldl (fun b p => b ^^ (p.1 == 128 && bit p.2 0)) false
  if base < lpSize && flip then setPoison base c1 else c1

/-- A read finds the codeword as it is stored: it corrects it, or poisons it in place (R255–R257, R651). Within the limits of R254 the
correction is the pattern itself. -/
def checkWord (base : Nat) (c : Ctx) : Ctx :=
  let pat := Tab.get [] c.dev.errs base
  if pat.isEmpty then c
  else
    let lp : Bool := base < lpSize
    let (n, len) := codeOf base
    let marked := isPoisoned c base
    let c1 : Ctx := { c with dev := { c.dev with errs := Tab.del base c.dev.errs } }
    let limit := if marked && !lp then 1 else 2
    let bad := eccEvent base true (setPoison base c1)
    match rsFix n len pat with
    | some fix =>
      if limit < fix.length then bad
      else
        let c2 := if marked && !lp then c1 else miscorrect base (pat ++ fix) c1
        if fix.isEmpty then c2 else eccEvent base false c2
    | none =>
      -- a word within one symbol of a poisoned one reads as poisoned (R255)
      match (if lp || marked then none else rsFix n len (pat ++ inverted)) with
      | some fix => if 1 < fix.length then bad else (if fix.isEmpty then id else eccEvent base false) (setPoison base c1)
      | none => bad

/-- A demand read of `n` bytes: every codeword checked. -/
def eccRead (a n : Nat) (c : Ctx) : Ctx :=
  if c.dev.errs.isEmpty then c else forAll (wordsOf a n) checkWord c

/-- Is the whole codeword among `n` bytes from `a`? -/
def covers (a n base : Nat) : Bool := a ≤ base && base + wordSize base ≤ a + n

/-- Write bytes to memory. A codeword written whole loses its poison; a part of a poisoned one is not kept (R259); a part of a
codeword with errors is a read first (R231). -/
def store (a : Nat) (data : List Byte) (c : Ctx) : Ctx :=
  if !isCoded a || (c.dev.poison.isEmpty && c.dev.errs.isEmpty) then c.write a data
  else
    let n := data.length
    let c1 := forAll (wordsOf a n) (fun b x => if covers a n b then clearWord b x else checkWord b x) c
    (List.range n).foldl (fun x i =>
      let b := a + i
      if isPoisoned x (wordBase b) then x else x.write b [data.getD i 0]) c1

/-- Write a little-endian number of `n` bytes under the same rules. -/
def storeNat (a n x : Nat) (c : Ctx) : Ctx := store a (toBytes n x) c

end Sys2Proof.Machine
end

