-- ==== Sys2Proof/Machine/Num.lean ====
section
/-!
DEFINITION. Number formats and arithmetic (chapter 3): exact values as `Ext`, decoding and rounding of every format of
Table 03-1, the conversions of Table 03-9, MX pack and unpack, the BSX block, and the approximate functions of Table 03-8.
Format codes are those of Table 04-5: 0 FP32, 1 BF16, 2 E4M3, 3 E5M2, 4 E2M1 (an MXFP4 element), 5 INT8, 6 INT16, 7 INT32.
-/
namespace Sys2Proof.Machine

/-! ### Fields of the formats (Table 03-2) -/

/-- Bits of one element. -/
def fmtWidth : Nat → Nat
  | 0 => 32 | 1 => 16 | 2 => 8 | 3 => 8 | 4 => 4 | 5 => 8 | 6 => 16 | _ => 32

/-- Mantissa bits of a floating-point format. -/
def fmtMant : Nat → Nat
  | 0 => 23 | 1 => 7 | 2 => 3 | 3 => 2 | _ => 1

/-- Exponent of the smallest subnormal of a floating-point format. -/
def fmtEmin : Nat → Int
  | 0 => -149 | 1 => -133 | 2 => -9 | 3 => -16 | _ => -1

/-- Code of the largest finite magnitude. -/
def fmtMax : Nat → Nat
  | 0 => 0x7F7FFFFF | 1 => 0x7F7F | 2 => 0x7E | 3 => 0x7B | _ => 7

/-- Does the format have an infinity (Table 03-3)? Its code follows the largest finite one. -/
def fmtHasInf (f : Nat) : Bool := f == 0 || f == 1 || f == 3

/-- The canonical NaN (Table 03-3). -/
def fmtNaN : Nat → Nat
  | 0 => 0x7FC00000 | 1 => 0x7FC0 | 2 => 0x7F | _ => 0x7E

/-- Is the format one of the integers? -/
def fmtIsInt (f : Nat) : Bool := f == 5 || f == 6 || f == 7

/-! ### Exact values -/

/-- The value of a floating-point code (R74, R75). -/
def decodeFp (f code : Nat) : Ext :=
  let w := fmtWidth f
  let neg := bit code (w - 1)
  let mag := bits code 0 (w - 1)
  if mag ≤ fmtMax f then
    let ex := mag >>> fmtMant f
    let man := bits mag 0 (fmtMant f)
    if ex = 0 then .fin neg man (fmtEmin f) else .fin neg (2 ^ fmtMant f + man) (fmtEmin f + (ex - 1 : Nat))
  else if fmtHasInf f && mag == fmtMax f + 1 then .inf neg
  else .nan

/-- m · 2^e as an integer, to nearest even or toward zero. -/
def roundInt (rtz : Bool) (m : Nat) (e : Int) : Nat :=
  if e ≥ 0 then m <<< e.toNat
  else
    let s := (-e).toNat
    let q := m >>> s
    let r := m - (q <<< s)
    let half := 2 ^ s
    if rtz then q else if 2 * r > half || (2 * r == half && q % 2 == 1) then q + 1 else q

/-- The magnitude code of m · 2^e rounded to `mant` mantissa bits, without a limit at the top: a code past the largest finite
one is an overflow. -/
def roundMag (mant : Nat) (emin : Int) (rtz : Bool) (m : Nat) (e : Int) : Nat :=
  if m = 0 then 0 else
  let q := max (e + (Nat.log2 m : Int) - (mant : Int)) emin
  roundInt rtz m (e - q) + ((q - emin).toNat <<< mant)

/-- A magnitude code with its sign. -/
def withSign (f : Nat) (neg : Bool) (mag : Nat) : Nat := mag + (if neg then 2 ^ (fmtWidth f - 1) else 0)

/-- The code of a value in a floating-point format (R79, Table 03-9): `rtz` round toward zero, `nonsat` the non-saturating
overflow mode of FP8. -/
def encodeFp (f : Nat) (rtz nonsat : Bool) : Ext → Nat
  | .nan => fmtNaN f
  | .inf neg =>
    if fmtHasInf f then withSign f neg (fmtMax f + 1)
    else if f == 2 && nonsat then fmtNaN f else withSign f neg (fmtMax f)
  | .fin neg m e =>
    let c := roundMag (fmtMant f) (fmtEmin f) rtz m e
    if c ≤ fmtMax f then withSign f neg c
    else if rtz || f == 4 then withSign f neg (fmtMax f)
    else if f == 0 || f == 1 then withSign f neg (fmtMax f + 1)
    else if nonsat then (if f == 2 then fmtNaN f else withSign f neg (fmtMax f + 1))
    else withSign f neg (fmtMax f)

/-- The signed value of a two's complement code of `w` bits (R86). -/
def decodeInt (w code : Nat) : Int := if bit code (w - 1) then (bits code 0 w : Int) - 2 ^ w else bits code 0 w

/-- Clamp to the range of `w` bits (R86). -/
def clampInt (w : Nat) (x : Int) : Int := max (-(2 ^ (w - 1) : Int)) (min ((2 ^ (w - 1) : Int) - 1) x)

/-- The clamped code. -/
def encodeInt (w : Nat) (x : Int) : Nat :=
  let y := clampInt w x
  if y < 0 then (y + 2 ^ w).toNat else y.toNat

/-- An integer as an exact value. -/
def ofInt (x : Int) : Ext := .fin (x < 0) x.natAbs 0

/-- The integer a value rounds to, clamped to `w` bits; NaN gives 0 (Table 03-9). -/
def toIntCode (w : Nat) (rtz : Bool) : Ext → Nat
  | .nan => 0
  | .inf neg => encodeInt w (if neg then -(2 ^ w : Int) else 2 ^ w)
  | .fin neg m e =>
    let q : Int := if m = 0 then 0 else if e > 64 then 2 ^ 64 else roundInt rtz m e
    encodeInt w (if neg then -q else q)

/-- The exact value of an element code in any of the scalar formats. -/
def decodeAny (f code : Nat) : Ext :=
  if fmtIsInt f then ofInt (decodeInt (fmtWidth f) code) else decodeFp f code

/-- A conversion between scalar formats (Table 03-9). Equal formats pass the bits on (R75). -/
def convert (src dst : Nat) (rtz nonsat : Bool) (code : Nat) : Nat :=
  if src = dst then code
  else if fmtIsInt dst then toIntCode (fmtWidth dst) rtz (decodeAny src code)
  else encodeFp dst rtz nonsat (decodeAny src code)

/-- Negation, of the sign alone. -/
def extNeg : Ext → Ext
  | .nan => .nan
  | .inf n => .inf (!n)
  | .fin n m e => .fin (!n) m e

/-- m · 2^e as an integer multiple of 2^g, for g ≤ e. -/
def alignTo (neg : Bool) (m : Nat) (e g : Int) : Int :=
  let v : Int := m <<< (e - g).toNat
  if neg then -v else v

/-- The exact sum (R78, R99). -/
def extAdd : Ext → Ext → Ext
  | .nan, _ => .nan
  | _, .nan => .nan
  | .inf a, .inf b => if a = b then .inf a else .nan
  | .inf a, _ => .inf a
  | _, .inf b => .inf b
  | .fin a m e, .fin b n f =>
    if m = 0 then (if n = 0 then .fin (a && b) 0 0 else .fin b n f)
    else if n = 0 then .fin a m e
    else
      let g := min e f
      let v := alignTo a m e g + alignTo b n f g
      if v = 0 then .fin false 0 0 else .fin (v < 0) v.natAbs g

/-- The exact product. -/
def extMul : Ext → Ext → Ext
  | .nan, _ => .nan
  | _, .nan => .nan
  | .inf a, .inf b => .inf (a != b)
  | .inf a, .fin b n _ => if n = 0 then .nan else .inf (a != b)
  | .fin a m _, .inf b => if m = 0 then .nan else .inf (a != b)
  | .fin a m e, .fin b n f => .fin (a != b) (m * n) (e + f)

/-- Numerically below, for values that are not NaN; −0 equals +0. -/
def extLt : Ext → Ext → Bool
  | .nan, _ => false
  | _, .nan => false
  | .inf a, .inf b => a && !b
  | .inf a, _ => a
  | _, .inf b => !b
  | .fin a m e, .fin b n f =>
    let g := min e f
    alignTo a m e g < alignTo b n f g

/-- Numerically equal. -/
def extEq (x y : Ext) : Bool := x ≠ .nan && y ≠ .nan && !extLt x y && !extLt y x

/-- Is the sign set? -/
def extSign : Ext → Bool
  | .nan => false
  | .inf n => n
  | .fin n _ _ => n

/-- Below in the order of R100, which puts −0 below +0. -/
def extBelow (x y : Ext) : Bool := extLt x y || (extEq x y && extSign x && !extSign y)

/-- The larger, NaN if either is (R100). -/
def extMax (x y : Ext) : Ext := if x = .nan || y = .nan then .nan else if extBelow x y then y else x
/-- The smaller, NaN if either is (R100). -/
def extMin (x y : Ext) : Ext := if x = .nan || y = .nan then .nan else if extBelow y x then y else x
/-- The magnitude. -/
def extAbs : Ext → Ext
  | .nan => .nan
  | .inf _ => .inf false
  | .fin _ m e => .fin false m e

/-- The sum that leaves every other sum unchanged (R78). -/
def extNegZero : Ext := .fin true 0 0

/-- The exact sum of a list (R98). -/
def extSum (l : List Ext) : Ext := l.foldl extAdd extNegZero

/-! ### FP32 shorthands -/

/-- The value of an FP32 code. -/
def f32 (c : Nat) : Ext := decodeFp 0 c
/-- Round to FP32 to nearest even. -/
def rf32 (x : Ext) : Nat := encodeFp 0 false false x
/-- One FP32 addition with one rounding. -/
def addF32 (a b : Nat) : Nat := rf32 (extAdd (f32 a) (f32 b))
/-- One FP32 multiplication with one rounding. -/
def mulF32 (a b : Nat) : Nat := rf32 (extMul (f32 a) (f32 b))
/-- One fused multiply-add. -/
def fmaF32 (a b c : Nat) : Nat := rf32 (extAdd (extMul (f32 a) (f32 b)) (f32 c))

/-- Pairwise sums of neighbours, one stage of R101. -/
def pairUp (add : Nat → Nat → Nat) : List Nat → List Nat
  | a :: b :: t => add a b :: pairUp add t
  | l => l

/-- The pairwise tree of R101. -/
def pairTree (add : Nat → Nat → Nat) : Nat → List Nat → Nat
  | 0, l => l.headD 0
  | _, [] => 0
  | _, [a] => a
  | k + 1, l => pairTree add k (pairUp add l)

/-! ### MXFP4 (R80–R85) -/

/-- The value of element code `c` under scale byte `s`. -/
def mxValue (s c : Nat) : Ext :=
  if s = 0xFF then .nan else
  match decodeFp 4 c with
  | .fin n m e => .fin n m (e + s - 127)
  | x => x

/-- MX unpack to an FP32 code (R85): above the FP32 range gives an infinity. -/
def mxUnpack (s c : Nat) : Nat := rf32 (mxValue s c)

/-- Is the value NaN or an infinity? -/
def extSpecial : Ext → Bool
  | .fin _ _ _ => false
  | _ => true

/-- MX pack of a block (R84): the scale byte and the element codes. -/
def mxPack (rtz : Bool) (xs : List Ext) : Nat × List Nat :=
  if xs.any extSpecial then (0xFF, xs.map (fun _ => 0))
  else
    let amax := xs.foldl (fun a x => extMax a (extAbs x)) (.fin false 0 0)
    match amax with
    | .fin _ m e =>
      if m = 0 then (0, xs.map (fun x => withSign 4 (extSign x) 0))
      else
        let ex := max ((Nat.log2 m : Int) + e - 2) (-127)
        ((ex + 127).toNat, xs.map (fun x => encodeFp 4 rtz false (extMul x (.fin false 1 (-ex)))))
    | _ => (0xFF, xs.map (fun _ => 0))

/-! ### BSX (R88–R97) -/

/-- A BSX block as numbers: lift count, NAN_PRESENT, SATURATED, exponent, mantissas (−32768 is NaN). -/
structure Bsx where
  lifts : Nat
  nan : Bool
  sat : Bool
  exp : Nat
  mant : List Int
  deriving DecidableEq, Repr

/-- The NaN mantissa. -/
def bsxNaN : Int := -32768

/-- A block from its 66 byte values (R88); EXP 255 is taken as 32 NaNs at 254 (R90). -/
def bsxOfBytes (l : List Nat) : Bsx :=
  let b0 := l.headD 0
  let e := (l.drop 1).headD 0
  let ms := (List.range 32).map (fun i => decodeInt 16 ((l.getD (2 + 2 * i) 0) + 256 * (l.getD (3 + 2 * i) 0)))
  if e = 255 then { lifts := bits b0 0 3, nan := true, sat := bit b0 4, exp := 254, mant := ms.map (fun _ => bsxNaN) }
  else { lifts := bits b0 0 3, nan := bit b0 3, sat := bit b0 4, exp := e, mant := ms }

/-- The 66 byte values of a block. -/
def bsxToBytes (b : Bsx) : List Nat :=
  [b.lifts + 8 * b2n b.nan + 16 * b2n b.sat, b.exp] ++
    b.mant.flatMap (fun m => let c := encodeInt 16 m; [c % 256, c / 256])

/-- One element converted from FP32 at exponent `e` (R91): the mantissa, NaN flag, saturation flag. -/
def bsxElem (rtz : Bool) (e : Nat) : Ext → Int × Bool × Bool
  | .nan => (bsxNaN, true, false)
  | .inf n => (if n then -32767 else 32767, false, true)
  | .fin n m x =>
    let sh := x + 142 - e
    let q : Int := if m = 0 then 0 else if sh > 64 then 2 ^ 64 else roundInt rtz m sh
    let v := if n then -q else q
    if v > 32767 then (32767, false, true) else if v < -32767 then (-32767, false, true) else (v, false, false)

/-- A block converted from FP32 values at exponent `e` (R91, R189). -/
def bsxOfExt (rtz : Bool) (e : Nat) (xs : List Ext) : Bsx :=
  let r := xs.map (bsxElem rtz e)
  { lifts := 0, nan := r.any (fun p => p.2.1), sat := r.any (fun p => p.2.2), exp := e, mant := r.map (fun p => p.1) }

/-- The value of one mantissa (R89, R92). -/
def bsxValue (b : Bsx) (m : Int) : Ext := if m = bsxNaN then .nan else .fin (m < 0) m.natAbs ((b.exp : Int) - 142)

/-- round to nearest even of m / 2^k. -/
def halve (k : Nat) (m : Int) : Int :=
  let q : Int := roundInt false m.natAbs (-(k : Int))
  if m < 0 then -q else q

/-- Align a contribution at a lower exponent to `e` (R94). -/
def bsxAlign (e : Nat) (b : Bsx) : Bsx :=
  if b.exp < e then { b with exp := e, mant := b.mant.map (fun m => if m = bsxNaN then m else halve (e - b.exp) m) } else b

/-- Clamp an exact sum or a scaled contribution to ±32,767 (R96). -/
def clampMant (m : Int) : Int := max (-32767) (min 32767 m)

/-- Does an exact element lie outside ±32,767? -/
def mantBig (m : Option Int) : Bool := m.any (fun v => decide (32767 < v.natAbs))

/-- Lift a block whole (R95). -/
def bsxLift (b : Bsx) : Bsx :=
  { b with exp := b.exp + 1, lifts := b.lifts + 1, mant := b.mant.map (fun m => if m = bsxNaN then m else halve 1 m) }

/-- Lift the arriving block alone towards exponent `e` while R349 allows. -/
def bsxLiftTo (e : Nat) : Nat → Bsx → Bsx
  | 0, b => b
  | fuel + 1, b => if b.exp < e && b.lifts < 7 && b.exp < 254 then bsxLiftTo e fuel (bsxLift b) else b

/-- The headland adder's combination of an arriving block and a contribution (R349). A contribution of a higher exponent is scaled up and
clamped, one of a lower is aligned; an exact element is an integer, or none where it holds the NaN code, so no scaled or summed value is
taken for that code. Sums of elements without NaN lie within ±65,534. -/
def bsxAdd (b c : Bsx) : Bsx :=
  let b1 := bsxLiftTo c.exp 8 { b with nan := b.nan || c.nan, sat := b.sat || c.sat }
  let above : Bool := decide (b1.exp < c.exp)
  let own : List (Option Int) := (bsxAlign b1.exp c).mant.map (fun m => if m = bsxNaN then none else some (m * 2 ^ (c.exp - b1.exp)))
  let sums : List (Option Int) := List.zipWith (fun m n => if m = bsxNaN then none else n.map (fun v => m + clampMant v)) b1.mant own
  let big := sums.any mantBig
  let lift : Bool := big && decide (b1.lifts < 7) && decide (b1.exp < 254)
  { lifts := if lift then b1.lifts + 1 else b1.lifts
    nan := b1.nan || sums.any Option.isNone
    sat := b1.sat || (above && own.any mantBig) || (big && !lift)
    exp := if lift then b1.exp + 1 else b1.exp
    mant := sums.map (fun s => s.elim bsxNaN (fun v => if lift then halve 1 v else clampMant v)) }

/-! ### Approximate functions (R102, Table 03-8) -/

/-- Integer square root, digit by digit from bit `k`. -/
def isqrtGo (x : Nat) : Nat → Nat → Nat
  | 0, r => r
  | k + 1, r => if (r + 2 ^ k) * (r + 2 ^ k) ≤ x then isqrtGo x k (r + 2 ^ k) else isqrtGo x k r

/-- Integer square root of a number below 2^260. -/
def isqrt (x : Nat) : Nat := isqrtGo x 130 0

/-- 2^(f / 2^64) in units of 2^-64, bit by bit of the fraction: `c` is 2^(2^-i). -/
def exp2Frac (f : Nat) : Nat → Nat → Nat → Nat
  | 0, _, acc => acc
  | k + 1, c, acc =>
    let c' := isqrt (c <<< 64)
    exp2Frac f k c' (if f.testBit (k + 16) then (acc * c') >>> 64 else acc)

/-- Digits of log2 y, for y in [1, 2) in units of 2^-128. -/
def log2Digits : Nat → Nat → Nat → Nat
  | 0, _, acc => acc
  | k + 1, y, acc =>
    let s := (y * y) >>> 128
    if s ≥ 2 ^ 129 then log2Digits k (s >>> 1) (2 * acc + 1) else log2Digits k s (2 * acc)

/-- Does the FP32 magnitude code `k` lie within 2 ulp of m · 2^e (R102), the ulp that of the binade of m · 2^e and 2^-149 below the normal
range? `m` is the exact result cut off; a thousandth of an ulp is kept free for what was cut off. -/
def withinTwoUlp (k m : Nat) (e : Int) : Bool :=
  let u := max (e + (Nat.log2 m : Int) - 23) (-149)
  let g := min (min e (u - 10)) (-149)
  let v := alignTo false m e g
  let bound := alignTo false 2047 (u - 10) g
  match decodeFp 0 k with
  | .fin _ n f => let x := alignTo false n f g; decide (x - v ≤ bound) && decide (v - x ≤ bound)
  | _ => false

/-- A result of R102 for an exact result m · 2^e: some FP32 number within 2 ulp of it, which one the free step says. An exact result beyond
the FP32 range is an infinity (R79). -/
def approxTo (fn arg : Nat) (neg : Bool) (m : Nat) (e : Int) : Nat :=
  let c := roundMag 23 (-149) false m e
  if c > fmtMax 0 then withSign 0 neg (fmtMax 0 + 1)
  else
    let near := ((List.range 11).map (fun i => c + i - 5)).filter (fun k => decide (k ≤ fmtMax 0) && withinTwoUlp k m e)
    withSign 0 neg (near.getD (Config.approxStep fn arg % near.length) c)

/-- EXP2 of an FP32 code. -/
def fnExp2 (c : Nat) : Nat :=
  match f32 c with
  | .nan => fmtNaN 0
  | .inf n => if n then 0 else fmtMax 0 + 1
  | .fin n m e =>
    if m = 0 then rf32 (.fin false 1 0) else
    let t : Int := alignTo n (roundInt true m (e + 64)) 0 0
    if !extLt (.fin n m e) (.fin false 128 0) then fmtMax 0 + 1
    else if extLt (.fin n m e) (.fin true 150 0) then 0
    else
      let k := t / 2 ^ 64
      let isInt := e ≥ 0 || m % 2 ^ ((-e).toNat) == 0
      if isInt && decide (k ≥ -149) then rf32 (.fin false 1 k)
      else
        let acc := exp2Frac (t % 2 ^ 64).toNat 48 (2 ^ 65) (2 ^ 64)
        approxTo 0 c false acc (k - 64)

/-- LOG2 of an FP32 code. -/
def fnLog2 (c : Nat) : Nat :=
  match f32 c with
  | .nan => fmtNaN 0
  | .inf n => if n then fmtNaN 0 else fmtMax 0 + 1
  | .fin n m e =>
    if m = 0 then rf32 (.inf true)
    else if n then fmtNaN 0
    else
      let l := Nat.log2 m
      let k : Int := (l : Int) + e
      if m = 2 ^ l then rf32 (ofInt k)
      else
        let frac := log2Digits 80 (m <<< (128 - l)) 0
        let v : Int := k * 2 ^ 80 + frac
        approxTo 1 c (v < 0) v.natAbs (-80)

/-- RCP of an FP32 code. -/
def fnRcp (c : Nat) : Nat :=
  match f32 c with
  | .nan => fmtNaN 0
  | .inf n => withSign 0 n 0
  | .fin n m e =>
    if m = 0 then rf32 (.inf n)
    else approxTo 2 c n (2 ^ 120 / m) (-e - 120)

/-- RSQRT of an FP32 code. -/
def fnRsqrt (c : Nat) : Nat :=
  match f32 c with
  | .nan => fmtNaN 0
  | .inf n => if n then fmtNaN 0 else 0
  | .fin n m e =>
    if m = 0 then rf32 (.inf n)
    else if n then fmtNaN 0
    else
      let (m', e') := if e % 2 = 0 then (m, e) else (2 * m, e - 1)
      approxTo 3 c false (isqrt (2 ^ 240 / m')) (-(e' / 2) - 120)

end Sys2Proof.Machine
end

