-- ==== Sys2Proof/Machine/Operands.lean ====
section
/-!
DEFINITION. Operand forms: the fields of the 64-byte descriptors (Tables 04-4 to 04-9, 05-1, 05-5, 05-6, 05-10) and elements in
memory.
-/
namespace Sys2Proof.Machine

/-- Field of `n` bits at byte `byte`, bit `b` of a descriptor (R157). -/
def fld (d : Desc) (byte b n : Nat) : Nat := bits d.toNat (8 * byte + b) n

/-- Every byte from `lo` to `hi` is zero. -/
def zeroBytes (d : Desc) (lo hi : Nat) : Bool := fld d lo 0 (8 * (hi + 1 - lo)) == 0

/-! ### Common header (Table 04-4) -/
def hOpcode (d : Desc) : Nat := fld d 0 0 8
def hCpl (d : Desc) : Bool := fld d 1 0 1 == 1
def hSig (d : Desc) : Bool := fld d 1 1 1 == 1
def hTag (d : Desc) : Nat := fld d 2 0 16
def hSigEvt (d : Desc) : Nat := fld d 4 0 4
/-- The header's reserved fields are zero. -/
def headerOk (d : Desc) : Bool := fld d 1 2 6 == 0 && fld d 4 4 4 == 0 && zeroBytes d 5 7

/-- Fence body (Table 04-9). -/
def fenceOk (d : Desc) : Bool :=
  headerOk d && fld d 8 2 6 == 0 && fld d 9 4 4 == 0 && zeroBytes d 10 11 && zeroBytes d 16 63
def fWrites (d : Desc) : Bool := fld d 8 0 1 == 1
def fWait (d : Desc) : Bool := fld d 8 1 1 == 1
def fEvt (d : Desc) : Nat := fld d 9 0 4
def fValue (d : Desc) : Nat := fld d 12 0 32

/-! ### Elements in memory -/

/-- Bytes of `n` elements of a scalar format. -/
def elemBytes (f n : Nat) : Nat := fmtWidthOf f * n / 8
where
  /-- bits of an element as stored -/
  fmtWidthOf : Nat → Nat
    | 0 => 32 | 1 => 16 | 2 => 8 | 3 => 8 | 4 => 4 | 5 => 8 | 6 => 16 | _ => 32

/-- Bytes of a row of `n` elements: MXFP4 in 68-byte row groups padded to 128 (R83), BSX in 66-byte blocks (R88). -/
def rowBytes (f n : Nat) : Nat :=
  if f = 4 then (n + 127) / 128 * 68 else if f = 8 then n / 32 * 66 else elemBytes f n

/-- The codes of `n` scalar elements from `a`. -/
def readElems (c : Ctx) (f a n : Nat) : List Nat :=
  let w := elemBytes f 1
  (List.range n).map (fun i => c.readNat (a + i * w) w)

/-- MXFP4 row from `a`: element codes and block scales (R83). -/
def readMx (c : Ctx) (a groups : Nat) : List Nat × List Nat :=
  ((List.range (128 * groups)).map (fun i =>
      let b := (c.byte (a + i / 128 * 68 + i % 128 / 2)).toNat
      if i % 2 = 0 then b % 16 else b / 16),
   (List.range (4 * groups)).map (fun i => (c.byte (a + i / 4 * 68 + 64 + i % 4)).toNat))

/-- Split a list into pieces of `n`. -/
def chunks {α : Type} (n : Nat) : Nat → List α → List (List α)
  | 0, _ => []
  | k + 1, l => l.take n :: chunks n k (l.drop n)

/-- The bytes of an MXFP4 row: values packed in 32-element blocks, padded with zero elements to 128 (R84, R188). -/
def mxRowBytes (rtz : Bool) (xs : List Ext) : List Byte :=
  let groups := (xs.length + 127) / 128
  let padded := xs ++ List.replicate (128 * groups - xs.length) (.fin false 0 0)
  (chunks 128 groups padded).flatMap (fun g =>
    let blocks := (chunks 32 4 g).map (mxPack rtz)
    let codes := blocks.flatMap (fun p => p.2)
    (List.range 64).map (fun i => BitVec.ofNat 8 (codes.getD (2 * i) 0 + 16 * codes.getD (2 * i + 1) 0)) ++
      blocks.map (fun p => BitVec.ofNat 8 p.1))

/-- The bytes of a BSX row at one exponent (R189). -/
def bsxRowBytes (rtz : Bool) (e : Nat) (xs : List Ext) : List Byte :=
  (chunks 32 (xs.length / 32) xs).flatMap (fun b => (bsxToBytes (bsxOfExt rtz e b)).map (BitVec.ofNat 8))

/-- The bytes of scalar element codes. -/
def elemRowBytes (f : Nat) (codes : List Nat) : List Byte := codes.flatMap (fun x => toBytes (elemBytes f 1) x)

/-- Does [a, a + n) lie within [lo, lo + size)? -/
def within (a n lo size : Nat) : Bool := lo ≤ a && a + n ≤ lo + size

/-- Do [a, a + n) and [b, b + k) share a byte? -/
def overlaps (a n b k : Nat) : Bool := n ≠ 0 && k ≠ 0 && a < b + k && b < a + n

/-- The seedbed region of a unit as package addresses: base and bytes (R236). -/
def seedbed (c : Ctx) (u : Nat) : Nat × Nat := (umBase u + (c.unit u).region.sbBase * 65536, (c.unit u).region.sbSize * 65536)
/-- The WAB region of a unit. -/
def wabRegion (c : Ctx) (u : Nat) : Nat × Nat := (umBase u + (c.unit u).region.wabBase * 65536, (c.unit u).region.wabSize * 65536)

/-- A byte range that an engine of unit `u` may reach in its own unit memory (R166); `seed`: the seedbed too (R239). -/
def ownUm (c : Ctx) (u a n : Nat) (seed : Bool) : Bool :=
  within a n (umBase u) umSize && (seed || !overlaps a n (seedbed c u).1 (seedbed c u).2)

end Sys2Proof.Machine
end

