-- ==== Sys2Proof/Machine/Queues.lean ====
section
/-!
DEFINITION. The three command queues of a unit: which command may start, how a command ends, event counters, completion
records and fences (R133, R161, R165, R214–R220).
-/
namespace Sys2Proof.Machine

/-- Queue 0 ME, 1 VE, 2 DMA (R212). -/
def UnitSt.queue (x : UnitSt) : Nat → Queue
  | 0 => x.me | 1 => x.ve | _ => x.dma
/-- Replace a queue. -/
def UnitSt.setQueue (x : UnitSt) (q : Nat) (y : Queue) : UnitSt :=
  match q with
  | 0 => { x with me := y } | 1 => { x with ve := y } | _ => { x with dma := y }
/-- Change a queue of unit `u`. -/
def Ctx.updQueue (c : Ctx) (u q : Nat) (f : Queue → Queue) : Ctx := c.updUnit u (fun x => x.setQueue q (f (x.queue q)))
/-- Change entry `i` of a queue. -/
def Ctx.updEntry (c : Ctx) (u q i : Nat) (f : Entry → Entry) : Ctx :=
  c.updQueue u q (fun y => { y with entries := updAt y.entries i f })
/-- Free entry `i` (R215). -/
def Ctx.dropEntry (c : Ctx) (u q i : Nat) : Ctx := c.updQueue u q (fun y => { y with entries := y.entries.eraseIdx i })

/-- Work under way: started and not over. -/
def Entry.active (e : Entry) : Bool := e.started && e.ended.isNone

/-- Do the unit's engines run: not in a unit reset, a partial reset or the safe state, not taken out, admitted at the package's epoch, as
its die is (R65, R503, R599, R602, R58)? -/
def unitLive (c : Ctx) (u : Nat) : Bool :=
  let x := c.unit u
  !c.dieStopped (dieOfUnit u) && !x.resetting && !x.retired && x.admitted && x.epoch == c.dev.epoch && (c.die (dieOfUnit u)).epoch == c.dev.epoch

/-- Does queue `q` of the unit run: the commands of a frozen cluster DMA engine wait (Table 14-6)? -/
def queueLive (c : Ctx) (u q : Nat) : Bool := unitLive c u && (q != 2 || !(c.cluster (clusterOf u)).frozen)

/-- Is the command a consumer of the ring of tile register `t` (R124): an ME_DRAIN with RELEASE, or a VE command whose slot A has RING? -/
def ringConsumer (t : Nat) (e : Entry) : Bool :=
  (hOpcode e.desc == 0x12 && fld e.desc 20 4 1 == 1 && fld e.desc 20 0 2 == t) ||
  ((hOpcode e.desc == 0x20 || hOpcode e.desc == 0x21) && fld e.desc 16 48 1 == 1 && fld e.desc 16 18 2 == t)

/-! ### Event counters (R216) -/

/-- The largest count. -/
def evtTop : Nat := 0x7FFFFFFF
/-- Add to an event counter, which sticks. -/
def addEvt (u i k : Nat) (c : Ctx) : Ctx :=
  c.updUnit u (fun x =>
    let e := Tab.get {} x.evts i
    let (n, s) := stick evtTop e.count k
    { x with evts := Tab.set x.evts i { count := n, sticky := e.sticky || s } })
/-- The counter register as 32 bits (Table 05-14). -/
def Evt.word (e : Evt) : Nat := e.count + (if e.sticky then 2 ^ 31 else 0)
/-- The counter register `i` of a unit. -/
def evtWord (c : Ctx) (u i : Nat) : Nat := (Tab.get {} (c.unit u).evts i).word

/-! ### Ending a command -/

/-- Does the status halt its queue (Tables 04-10, 05-12)? -/
def halts (status : Nat) : Bool := [1, 2, 3, 4, 7, 0x10, 0x20].contains status

/-- Record a halting status and tag (R165). -/
def haltQueue (u q status tag : Nat) (c : Ctx) : Ctx :=
  c.updQueue u q (fun y => if y.halted then y else { y with halted := true, haltStatus := status, haltTag := tag })

/-- Is a record due: CPL set and the core's ring enabled (R219, R220)? -/
def recordDue (c : Ctx) (u : Nat) (e : Entry) : Bool := hCpl e.desc && (Tab.get {} (c.unit u).cpls (e.core % 4)).enable

/-- The signal of a completed command. -/
def signalOf (u : Nat) (e : Entry) (c : Ctx) : Ctx := if hSig e.desc then addEvt u (hSigEvt e.desc) 1 c else c

/-- Command `i` of a queue is over with a status: the queue halts if the status says so, a poison status raises the unit's pin
(R164, R226), a load that did not end well leaves no tile (R149), and the entry waits for its record or is freed with its signal. -/
def finish (u q i status detail : Nat) (c : Ctx) : Ctx :=
  match ((c.unit u).queue q).entries[i]? with
  | none => c
  | some e =>
    let c0 := if q = 0 && status ≠ 0 && hOpcode e.desc == 0x10 then c.updUnit u (fun x => { x with tile := none }) else c
    let c1 := if halts status then haltQueue u q status (hTag e.desc) c0 else c0
    let c2 := if status = 4 then unitEvent u 2 (if q = 2 then c1 else stepLost c1) else c1
    if recordDue c2 u e then c2.updEntry u q i (fun x => { x with started := true, ended := some (status, detail) })
    else signalOf u e (c2.dropEntry u q i)

/-- A refused window check: the command stays unstarted, the queue halts with PROTECTION, the pushing core is frozen (R166). -/
def refuseWindow (u q : Nat) (e : Entry) (addr : Nat) (c : Ctx) : Ctx :=
  violateCore e.core addr (haltQueue u q 7 (hTag e.desc) c)

/-- The 16 bytes of a completion record (Table 05-9). -/
def recordBytes (q status tag detail : Nat) : List Byte :=
  [BitVec.ofNat 8 q, BitVec.ofNat 8 status] ++ toBytes 2 tag ++ toBytes 4 (min detail 0xFFFFFFFF) ++ toBytes 8 0

/-- Is a completion ring full (R220)? -/
def Cpl.full (r : Cpl) : Bool := (r.head + 256 - r.tail) % 256 == 2 ^ r.lenLog2

/-! ### Starting a command -/

/-- Index of the first command that has not started. -/
def nextIdx (y : Queue) : Nat := (y.entries.takeWhile (fun e => e.started)).length

/-- Does a command of opcode `x` start in queue `q` as opcode `op`? An opcode that does not belong to the queue ends with
BAD_DESCRIPTOR as the queue's first opcode does (R157, R208). -/
def startsAs (q op x : Nat) : Bool :=
  let mine := match q with | 0 => [0x10, 0x11, 0x12, 0x13] | 1 => [0x20, 0x21, 0x22] | _ => [0x30, 0x31]
  x == op || (!mine.contains x && op == 16 * (q + 1))

/-- The command of opcode `op` that may start next: everything ahead has started, no fence ahead is open, none waits for
ring space, the queue is not halted (R133, R165, R220). In the VE and DMA queues nothing else is under way (R195, R221). -/
def startable (c : Ctx) (u q op : Nat) : Option (Nat × Entry) :=
  let y := (c.unit u).queue q
  let i := nextIdx y
  match y.entries[i]? with
  | none => none
  | some e =>
    let ahead := y.entries.take i
    if queueLive c u q && !y.halted && startsAs q op (hOpcode e.desc) && ahead.all (fun a => a.ended.isNone) &&
        ahead.all (fun a => a.ended.isSome || hOpcode a.desc != 0x13) && (q == 0 || i == 0)
    then some (i, e) else none

/-- Mark command `i` started. -/
def markStarted (u q i : Nat) (f : Entry → Entry) (c : Ctx) : Ctx := c.updEntry u q i (fun e => { f e with started := true })

/-- Index of the first command under way with opcode `op` that satisfies `p`. -/
def findActive (c : Ctx) (u q op : Nat) (p : Entry → Bool) : Option (Nat × Entry) :=
  let l := ((c.unit u).queue q).entries
  match l.findIdx? (fun e => e.active && hOpcode e.desc == op && p e) with
  | none => none
  | some i => match l[i]? with
    | some e => some (i, e)
    | none => none

/-- The conditions a fence selects (R161), for a fence at place `i` of its queue. -/
def fenceMet (c : Ctx) (u i : Nat) (d : Desc) : Bool :=
  (!fWrites d || i == 0) && (!fWait d || decide (fValue d ≤ evtWord c u (fEvt d)))

/-- A fence starts: a bad descriptor ends it; it completes at once when its conditions hold (R157, R161, R209). -/
def fenceStart (q op u : Nat) (c : Ctx) : Ctx :=
  match startable c u q op with
  | none => c
  | some (i, e) =>
    if !fenceOk e.desc then finish u q i 1 0 c
    else
      let c1 := markStarted u q i id c
      if fenceMet c u i e.desc then finish u q i 0 0 c1 else c1

/-- A waiting fence completes when every condition it selects holds (R161). -/
def fenceComplete (q op u : Nat) (c : Ctx) : Ctx :=
  match findActive c u q op (fun _ => true) with
  | none => c
  | some (i, e) => if queueLive c u q && fenceMet c u i e.desc then finish u q i 0 0 c else c

/-- Write the record of the first command that waits for it (R219, Table 05-9), when its core's ring has space (R220), in a unit taken
out as well (R167): the command then completes, its signal counts and its entry is freed. A ring that reaches past data RAM, which R228
forbids, goes on at its start: the model's choice (log entry 116). -/
def completionRecordWriteOp (u q : Nat) (c : Ctx) : Ctx :=
  let l := ((c.unit u).queue q).entries
  match l.findIdx? (fun e => e.ended.isSome) with
  | none => c
  | some i =>
    match l[i]? with
    | none => c
    | some e =>
      let r := Tab.get {} (c.unit u).cpls (e.core % 4)
      let x := c.unit u
      if r.full || !(unitLive c u || (x.retired && !x.resetting && !c.dieStopped (dieOfUnit u))) then c
      else
        let (status, detail) := e.ended.getD (0, 0)
        let a := coreRam e.core + 0x10000 + (r.base + 16 * (r.head % 2 ^ r.lenLog2)) % 0x8000
        let c1 := c.write a (recordBytes q status (hTag e.desc) detail)
        let c2 := c1.updUnit u (fun x => { x with cpls := Tab.set x.cpls (e.core % 4) { r with head := (r.head + 1) % 256 } })
        signalOf u e (c2.dropEntry u q i)

end Sys2Proof.Machine
end

