-- ==== Sys2Proof/Machine/Flags.lean ====
section
/-!
DEFINITION. Status words: every register of chapter 20 assembled from the state, fields in the order of their tables, low bit
first. A field a table calls reserved reads zero (R17), a WO field reads zero (Table 00-3).
-/
namespace Sys2Proof.Machine

/-- A word from its fields, low bit first: (width, value), each value cut to its width. -/
def word : List (Nat × Nat) → Nat
  | [] => 0
  | (n, v) :: rest => v % 2 ^ n + 2 ^ n * word rest

/-- A word with bit `i` set for every `i` below `n` that satisfies `p`. -/
def maskOf (n : Nat) (p : Nat → Bool) : Nat := ((List.range n).map (fun i => if p i then 2 ^ i else 0)).sum

/-! ### Unit block (Tables 04-11 to 04-14, 05-13 to 05-15, 06-8, 06-9, 08-9 to 08-12) -/

/-- A queue has a command under way. -/
def Queue.busy (y : Queue) : Bool := y.entries.any (fun e => e.started)

/-- ME_STATUS, VE_STATUS or VE_DMA_STATUS with bit 2 as given. -/
def queueStatus (y : Queue) (bit2 : Bool) : Nat :=
  word [(1, b2n y.busy), (1, b2n y.halted), (1, b2n bit2), (5, 0), (8, y.haltStatus), (16, y.haltTag)]

/-- ME_RINGt. -/
def ringWord (r : Ring) : Nat := word [(21, r.written), (11, 0), (21, r.released), (10, 0), (1, b2n r.active)]

/-- VE_CPLc. -/
def cplWord (r : Cpl) : Nat :=
  word [(15, r.base), (1, 0), (3, r.lenLog2), (1, b2n r.enable), (12, 0), (8, r.head), (8, r.tail)]

/-- UM_REGION. -/
def regionWord (r : Region) : Nat :=
  word [(10, r.wabBase), (10, r.wabSize), (10, r.sbBase), (8, r.sbSize), (10, r.stashBase), (10, r.stashSize)]

/-- UM_ECC and LP_ECCc; `spares` is zero in LP_ECCc. -/
def eccWord (e : Ecc) (spares : Nat) : Nat :=
  word [(8, e.corrected), (8, e.poisoned), (1, b2n e.correctedSticky), (1, b2n e.poisonedSticky), (6, 0), (4, spares)]

/-- UM_STASH_GRANTc. -/
def grantWord (g : Nat × Nat) : Nat := word [(28, g.2), (3, 0), (1, g.1)]

/-- UM_STASH_STATUS. -/
def stashStatus (s : Stash) : Nat :=
  word [(11, s.frames.length), (1, b2n (decide (s.spillTop ≠ 0))), (1, b2n s.exhausted), (3, 0), (14, s.unitTop)]

/-- Set bits of a bypass map below `n`. -/
def popcount (n x : Nat) : Nat := ((List.range n).filter (fun i => bit x i)).length

/-- A register of unit `u`'s block: width in bytes and value (Table 20-3). -/
def unitReg (c : Ctx) (u off : Nat) : Option (Nat × Nat) :=
  let x := c.unit u
  if off = 0 then some (4, queueStatus x.me x.tile.isSome)
  else if off = 4 then some (4, word [(8, if x.retired then 0 else x.width), (8, popcount 128 x.colmap)])
  else if 0x10 ≤ off && off < 0x20 && off % 4 = 0 then some (4, bits x.colmap (32 * ((off - 0x10) / 4)) 32)
  else if 0x20 ≤ off && off < 0x40 && off % 8 = 0 then some (8, ringWord (Tab.get {} x.rings ((off - 0x20) / 8)))
  else if off = 0x400 then some (4, queueStatus x.ve (isWide u))
  else if off = 0x404 then some (4, queueStatus x.dma false)
  else if 0x440 ≤ off && off < 0x480 && off % 4 = 0 then some (4, (Tab.get {} x.evts ((off - 0x440) / 4)).word)
  else if 0x480 ≤ off && off < 0x4A0 && off % 8 = 0 then some (8, cplWord (Tab.get {} x.cpls ((off - 0x480) / 8)))
  else if off = 0x500 then some (8, regionWord x.region)
  else if off = 0x508 then some (4, eccWord x.ecc x.spares)
  else if off = 0x580 || off = 0x584 then some (4, 0)
  else if 0x590 ≤ off && off < 0x5A0 && off % 4 = 0 then some (4, grantWord (Tab.get (0, 0) x.stash.grants ((off - 0x590) / 4)))
  else if off = 0x5A0 then some (4, stashStatus x.stash)
  else if off = 0x5A4 then some (4, word [(28, x.stash.spillTop)])
  else if off = 0x5A8 then some (8, word [(32, x.stash.spillBase), (24, x.stash.spillSize)])
  else none

/-! ### Fault collectors (Tables 14-10 to 14-22) -/

/-- FC_LEVELq. -/
def levelWord (x : Coll) (q : Nat) : Nat :=
  word ((List.range 16).flatMap (fun i =>
    match x.episodes.find? (fun p => p.1 == 16 * q + i) with
    | some (_, e) => [(3, e.level), (1, b2n e.timer)]
    | none => [(4, 0)]))

/-- FC_COUNTq. -/
def countWord (x : Coll) (q : Nat) : Nat := word ((List.range 8).map (fun i => (8, Tab.get 0 x.counts (8 * q + i))))

/-- PFC_STATUS: its DIE bits follow the four DFC_STATUS. -/
def pfcStatus (c : Ctx) : Nat :=
  word [(4, maskOf 4 (fun d => decide ((c.coll d).status ≠ 0))), (13, (c.coll 4).status.toNat / 16)]

/-- A register of collector `k` (0–3 DFC, 4 PFC; Tables 20-4, 20-9). -/
def collReg (c : Ctx) (k off : Nat) : Option (Nat × Nat) :=
  let x := c.coll k
  let levels := if k = 4 then 1 else 3
  let counts := if k = 4 then 3 else 6
  let sources := if k = 4 then 17 else 48
  if off = 0 then some (8, if k = 4 then pfcStatus c else x.status.toNat)
  else if off = 8 then some (8, x.cause.toNat)
  else if off = 0x10 && k ≠ 4 then some (8, x.causeLnk.toNat)
  else if off = 0x18 then some (8, x.pvAddr)
  else if off = 0x20 then some (8, word [(3, x.pvKind), (1, b2n x.pvValid), (18, x.pvId)])
  else if off = 0x28 then some (8, x.escTimer)
  else if off = 0x30 then some (4, 0)
  else if 0x40 ≤ off && off < 0x40 + 8 * levels && off % 8 = 0 then some (8, levelWord x ((off - 0x40) / 8))
  else if 0x60 ≤ off && off < 0x60 + 8 * counts && off % 8 = 0 then some (8, countWord x ((off - 0x60) / 8))
  else if off = 0x90 then some (8, x.sticky.toNat)
  else if k = 4 && off = 0x98 then
    some (8, word [(32, c.dev.safe.fallow), (16, c.dev.safe.recoveryLimit), (1, b2n c.dev.safe.safe), (1, b2n c.dev.safe.held)])
  else if k = 4 && off = 0xA0 then some (4, word [(16, c.dev.safe.recoveryCount), (1, b2n c.dev.safe.recoverySticky)])
  else if 0x100 ≤ off && off < 0x180 && off % 8 = 0 && k ≠ 4 then some (8, (Tab.get 0 x.clerr ((off - 0x100) / 8)).toNat)
  else if 0x200 ≤ off && off < 0x200 + 4 * sources && off % 4 = 0 then
    let t := Tab.get (0, 0) x.thresh ((off - 0x200) / 4)
    some (4, word [(8, t.1), (16, t.2)])
  else none

/-! ### LPDDR5X, links, furrows, clocks, job -/

/-- LPDDR5X block of die `d` (Table 20-5). -/
def lpReg (c : Ctx) (d off : Nat) : Option (Nat × Nat) :=
  let x := c.die d
  if off = 0 then some (8, word [(3, x.rate), (3, x.rateMin), (2, 0), (12, x.zoneGib), (4, x.scrubLog2)])
  else if off = 8 then some (8, word [(3, x.rateReached), (1, b2n x.trained), (4, 0), (8, x.devices), (16, 0), (32, x.chTrained)])
  else if off = 0x10 then some (4, word [(8, c.dev.cow.gen), (1, b2n c.dev.cow.active), (7, 0), (8, c.dev.cow.abandonRun)])
  else if 0x20 ≤ off && off < 0x40 && off % 4 = 0 then some (4, eccWord (Tab.get {} x.ecc ((off - 0x20) / 4)) 0)
  else none

/-- LNK_STATEp. -/
def portWord (p : Port) : Nat :=
  word [(3, p.state), (1, 0), (2, p.rate), (4, p.lanes), (4, p.downCause), (1, b2n p.degRate), (1, b2n p.degWidth),
    (1, b2n p.degLength), (1, b2n p.heldEpoch), (1, b2n p.heldUnavail), (1, b2n p.heldLate), (1, b2n p.busy),
    (1, b2n p.admitted), (1, b2n p.dup)]

/-- Link block of die `d` (Table 20-6). -/
def linkReg (c : Ctx) (d off : Nat) : Option (Nat × Nat) :=
  let x := c.linkCfg d
  let t := c.dev.topo
  if off = 0 then some (8, word ((1, b2n x.admOn) :: (7, 0) :: (List.range 7).map (fun v => (4, Tab.get 0 x.vcWeight (v + 1)))))
  else if off = 8 then some (8, word [(32, x.trainTimeout), (32, x.respTimeout)])
  else if off = 0x10 then some (8, word [(32, x.discoveryWindow), (32, x.admitTimeout)])
  else if off = 0x18 && d = 0 then
    some (8, word [(2, t.outcome), (1, b2n t.dupSeen), (1, 0), (6, t.down), (6, t.degraded), (6, t.held), (6, t.maxDown),
      (6, t.maxDegraded)])
  else if 0x100 ≤ off && off < 0x340 then
    let p := c.port (9 * d + (off - 0x100) / 0x40)
    match (off - 0x100) % 0x40 with
    | 0 => some (8, word [(2, p.use), (2, p.expRate), (3, p.expLanes), (1, 0), (8, p.expLength), (8, p.lengthTol),
        (18, p.expPkg), (6, p.expPort)])
    | 8 => some (8, portWord p)
    | 0x10 => some (8, word [(18, p.partner.pkg), (6, p.partner.port), (5, p.partner.adders), (3, 0), (32, p.partner.firmware)])
    | 0x18 => some (4, p.partner.epoch)
    | 0x20 => some (4, word [(8, p.loss), (8, p.length), (4, p.lanesOk), (3, p.partner.rates)])
    | 0x28 => some (8, word [(8, p.errCrc), (8, p.errReplay), (8, p.errRetrain), (8, p.errMisrouted), (4, p.errSticky)])
    | _ => none
  else none

/-- Furrow block of die `d` (Table 20-7). -/
def furReg (c : Ctx) (d off : Nat) : Option (Nat × Nat) :=
  let x := Tab.get {} c.dev.furrows d
  let ch (i : Nat) : FurChan := Tab.get {} x.chans (i + 1)
  if off = 0 then some (8, word [(32, x.timeout), (1, b2n x.nanPolicy), (7, x.groups)])
  else if off = 8 then some (8, word [(48, x.groupBase)])
  else if off = 0x10 then some (4, word [(16, x.skipCount), (1, b2n x.skipSticky)])
  else if 0x20 ≤ off && off < 0x40 && off % 8 = 0 then
    let k := ch ((off - 0x20) / 8)
    some (8, word [(48, k.base), (16, k.len)])
  else if 0x40 ≤ off && off < 0x60 && off % 8 = 0 then
    let k := ch ((off - 0x40) / 8)
    some (8, word [(3, k.state), (5, 0), (8, k.haltStatus), (16, k.haltTag), (16, k.pc)])
  else if 0x60 ≤ off && off < 0x70 && off % 4 = 0 then
    let k := ch ((off - 0x60) / 4)
    some (4, word [(31, k.iter), (1, b2n k.iterSticky)])
  else none

/-- Multiplier of the variant in force (Table 18-10); 0 until a variant is in force. -/
def multOf (c : Ctx) : Nat :=
  if !c.dev.boot.armed then 0 else match c.dev.boot.variant with | 0 => 48 | 1 => 42 | _ => 36

/-- Cache blocks of a request (R374). -/
def Req.blocks (r : Req) : Nat := (r.length + 15) / 16
/-- Cache blocks in T1: those that lie there, and those on their way in (R274). -/
def t1Blocks (c : Ctx) : Nat :=
  ((c.dev.srv.reqs.filter (fun r => r.tier == 1 || r.moving == some 1)).map (fun r => r.blocks)).sum
/-- 64 KiB pages of a cache block. -/
def blockPages (c : Ctx) : Nat := (c.dev.srv.blockBytes + 65535) / 65536
/-- JOB_USE (R424): T1 cache blocks and blocks held for others, each rounded up to pages, and staged pages. -/
def jobUse (c : Ctx) : Nat := (t1Blocks c + c.dev.srv.t2Held.length) * blockPages c + c.dev.cow.staged.length
/-- The job is OVER_QUOTA while its use exceeds its quota (R425): settled in the action that changes either. -/
def quotaCheck (c : Ctx) : Ctx := c.updJob (fun j => { j with overQuota := j.running && decide (j.quota < jobUse c) })

/-- Context slots held: by admitted requests, and by final ones that a step in flight still reads (R373, R395). -/
def residentCount (c : Ctx) : Nat := (c.dev.srv.reqs.filter (fun r => r.admitted)).length + c.dev.srv.leaving.length

/-- Job block, die 0 (Table 20-8). -/
def jobReg (c : Ctx) (off : Nat) : Option (Nat × Nat) :=
  let j := c.dev.job
  let r := c.dev.res
  let s := c.dev.srv
  match off with
  | 0 => some (8, word [(6, j.index), (1, b2n j.running), (1, b2n j.ending), (8, j.endCode), (8, j.refusal),
      (1, b2n j.overQuota), (1, b2n j.overrun), (6, 0), (32, j.quota)])
  | 8 => some (8, word [(48, j.step), (15, 0), (1, b2n j.stepSticky)])
  | 0x10 => some (8, word [(32, jobUse c)])
  | 0x18 => some (8, word [(32, c.dev.epoch), (1, b2n c.dev.epochStuck)])
  | 0x20 => some (8, word [(2, r.state), (1, r.committedSlot), (1, b2n r.valid), (4, 0), (8, r.lastResult), (16, r.tau), (32, r.seq)])
  | 0x28 => some (8, word [(48, r.committedStep)])
  | 0x30 => some (8, word [(1, 0), (2, r.checkResult), (5, 0), (8, r.restores), (1, b2n r.restoresSticky), (15, 0), (32, r.lostSteps)])
  | 0x40 => some (8, word [(2, s.role), (1, s.t2Form), (4, s.dMax), (1, b2n s.quotaAdjust),
      (11, (s.variants.filter (fun p => p.2.valid)).length), (1, 0), (24, s.t0Blocks)])
  | 0x48 => some (8, word [(14, residentCount c), (16, s.reqs.length),
      (1, b2n (s.variants.any (fun p => p.2.overQuota) || s.tenants.any (fun p => p.2.overQuota))),
      (1, b2n (s.variants.any (fun p => p.2.reclaim.isSome) || s.tenants.any (fun p => p.2.reclaim.isSome))),
      (1, b2n s.overrun), (1, b2n s.reclaimLate), (1, b2n s.plan.isNone)])
  | _ => none

/-- Clock block of die `d` (Tables 18-10, 18-12). -/
def clkReg (c : Ctx) (d off : Nat) : Option (Nat × Nat) :=
  let x := c.die d
  match off with
  | 0 => some (8, word [(13, x.domainRun), (3, 0), (1, b2n x.locked), (1, b2n (decide (x.preset ≠ 0))), (6, 0), (8, multOf c)])
  | 8 => some (4, word [(8, 0), (1, b2n x.uresetRefused)])
  | _ => none

/-- A register of die `d` at an offset that is its own (R633, R634, R637). -/
def dieReg (c : Ctx) (d off : Nat) : Option (Nat × Nat) :=
  if off < 0x80000 then unitReg c (128 * d + off / 4096) (off % 4096)
  else if 0x100000 ≤ off && off < 0x101000 then collReg c d (off - 0x100000)
  else if 0x110000 ≤ off && off < 0x111000 then lpReg c d (off - 0x110000)
  else if 0x120000 ≤ off && off < 0x121000 then linkReg c d (off - 0x120000)
  else if 0x121000 ≤ off && off < 0x121620 then
    if off % 4 = 0 then some (4, Tab.get 0 (c.linkCfg d).routes ((off - 0x121000) / 4)) else none
  else if 0x130000 ≤ off && off < 0x131000 then furReg c d (off - 0x130000)
  else if 0x140000 ≤ off && off < 0x141000 then clkReg c d (off - 0x140000)
  else if 0x150000 ≤ off && off < 0x151000 && d = 0 then jobReg c (off - 0x150000)
  else none

/-! ### Steward space (Table 20-9) -/

/-- STW_ID (Table 20-10). -/
def idWord (c : Ctx) : Nat :=
  word [(18, c.dev.boot.pkg), (2, c.dev.boot.variant), (4, 1), (1, b2n c.dev.pins.ready), (1, b2n c.dev.pins.alert),
    (1, b2n c.dev.pins.safe), (1, b2n c.dev.pins.thermtrip)]

/-- Boot block. -/
def bootReg (c : Ctx) (off : Nat) : Option (Nat × Nat) :=
  let b := c.dev.boot
  if off = 0 then some (8, idWord c)
  else if off = 8 then
    some (8, word [(4, b.stage), (1, b2n b.fast), (1, b2n b.stopped), (2, 0), (8, b.error), (1, b.slot), (1, b.copy),
      (1, b2n b.exclA), (1, b2n b.exclB), (2, b.variant), (1, b2n b.certValid), (1, b2n b.startSticky), (8, 0), (32, b.startNumber)])
  else if off = 0x10 then some (8, word [(32, b.imageVersion), (32, b.firmware)])
  else if off = 0x18 then some (4, 0)
  else if off = 0x20 then
    some (8, word [(17, b.entries), (17, b.appended), (8, b.unsaved), (1, b2n b.unsavedSticky), (1, b2n b.full), (1, b2n b.cleared)])
  else if off = 0x28 then some (8, word ((List.range 8).map (fun k => (3, Tab.get 0 b.straps k)) ++ [(3, b.slotPin)]))
  else if 0x40 ≤ off && off < 0x70 && off % 8 = 0 then some (8, ofBytes (((toBytesBE 48 b.digest).drop (off - 0x40)).take 8))
  else none

/-- Security block (Tables 16-5 to 16-8). -/
def secReg (c : Ctx) (off : Nat) : Option (Nat × Nat) :=
  let s := c.dev.sec
  if off = 0 then
    some (8, word [(1, b2n s.rootOk), (1, b2n s.pufOk), (1, b2n s.idCertOk), (1, b2n c.dev.boot.certValid),
      (1, b2n s.ownerSigned), (1, b2n s.installed), (26, 0), (32, s.floor)])
  else if off = 8 then some (8, word [(1, 0), (1, b2n s.busy), (2, s.result), (12, 0), (48, s.addr)])
  else if 0x40 ≤ off && off < 0x70 && off % 8 = 0 then some (8, ofBytes (((toBytesBE 48 s.deviceId).drop (off - 0x40)).take 8))
  else if 0x80 ≤ off && off < 0xB0 && off % 8 = 0 then some (8, Tab.get 0 s.nonce ((off - 0x80) / 8))
  else none

/-- Steward clock and rail block. -/
def stwClkReg (c : Ctx) (off : Nat) : Option (Nat × Nat) :=
  let s := c.dev.stw
  if off = 0 then some (8, word [(13, s.domainRun), (3, 0), (1, b2n s.locked), (7, 0), (8, multOf c)])
  else if off = 8 then some (4, 0)
  else if 0x40 ≤ off && off < 0x68 && off % 8 = 0 then
    let r := Tab.get {} s.rails ((off - 0x40) / 8)
    some (8, word [(10, r.vset), (6, 0), (10, r.measured), (6, 0), (10, r.readback), (6, 0), (4, r.avsRail), (1, b2n r.ok)])
  else none

/-- STW_QPTRq. -/
def qptrWord (p : QPair) : Nat := word [(32, p.tail), (31, p.head), (1, b2n p.qerr)]
/-- STW_RPTRq. -/
def rptrWord (p : QPair) : Nat := word [(32, p.read), (31, p.write), (1, b2n p.rerr)]

/-- Steward attachment block (Tables 17-7 to 17-11). -/
def stwReg (c : Ctx) (off : Nat) : Option (Nat × Nat) :=
  let s := c.dev.stw
  if off = 0 then some (8, 0)
  else if off = 8 then some (8, word [(8, s.replyCode), (8, s.replyOp), (1, b2n s.busy), (1, b2n s.cmdLost)])
  else if off = 0x10 then some (8, word [(6, s.endIndex), (2, 0), (8, s.endCode), (48, s.endStep)])
  else if off = 0x18 then some (8, word [(11, s.irq)])
  else if off = 0x20 then some (8, word [(11, s.irqEn), (13, 0), (24, s.irqCores)])
  else if off = 0x28 then some (8, word [(2, s.maxGen), (4, s.numVfs), (2, s.gen), (5, s.width)])
  else if off = 0x30 then some (4, word ((List.range 4).flatMap (fun d => [(2, Tab.get 0 s.ucie d), (2, 0)])))
  else if 0x100 ≤ off && off < 0x140 && off % 8 = 0 then
    let p := c.pair ((off - 0x100) / 8)
    some (8, word [(25, p.qbase), (4, p.log2), (1, b2n p.enable), (2, 0), (25, p.rbase), (4, p.rsizeLog2)])
  else if 0x200 ≤ off && off < 0x240 && off % 8 = 0 then some (8, qptrWord (c.pair ((off - 0x200) / 8)))
  else if 0x240 ≤ off && off < 0x280 && off % 8 = 0 then some (8, rptrWord (c.pair ((off - 0x240) / 8)))
  else if 0x300 ≤ off && off < 0x340 && off % 8 = 0 then
    let w := Tab.get (0, 0) s.vfwin ((off - 0x300) / 8 + 1)
    some (8, word [(32, w.1), (20, w.2)])
  else none

/-- A register of the steward space at an offset that is its own. -/
def stewardReg (c : Ctx) (off : Nat) : Option (Nat × Nat) :=
  if off < 0x10000 then bootReg c off
  else if off < 0x20000 then secReg c (off - 0x10000)
  else if off < 0x30000 then collReg c 4 (off - 0x20000)
  else if off < 0x40000 then stwClkReg c (off - 0x30000)
  else if off < 0x40400 then stwReg c (off - 0x40000)
  else none

/-! ### Reading a register (R640, R641) -/

/-- A register space: the steward's or a die's. -/
inductive Space where
  | steward
  | die (d : Nat)
  deriving DecidableEq, Repr

/-- A register at its own offset. -/
def spaceReg (c : Ctx) : Space → Nat → Option (Nat × Nat)
  | .steward, off => stewardReg c off
  | .die d, off => dieReg c d off

/-- The register that an access of `n` bytes at `off` names: its offset, width, value, and first byte of the access in it.
Accesses are 4 or 8 bytes, naturally aligned, no wider than the register (R640). -/
def regFind (c : Ctx) (sp : Space) (off n : Nat) : Option (Nat × Nat × Nat × Nat) :=
  if (n = 4 || n = 8) && off % n = 0 then
    match spaceReg c sp off with
    | some (w, v) => if n ≤ w then some (off, w, v, 0) else none
    | none =>
      if n = 4 && off % 8 = 4 then
        match spaceReg c sp (off - 4) with
        | some (8, v) => some (off - 4, 8, v, 4)
        | _ => none
      else none
  else none

/-- The value an access of `n` bytes at `off` reads (R641). -/
def regRead (c : Ctx) (sp : Space) (off n : Nat) : Option Nat :=
  match regFind c sp off n with
  | some (_, _, v, b) => some (bits v (8 * b) (8 * n))
  | none => none

end Sys2Proof.Machine
end

