-- ==== Sys2Proof/Machine/ControlCores.lean ====
section
/-!
DEFINITION. The control cores (chapter 5): pushes into the queues, event counters, traps, their loads, stores and fetches, and
the stash allocator they store to (chapter 8).
-/
namespace Sys2Proof.Machine

/-! ### Traps -/

/-- A processor core takes an exception in machine mode (RISC-V privileged architecture, R210, R212): `mepc` holds the pc,
`mcause` the cause, `mtval` the value or zero (log entry 4), MPIE takes MIE, MIE clears, MPP takes the mode, and the pc goes to
the base of `mtvec`. -/
def trapEnter (core cause tval : Nat) (c : Ctx) : Ctx :=
  c.updCore core (fun k =>
    let st := k.mstatus &&& ~~~(0x1888 : Word64)
    let mpie : Word64 := if k.mstatus.getLsbD 3 then 0x80 else 0
    let mpp : Word64 := BitVec.ofNat 64 (k.priv % 4) <<< 11
    { k with
      mepc := k.pc
      mcause := BitVec.ofNat 64 cause
      mtval := if Config.mtvalWritten then BitVec.ofNat 64 tval else 0
      mstatus := st ||| mpie ||| mpp
      priv := 3
      pc := k.mtvec &&& ~~~(3 : Word64) })

/-- The instruction after this one. -/
def pcNext (core : Nat) (c : Ctx) : Ctx := c.updCore core (fun k => { k with pc := (k.pc + 4) % 2 ^ 32 })

/-- The low 32 bits of a control core's register. -/
def CoreSt.reg32 (k : CoreSt) (r : Nat) : Nat := (k.reg r).toNat % 2 ^ 32
/-- Write a 32-bit value to a control core's register. -/
def setReg32 (core rd v : Nat) (c : Ctx) : Ctx := c.updCore core (fun k => k.setReg rd (BitVec.ofNat 64 (v % 2 ^ 32)))

/-! ### The local address map (Table 05-7) -/

/-- What a local address is. -/
inductive LocalPlace where
  | instr (key : Nat)
  | data (key : Nat)
  | regs (off : Nat)
  | um (addr : Nat)
  | tr (addr : Nat)
  | none
  deriving DecidableEq, Repr

/-- The place of a local address of a control core. -/
def localPlace (core a : Nat) : LocalPlace :=
  let u := unitOfCore core
  if a < 0x10000 then .instr (coreRam core + a)
  else if a < 0x18000 then .data (coreRam core + a)
  else if 0x20000 ≤ a && a < 0x21000 then .regs (a - 0x20000)
  else if 0x4000000 ≤ a && a < 0x7000000 then .um (umBase u + (a - 0x4000000))
  else if 0x8000000 ≤ a && a < 0x8100000 then .tr (trBase u + (a - 0x8000000))
  else .none

/-- Package physical address of a unit's register block. -/
def unitBlock (u : Nat) : Nat := 0xF00100000000 + (dieOfUnit u) * 2 ^ 32 + (u % 128) * 4096

/-- A control core's refused access (R211, R500). FC_PV0 takes the package physical address; a local address that has none
leaves a value the spec does not state (log entry 3). -/
def violateLocal (core a : Nat) (c : Ctx) : Ctx :=
  let c1 := c.answer core { ok := false, value := 0 }
  match localPlace core a with
  | .regs off => violateCore core (unitBlock (unitOfCore core) + off) c1
  | .um p => violateCore core p c1
  | .tr p => violateCore core p c1
  | _ =>
    let (k, c2) := c1.draw 1
    violateCore core (Config.freeNat k % 2 ^ 48) c2

/-! ### Unit-issue instructions (Table 05-8) -/

/-- The descriptor with its scalar slots replaced by registers of the pushing core (R179). -/
def slotRegs (k : CoreSt) (q d : Nat) : Nat :=
  let repl (d off : Nat) : Nat :=
    d - bits d (8 * off) 32 * 2 ^ (8 * off) + k.reg32 (bits d (8 * off) 5) * 2 ^ (8 * off)
  if q = 1 then
    let op := d % 256
    if op = 0x20 then
      let d1 := if bits d (8 * 14) 1 = 1 then repl d 56 else d
      if bits d (8 * 14 + 1) 1 = 1 then repl d1 60 else d1
    else if op = 0x21 then if bits d (8 * 14 + 2) 1 = 1 then repl d 40 else d
    else d
  else d

/-- The 64 bytes at a data RAM address, slots replaced. -/
def pushDesc (c : Ctx) (core q a : Nat) : Desc := BitVec.ofNat 512 (slotRegs (c.core core) q (c.readNat (coreRam core + a) 64))

/-- Are pushes into the unit's queues refused: the job is ending (step 2 of Table 11-4), or the unit is being or has been
retired (Table 11-5)? The core then stops at its push (log entry 20). -/
def pushRefused (c : Ctx) (u : Nat) : Bool :=
  (c.dev.job.running && c.dev.job.ending) || (c.unit u).retired || isDisabled c (.unit u)

/-- Free entries of a queue (R215). -/
def queueFree (c : Ctx) (u q : Nat) : Nat := 64 - ((c.unit u).queue q).entries.length

/-- Append a command to its queue. -/
def enqueue (u q core : Nat) (d : Desc) (c : Ctx) : Ctx :=
  c.updQueue u q (fun y => { y with entries := y.entries ++ [{ core := core, desc := d }], lastCore := some core })

/-- Does a lower-numbered core of the unit wait to push into the same queue (R214)? -/
def lowerWaits (c : Ctx) (core q : Nat) : Bool :=
  (List.range (core % 4)).any (fun i =>
    let k := c.core (core - core % 4 + i)
    match k.stall with
    | .push q' _ _ => q' == q && !k.halted && !k.frozen
    | _ => false)

/-- May the push have met, in its CLK_MEM cycle, the push of a lower-numbered core that the queue took last (R214)? -/
def mayContend (c : Ctx) (core q : Nat) : Bool :=
  (((c.unit (unitOfCore core)).queue q).lastCore.elim false (fun k => decide (k < core)))

/-- Illegal instruction: exception 2 (R212). -/
def illegal (core w : Nat) (c : Ctx) : Ctx := trapEnter core 2 w c

/-- The 32-bit word of a unit-issue instruction. -/
def uqWord (f7 f3 rd rs1 rs2 : Nat) : Nat := word [(7, 0x0B), (5, rd), (3, f3), (5, rs1), (5, rs2), (7, f7)]

/-- UQ.PUSH and UQ.PUSHNB (R212–R214). A push loses the cycle to a lower-numbered core that waits for the same queue, and to one whose push
the queue took in the same CLK_MEM cycle; whether that cycle is the same is free (log entry 119). A push that names queue 3 is an
illegal instruction whatever its address, and one that does not enter its queue at once keeps the 64 bytes it found (log entry 118). -/
def uqPushOp (block : Bool) (core rd rs1 rs2 : Nat) (c : Ctx) : Ctx :=
  if !c.coreRuns core then c
  else
    let k := c.core core
    let q := k.reg32 rs2 % 4
    let a := k.reg32 rs1
    let u := unitOfCore core
    if q = 3 then illegal core (uqWord (b2n (!block)) 0 rd rs1 rs2) c
    else if a % 64 ≠ 0 || a < 0x10000 || 0x18000 ≤ a then violateLocal core a c
    else if pushRefused c u then c.updCore core (fun k => { k with halted := true })
    else
      let d := pushDesc c core q a
      let late : Ctx → Ctx := fun a =>
        if block then a.updCore core (fun k => { k with stall := .push q d rd }) else pcNext core (setReg32 core rd 1 a)
      if queueFree c u q = 0 || lowerWaits c core q then late c
      else if mayContend c core q then
        let (k, c1) := c.draw 1
        if Config.freeBool k then late c1 else pcNext core (setReg32 core rd 0 (enqueue u q core d c1))
      else pcNext core (setReg32 core rd 0 (enqueue u q core d c))

/-- PUSH_ACCEPT: a stalled push finds room (R212, R214); a lower-numbered core of the unit stalled on the same queue goes first. -/
def pushAcceptOp (core : Nat) (c : Ctx) : Ctx :=
  let k := c.core core
  let u := unitOfCore core
  match k.stall with
  | .push q d rd =>
    if k.halted || k.frozen || c.dieStopped (dieOfUnit u) then c
    else if pushRefused c u then c.updCore core (fun k => { k with stall := .no, halted := true })
    else if queueFree c u q = 0 || lowerWaits c core q then c
    else pcNext core (setReg32 core rd 0 (enqueue u q core d (c.updCore core (fun k => { k with stall := .no }))))
  | _ => c

/-- UQ.WAIT (R212): passes at once when the counter is high enough, else the core stalls. -/
def uqWaitOp (core rd rs1 rs2 : Nat) (c : Ctx) : Ctx :=
  if !c.coreRuns core then c
  else
    let k := c.core core
    let i := k.reg32 rs1 % 16
    let w := evtWord c (unitOfCore core) i
    if k.reg32 rs2 ≤ w then pcNext core (setReg32 core rd w c)
    else c.updCore core (fun x => { x with stall := .wait i (k.reg32 rs2) rd })

/-- WAIT_SATISFIED: the counter has reached the value (R212, R216). -/
def waitSatisfiedOp (core : Nat) (c : Ctx) : Ctx :=
  let k := c.core core
  match k.stall with
  | .wait i v rd =>
    let w := evtWord c (unitOfCore core) i
    if k.halted || k.frozen || c.dieStopped (dieOfCore core) || w < v then c
    else pcNext core (setReg32 core rd w (c.updCore core (fun k => { k with stall := .no })))
  | _ => c

/-- UQ.EVT: read a counter. -/
def uqEvtOp (core rd rs1 : Nat) (c : Ctx) : Ctx :=
  if !c.coreRuns core then c
  else pcNext core (setReg32 core rd (evtWord c (unitOfCore core) ((c.core core).reg32 rs1 % 16)) c)

/-- UQ.SIG: add to a counter (R216). -/
def uqSigOp (core rs1 rs2 : Nat) (c : Ctx) : Ctx :=
  if !c.coreRuns core then c
  else pcNext core (addEvt (unitOfCore core) ((c.core core).reg32 rs1 % 16) ((c.core core).reg32 rs2) c)

/-- UQ.EVCLR: clear a counter and its sticky flag (R217). -/
def uqEvclrOp (core rs1 : Nat) (c : Ctx) : Ctx :=
  if !c.coreRuns core then c
  else
    let i := (c.core core).reg32 rs1 % 16
    pcNext core (c.updUnit (unitOfCore core) (fun x => { x with evts := Tab.set x.evts i {} }))

/-- UQ.QSTAT: free entries of a queue. -/
def uqQstatOp (core rd rs1 : Nat) (c : Ctx) : Ctx :=
  if !c.coreRuns core then c
  else
    let q := (c.core core).reg32 rs1 % 4
    if q = 3 then illegal core (uqWord 0 5 rd rs1 0) c
    else pcNext core (setReg32 core rd (queueFree c (unitOfCore core) q) c)

/-- Is the word a unit-issue instruction of Table 05-8? -/
def isUq (w : Nat) : Bool :=
  let f3 := bits w 12 3
  let f7 := bits w 25 7
  bits w 0 7 == 0x0B && ((f7 == 0 && f3 ≤ 5) || (f7 == 1 && f3 == 0))

/-- ILLEGAL_INSTRUCTION: any other encoding in custom-0 (R212). A word that is a unit-issue instruction, or not in custom-0, is
not this event and changes nothing. -/
def illegalInstructionOp (core w : Nat) (c : Ctx) : Ctx :=
  if !c.coreRuns core || isUq w || bits w 0 7 != 0x0B then c else illegal core w c

/-! ### The stash allocator (R302–R309) -/

/-- UM_STASH_CLAIM: a frame of SIZE pages for the storing core; a SIZE of 0 is refused. -/
def stashClaim (core v : Nat) (c : Ctx) : Ctx :=
  let u := unitOfCore core
  let n := v % 2 ^ 20
  let x := c.unit u
  let s := x.stash
  let grant : Option (Nat × Nat) :=
    if s.frames.length = 1024 then none
    else if s.spillTop = 0 && s.unitTop + n ≤ 16 * x.region.stashSize then some (0, s.unitTop)
    else if s.spillTop + n ≤ 16 * s.spillSize then some (1, s.spillTop)
    else none
  if n = 0 then violateCore core (unitBlock u + 0x580) (c.answer core { ok := false, value := 0 })
  else match grant with
  | some (tier, off) =>
    c.updUnit u (fun y => { y with stash :=
      { s with
        frames := (tier, n) :: s.frames
        unitTop := if tier = 0 then s.unitTop + n else s.unitTop
        spillTop := if tier = 1 then s.spillTop + n else s.spillTop
        grants := Tab.set s.grants (core % 4) (tier, off) } })
  | none =>
    let c1 := c.updUnit u (fun y => { y with stash := { s with exhausted := true } })
    let c2 := endCause 0x10 (c1.updCore core (fun k => { k with frozen := true }))
    markFroze (dieOfUnit u) (clusterOf u % 16) (unitEvent u 6 c2)

/-- UM_STASH_RELEASE: pop the top frame on a store of 1; refused while there is none (R306). -/
def stashRelease (core v : Nat) (c : Ctx) : Ctx :=
  let u := unitOfCore core
  let s := (c.unit u).stash
  if v % 2 = 0 then c
  else
    match s.frames with
    | [] => violateCore core (unitBlock u + 0x584) (c.answer core { ok := false, value := 0 })
    | (tier, n) :: rest =>
      c.updUnit u (fun y => { y with stash :=
        { s with
          frames := rest
          unitTop := if tier = 0 then s.unitTop - n else s.unitTop
          spillTop := if tier = 1 then s.spillTop - n else s.spillTop } })

/-- UM_STASH_CLAIM, stored by a running core. -/
def umStashClaimOp (core value : Nat) (c : Ctx) : Ctx :=
  if !c.coreRuns core then c else stashClaim core value (c.answer core {})

/-- UM_STASH_RELEASE, stored by a running core. -/
def umStashReleaseOp (core value : Nat) (c : Ctx) : Ctx :=
  if !c.coreRuns core then c else stashRelease core value (c.answer core {})

/-! ### Loads, stores and fetches (R211) -/

/-- Write fields of VE_CPLc in the half of the register written (Table 05-15, R642). -/
def cplWrite (u i b v : Nat) (c : Ctx) : Ctx :=
  c.updUnit u (fun x =>
    let r := Tab.get {} x.cpls i
    let r1 : Cpl :=
      if b = 0 then { r with base := bits v 0 15, lenLog2 := bits v 16 3, enable := bit v 19 }
      else { r with tail := bits v 8 8 }
    { x with cpls := Tab.set x.cpls i r1 })

/-- A write of 4 or 8 bytes to a unit register other than the stash stores: VE_CPLc alone has fields to write. -/
def unitRegWrite (u reg b n v : Nat) (c : Ctx) : Ctx :=
  if 0x480 ≤ reg && reg < 0x4A0 then
    let i := (reg - 0x480) / 8
    if n = 8 then cplWrite u i 4 (v / 2 ^ 32) (cplWrite u i 0 (v % 2 ^ 32) c) else cplWrite u i b v c
  else c

/-- Sign-extend or zero-extend the `8 n`-bit value loaded to 64 bits. -/
def extend (signed : Bool) (n v : Nat) : Nat :=
  if signed && bit v (8 * n - 1) then v + (2 ^ 64 - 2 ^ (8 * n)) else v

/-- The load delivers its value: to register `rd`, and as the access's answer. -/
def deliver (core rd n v : Nat) (signed : Bool) (c : Ctx) : Ctx :=
  let w := extend signed n v % (if core < 2048 then 2 ^ 32 else 2 ^ 64)
  (c.updCore core (fun k => k.setReg rd (BitVec.ofNat 64 w))).answer core { ok := true, value := w }

/-- A load or store in unit memory or a tile register at package address `p`: the window of a retired unit is refused (R58), a
load that finds poison takes a load access fault, mcause 5, with the unit's pin (R258). -/
def coreWindow (core : Nat) (kind : Access) (a p n value rd : Nat) (signed : Bool) (c : Ctx) : Ctx :=
  let u := unitOfCore core
  if (c.unit u).retired then violateLocal core a c
  else match kind with
  | .store => (store p (toBytes n value) c).answer core {}
  | _ =>
    let c1 := eccRead p n c
    if poisonAt c1 p n then unitEvent u 3 (trapEnter core 5 a (c1.answer core { ok := false, value := 0 }))
    else deliver core rd n (c1.readNat p n) signed c1

/-- CONTROL_CORE_ACCESS (R211, R635, R640). -/
def controlCoreAccessOp (core : Nat) (kind : Access) (a n value rd : Nat) (signed : Bool) (c : Ctx) : Ctx :=
  if !c.coreRuns core then c
  else
    let u := unitOfCore core
    let fits := localPlace core (a + n - 1)
    if kind != .fetch && a % n ≠ 0 && Config.misalignedTraps then
      trapEnter core (if kind == .store then 6 else 4) a (c.answer core { ok := false, value := 0 })
    else
      match kind, localPlace core a, fits with
      | .fetch, .instr p, .instr _ => c.answer core { ok := true, value := c.readNat p n }
      | .load, .instr p, .instr _ => deliver core rd n (c.readNat p n) signed c
      | .load, .data p, .data _ => deliver core rd n (c.readNat p n) signed c
      | .load, .instr p, .data _ => deliver core rd n (c.readNat p n) signed c
      | .store, .data p, .data _ => (c.writeNat p n value).answer core {}
      | .load, .regs off, .regs _ =>
        match (if n = 4 then regRead c (.die (dieOfUnit u)) (unitBlock u % 2 ^ 32 + off) 4 else none) with
        | some v => deliver core rd n v signed c
        | none => violateLocal core a c
      | .store, .regs off, .regs _ =>
        if off = 0x580 && n = 4 then stashClaim core value (c.answer core {})
        else if off = 0x584 && n = 4 then stashRelease core value (c.answer core {})
        else
          match (if n = 4 then regFind c (.die (dieOfUnit u)) (unitBlock u % 2 ^ 32 + off) 4 else none) with
          | some (reg, _, _, b) => (unitRegWrite u (reg % 4096) b 4 value c).answer core {}
          | none => violateLocal core a c
      | .load, .um p, .um _ => coreWindow core .load a p n value rd signed c
      | .store, .um p, .um _ => coreWindow core .store a p n value rd signed c
      | .load, .tr p, .tr _ => coreWindow core .load a p n value rd signed c
      | .store, .tr p, .tr _ => coreWindow core .store a p n value rd signed c
      | _, _, _ => violateLocal core a c

/-! ### The commands -/

/-- UQ_PUSH (R212, R213). -/
def execUqPush (core rd rs1 rs2 : Nat) (s : State) : Host.Outcome State Fault Refusal :=
  perform (.uqPush core rd rs1 rs2) s (uqPushOp true core rd rs1 rs2)

/-- UQ_PUSHNB (R212, R214). -/
def execUqPushnb (core rd rs1 rs2 : Nat) (s : State) : Host.Outcome State Fault Refusal :=
  perform (.uqPushnb core rd rs1 rs2) s (uqPushOp false core rd rs1 rs2)

/-- PUSH_ACCEPT (R214). -/
def execPushAccept (core : Nat) (s : State) : Host.Outcome State Fault Refusal :=
  perform (.pushAccept core) s (pushAcceptOp core)

/-- UQ_WAIT (R212). -/
def execUqWait (core rd rs1 rs2 : Nat) (s : State) : Host.Outcome State Fault Refusal :=
  perform (.uqWait core rd rs1 rs2) s (uqWaitOp core rd rs1 rs2)

/-- WAIT_SATISFIED (R212). -/
def execWaitSatisfied (core : Nat) (s : State) : Host.Outcome State Fault Refusal :=
  perform (.waitSatisfied core) s (waitSatisfiedOp core)

/-- UQ_EVT (R212). -/
def execUqEvt (core rd rs1 : Nat) (s : State) : Host.Outcome State Fault Refusal :=
  perform (.uqEvt core rd rs1) s (uqEvtOp core rd rs1)

/-- UQ_SIG (R212, R216). -/
def execUqSig (core rs1 rs2 : Nat) (s : State) : Host.Outcome State Fault Refusal :=
  perform (.uqSig core rs1 rs2) s (uqSigOp core rs1 rs2)

/-- UQ_EVCLR (R212, R217). -/
def execUqEvclr (core rs1 : Nat) (s : State) : Host.Outcome State Fault Refusal :=
  perform (.uqEvclr core rs1) s (uqEvclrOp core rs1)

/-- UQ_QSTAT (R212). -/
def execUqQstat (core rd rs1 : Nat) (s : State) : Host.Outcome State Fault Refusal :=
  perform (.uqQstat core rd rs1) s (uqQstatOp core rd rs1)

/-- ILLEGAL_INSTRUCTION (R212). -/
def execIllegalInstruction (core word : Nat) (s : State) : Host.Outcome State Fault Refusal :=
  perform (.illegalInstruction core word) s (illegalInstructionOp core word)

/-- CONTROL_CORE_ACCESS (R211). -/
def execControlCoreAccess (core : Nat) (kind : Access) (addr size value rd : Nat) (signed : Bool) (s : State) :
    Host.Outcome State Fault Refusal :=
  perform (.controlCoreAccess core kind addr size value rd signed) s (controlCoreAccessOp core kind addr size value rd signed)

/-- UM_STASH_CLAIM (R304, R308). -/
def execUmStashClaim (core value : Nat) (s : State) : Host.Outcome State Fault Refusal :=
  perform (.umStashClaim core value) s (umStashClaimOp core value)

/-- UM_STASH_RELEASE (R306). -/
def execUmStashRelease (core value : Nat) (s : State) : Host.Outcome State Fault Refusal :=
  perform (.umStashRelease core value) s (umStashReleaseOp core value)

end Sys2Proof.Machine
end

