-- ==== Sys2Proof/Machine/Areas.lean ====
section
/-!
DEFINITION. LPDDR5X areas (R263, R264, R518), copy-on-write pages (R265–R271), and routing (R452, R453).
-/
namespace Sys2Proof.Machine

/-! ### Areas -/

/-- Do areas that satisfy `p` cover every byte of [a, a + n)? At most `k` areas are walked. -/
def areasCover (p : Area → Bool) (l : List Area) : Nat → Nat → Nat → Bool
  | 0, _, n => n == 0
  | k + 1, a, n =>
    if n = 0 then true
    else match l.find? (fun x => x.base ≤ a && a < x.base + x.size && p x) with
      | none => false
      | some x =>
        let step := min n (x.base + x.size - a)
        areasCover p l k (a + step) (n - step)

/-- Every byte lies in an area of the running job that satisfies `p`. -/
def inAreas (c : Ctx) (p : Area → Bool) (a n : Nat) : Bool := areasCover p c.dev.job.areas 33 a n

/-- Does [a, a + n) touch an image copy (R518)? -/
def touchesCopies (a n : Nat) : Bool := overlaps a n (imageCopy 0) 0x80000000

/-- A master of the package may read LPDDR5X here: while a job runs, inside its areas (R264). -/
def lpReadable (c : Ctx) (a n : Nat) : Bool :=
  a + n ≤ lpSize && !touchesCopies a n && (!c.dev.job.running || inAreas c (fun _ => true) a n)

/-- A master of the package may write LPDDR5X here: while a job runs, inside areas with WRITE set and STAGING clear (R264). -/
def lpWritable (c : Ctx) (a n : Nat) : Bool :=
  a + n ≤ lpSize && !touchesCopies a n && (!c.dev.job.running || inAreas c (fun x => x.write && !x.staging) a n)

/-- Does an access to the address wait for its die's return from a partial reset: a unit memory or tile register window from step 2
until it is zeroed (R602)? -/
def windowHeld (c : Ctx) (a : Nat) : Bool :=
  match place a with
  | .um u _ | .tr u _ => (c.die (dieOfUnit u)).preset == 1
  | _ => false

/-- Does the package refuse what another one asks of it on VC5 to VC7: while BUSY (R446), or from a frozen requester (Table 14-6)? -/
def refusesFrom (c : Ctx) (pkg : Nat) : Bool := anyPreset c || c.dev.frozenRemotes.contains pkg

/-! ### Copy-on-write -/

/-- Page of an address (R265). -/
def pageOf (a : Nat) : Nat := a / 65536

/-- Is a page in copy-on-write scope? -/
def inScope (c : Ctx) (page : Nat) : Bool :=
  c.dev.job.areas.any (fun x => x.sheaf && x.base ≤ page * 65536 && page * 65536 < x.base + x.size)

/-- Is a page protected (R266)? -/
def protectedPage (c : Ctx) (page : Nat) : Bool :=
  c.dev.cow.active && inScope c page && Tab.get 0 c.dev.cow.pageGen page != c.dev.cow.gen

/-- The pages of a write. -/
def pagesOf (a n : Nat) : List Nat := if n = 0 then [] else (List.range ((a + n - 1) / 65536 - a / 65536 + 1)).map (fun i => a / 65536 + i)

/-- The first protected page among those a write touches. -/
def firstProtected (c : Ctx) (a n : Nat) : Option Nat :=
  if a < lpSize then (pagesOf a n).find? (protectedPage c) else none

/-- A write that waits for its page (R267): the bytes it will store, or none where the master retries. -/
def cowWait (a : Nat) (data : List Byte) (c : Ctx) : Ctx :=
  if c.dev.cow.waiting.contains (a, data) then c
  else c.updCow (fun w => { w with waiting := w.waiting ++ [(a, data)] })

/-- The staging area (Table 06-6): base and pages. -/
def stagingArea (c : Ctx) : Nat × Nat :=
  match c.dev.job.areas.find? (fun x => x.staging) with
  | some x => (x.base, x.size / 65536)
  | none => (0, 0)

/-- A free staging page; none when the area is full or the job is OVER_QUOTA (R270, R425). -/
def stagingFree (c : Ctx) : Option Nat :=
  let (b, n) := stagingArea c
  if c.dev.job.overQuota then none
  else (List.range n).find? (fun i => !c.dev.cow.staged.any (fun p => p.2 == b + i * 65536)) |>.map (fun i => b + i * 65536)

/-- Give a page GEN = g (R267). -/
def markPage (page : Nat) (c : Ctx) : Ctx := c.updCow (fun w => { w with pageGen := Tab.set w.pageGen page w.gen })

/-- Copy bytes of LPDDR5X: every line is checked as it is read (R256, R257), and a line written from a poisoned one is poisoned (R258; for
the copies of a load or a restore the model's choice, log entry 121). -/
def copyLines (src dst n : Nat) (c : Ctx) : Ctx :=
  let c0 := eccRead src n c
  let c1 := store dst (c0.read src n) c0
  let hit (b : Nat) : List Nat :=
    let lo := max b src
    wordsOf (dst + (lo - src)) (min (b + wordSize b) (src + n) - lo)
  forAll (((wordsOf src n).filter (isPoisoned c0)).flatMap hit) setPoison c1

/-- Copy a page line by line, poison with it (R258). -/
def copyPage (src dst : Nat) (c : Ctx) : Ctx := copyLines src dst 65536 c

/-- The writes that need not wait any more land, in the order in which they came (R267, R271). In the safe state their masters stand frozen
(R503). -/
def releaseWrites (c : Ctx) : Ctx :=
  if c.dev.safe.safe then c else
  let blocked (w : Nat × List Byte) : Bool := (firstProtected c w.1 (max 1 w.2.length)).isSome
  let go := c.dev.cow.waiting.filter (fun w => !blocked w)
  let c1 := c.updCow (fun x => { x with waiting := x.waiting.filter blocked })
  go.foldl (fun a w => store w.1 w.2 a) c1

/-- An abandoned sheaf (R271): ACTIVE clear, ABANDON_RUN one more, its copies dropped, waiting writes proceed without a copy. -/
def cowAbandon (c : Ctx) : Ctx :=
  quotaCheck (releaseWrites (c.updCow (fun w => { w with active := false, abandonRun := w.abandonRun + 1, staged := [], next := 0, early := [] })))

/-- A completed sheaf (R271, R465). -/
def cowComplete (c : Ctx) : Ctx :=
  quotaCheck (releaseWrites (c.updCow (fun w => { w with active := false, abandonRun := 0, staged := [], next := 0, early := [] })))

/-- The pages in scope, ascending (R268). -/
def scopePages (c : Ctx) : List Nat :=
  let l := (c.dev.job.areas.filter (fun x => x.sheaf && decide (x.size ≠ 0)))
  let rec sorted : List Area → List Area
    | [] => []
    | x :: t => ins x (sorted t)
  (sorted l).flatMap (fun x => (List.range (x.size / 65536)).map (fun i => x.base / 65536 + i))
where
  /-- insert an area by its base -/
  ins (x : Area) : List Area → List Area
    | [] => [x]
    | y :: t => if x.base ≤ y.base then x :: y :: t else y :: ins x t

/-- A sheaf starts (R266, R271): after 255 abandoned sheaves every page in scope is first brought to g. -/
def cowStart (c : Ctx) : Ctx :=
  let c1 := if c.dev.cow.abandonRun = 255 then
      (forAll (scopePages c) markPage c).updCow (fun w => { w with abandonRun := 0 })
    else c
  c1.updCow (fun w => { w with gen := (w.gen + 1) % 256, active := true, staged := [], next := 0, early := [] })

/-! ### Routing -/

/-- One candidate of a routing entry (R452): VALID, DATELINE and package link number. -/
def candidate (e i : Nat) : Bool × Bool × Nat := (bit e (8 * i + 7), bit e (8 * i + 6), bits e (8 * i) 6)

/-- Lanes in use. -/
def laneCount (m : Nat) : Nat := popcount 4 m

/-- Weight of a candidate (R453). -/
def candidateWeight (c : Ctx) (e i : Nat) : Nat :=
  let (v, _, p) := candidate e i
  let x := c.port p
  if v && p < 36 && (x.state = 2 || x.state = 3) then laneCount x.lanes * 2 ^ x.rate else 0

/-- The routing entry for a destination in die `d`'s tables, and its phase: 2 slot, 1 tray, 0 row (R452, R453). -/
def routeEntry (c : Ctx) (d dst : Nat) : Nat × Nat :=
  let own := c.dev.boot.pkg / 8
  let t := dst / 8
  let r := (c.linkCfg d).routes
  if t = own then (Tab.get 0 r (dst % 8), 2)
  else if t / 256 = own / 256 then (Tab.get 0 r (8 + t % 256), 1)
  else (Tab.get 0 r (264 + t / 256), 0)

/-- Route a flit for `dst` from `src` with die `d`'s tables (R453): the candidate's port and DATELINE; none where unroutable. -/
def route (c : Ctx) (d dst src : Nat) : Option (Nat × Bool) :=
  let e := (routeEntry c d dst).1
  let ws := (List.range 4).map (candidateWeight c e)
  let total := ws.sum
  if total = 0 then none
  else
    let x := ((dst * 40503 + src) % 65536) % total
    match (List.range 4).find? (fun i => decide ((ws.take (i + 1)).sum > x)) with
    | some i => some ((candidate e i).2.2, (candidate e i).2.1)
    | none => none

/-- Route a flit on a virtual channel: by R453, and on VC0, which a HELD port carries (R446), by the first HELD candidate where none is UP or
DEGRADED, as a JOIN has to (R481; log entry 122). -/
def routeVc (c : Ctx) (d vc dst src : Nat) : Option (Nat × Bool) :=
  match route c d dst src with
  | some r => some r
  | none =>
    if vc ≠ 0 then none
    else
      let e := (routeEntry c d dst).1
      match (List.range 4).find? (fun i => let (v, _, p) := candidate e i; v && p < 36 && (c.port p).state = 6) with
      | some i => some ((candidate e i).2.2, (candidate e i).2.1)
      | none => none

/-- A message of at most 240 bytes that a master of die `d` sends joins the queue of the port it is routed to, HOPS at 31 (R431, R452);
without a route it goes nowhere. -/
def sendFlit (d vc dst : Nat) (payload : List Byte) (c : Ctx) : Ctx :=
  let own := c.dev.boot.pkg
  match routeVc c d vc dst own with
  | none => c
  | some (p, dateline) =>
    let f : Flit := { vc := vc, cls := b2n dateline, hops := 31, dst := dst, src := own, last := true, poison := false, payload := payload, seq := 0,
                      ack := 0, creditVc := 0, creditCls := 0, credit := 0, nak := false }
    c.updPort p (fun x => { x with link := { x.link with txq := x.link.txq ++ [{ flit := f }] } })

end Sys2Proof.Machine
end

