-- ==== Sys2Proof/Machine/Dma.lean ====
section
/-!
DEFINITION. DMA (R221–R227) and the requests of other packages (R224, R446): a copy starts after its checks, the cluster engine
moves it chunk by chunk, a remote side is asked over virtual channel 5.
-/
namespace Sys2Proof.Machine

/-! ### DMA_COPY (Table 05-10) -/

def cSrc (d : Desc) : Nat := fld d 8 0 48
def cDst (d : Desc) : Nat := fld d 16 0 48
def cSrcPkg (d : Desc) : Nat := fld d 24 0 18
def cSrcRemote (d : Desc) : Bool := fld d 27 7 1 == 1
def cDstPkg (d : Desc) : Nat := fld d 28 0 18
def cDstRemote (d : Desc) : Bool := fld d 31 7 1 == 1
def cRowBytes (d : Desc) : Nat := fld d 32 0 32
def cRows (d : Desc) : Nat := fld d 36 0 32
def cSrcStride (d : Desc) : Nat := fld d 40 0 32
def cDstStride (d : Desc) : Nat := fld d 44 0 32
/-- Bytes of the whole copy. -/
def cTotal (d : Desc) : Nat := cRowBytes d * cRows d
/-- The rows of the source and of the destination, as (address, bytes). -/
def cSrcRows (d : Desc) : List (Nat × Nat) := (List.range (cRows d)).map (fun i => (cSrc d + i * cSrcStride d, cRowBytes d))
def cDstRows (d : Desc) : List (Nat × Nat) := (List.range (cRows d)).map (fun i => (cDst d + i * cDstStride d, cRowBytes d))

/-- The package at the other side. -/
def cRemote (d : Desc) : Option Nat :=
  if cSrcRemote d then some (cSrcPkg d) else if cDstRemote d then some (cDstPkg d) else none

/-- The descriptor obeys R208 and R222. -/
def copyOk (c : Ctx) (d : Desc) : Bool :=
  hOpcode d == 0x30 && headerOk d && zeroBytes d 14 15 && zeroBytes d 22 23 && fld d 26 2 13 == 0 && fld d 30 2 13 == 0 && zeroBytes d 48 63 &&
  1 ≤ cRowBytes d && cRowBytes d ≤ 16777216 && 1 ≤ cRows d && cRows d ≤ 1048576 &&
  !(cSrcRemote d && cDstRemote d) && cRemote d != some c.dev.boot.pkg &&
  ((cRemote d).isSome || !(cDstRows d).any (fun p => (cSrcRows d).any (fun q => overlaps p.1 p.2 q.1 q.2)))

/-- May the cluster engine name these bytes (R223, R278)? -/
def dmaByteOk (c : Ctx) (a n : Nat) : Bool :=
  if a < lpSize then a + n ≤ lpSize
  else match place a, place (a + n - 1) with
  | .um u _, .um v _ => u == v && !(c.unit u).retired
  | .tr u _, .tr v _ =>
    -- rows may cross unit windows; every unit passed must be in service
    !(c.dev.job.running && c.dev.job.kind == 0) && (List.range (v - u + 1)).all (fun i => !(c.unit (u + i)).retired)
  | _, _ => false

/-- Do the bytes lie wholly in, or touch, some unit's seedbed region (R239)? -/
def inSeedbed (c : Ctx) (a n : Nat) : Bool :=
  match place a with
  | .um u _ => within a n (seedbed c u).1 (seedbed c u).2
  | _ => false
def touchesSeedbed (c : Ctx) (a n : Nat) : Bool :=
  match place a with
  | .um u _ => overlaps a n (seedbed c u).1 (seedbed c u).2
  | _ => false

/-- First address of the local side that R223, R239 or R278 refuses. -/
def copyRefused (c : Ctx) (d : Desc) : Option Nat :=
  let src := if cSrcRemote d then [] else cSrcRows d
  let dst := if cDstRemote d then [] else cDstRows d
  let rows := src ++ dst
  match rows.find? (fun p => !dmaByteOk c p.1 p.2) with
  | some p => some p.1
  | none =>
    let seeded := rows.any (fun p => touchesSeedbed c p.1 p.2)
    let pure := (cRemote d).isNone && rows.all (fun p => inSeedbed c p.1 p.2)
    if seeded && !pure then (rows.find? (fun p => touchesSeedbed c p.1 p.2)).map (fun p => p.1) else none

/-- DMA_COPY starts (R222, R223, R455, R650): moves begin with the cluster's next turn. A remote copy without a route ends. -/
def dmaCopyOp (u : Nat) (c : Ctx) : Ctx :=
  match startable c u 2 0x30 with
  | none => c
  | some (i, e) =>
    if !copyOk c e.desc then finish u 2 i 1 0 c
    else
      match copyRefused c e.desc with
      | some a => refuseWindow u 2 e a c
      | none =>
        match cRemote e.desc with
        | some p =>
          if (route c (dieOfUnit u) p c.dev.boot.pkg).isNone then finish u 2 i 0x20 0 c
          else markStarted u 2 i id c
        | none => markStarted u 2 i id c

/-! ### Chunks (R221, R225) -/

/-- A chunk from position `pos`: offset of its row, offset in the row, bytes. -/
def chunkAt (d : Desc) (pos : Nat) : Nat × Nat × Nat :=
  (pos / cRowBytes d, pos % cRowBytes d, min 4096 (cRowBytes d - pos % cRowBytes d))

/-- Destination words or lines that receive a byte of a poisoned source word or line. -/
def carriedBases (c : Ctx) (src dst n : Nat) : List Nat :=
  ((wordsOf src n).filter (isPoisoned c)).flatMap (fun b =>
    let lo := max b src
    let hi := min (b + wordSize b) (src + n)
    wordsOf (dst + (lo - src)) (hi - lo))

/-- Do the bytes touch the window of a retired unit (R58)? -/
def touchesRetired (c : Ctx) (a n : Nat) : Bool :=
  match place a, place (a + n - 1) with
  | .um u _, .um v _ | .tr u _, .tr v _ => (List.range (v - u + 1)).any (fun i => (c.unit (u + i)).retired)
  | _, _ => false

/-- The addresses a chunk reads or writes that the engine may not reach now: R264 or R518 keep them from it, or their unit has been retired
since the copy started (R58). -/
def chunkRefused (c : Ctx) (rd wr : Option Nat) (n : Nat) : Option Nat :=
  match rd with
  | some a => if (a < lpSize && !lpReadable c a n) || touchesRetired c a n then some a else wrOne
  | none => wrOne
where
  /-- the destination's check -/
  wrOne : Option Nat :=
    match wr with
    | some b => if (b < lpSize && !lpWritable c b n) || touchesRetired c b n then some b else none
    | none => none

/-- A local chunk moves, poison with it; a poisoned byte for a tile register ends the copy (R225). -/
def moveLocal (u i src dst n : Nat) (c : Ctx) : Ctx :=
  let c1 := eccRead src n c
  let bases := carriedBases c1 src dst n
  let c2 := store dst (c1.read src n) c1
  let c3 := forAll bases setPoison c2
  let tr := match place dst with | .tr _ _ => true | _ => false
  c3.updEntry u 2 i (fun e =>
    { e with
      pos := e.pos + n
      poison := e.poison || (tr && poisonAt c1 src n)
      carried := e.carried ++ (bases.filter (fun b => !e.carried.contains b)).eraseDups })

/-- Has the entry a chunk to move? -/
def hasChunk (e : Entry) : Bool :=
  e.active && hOpcode e.desc == 0x30 && decide (e.pos < cTotal e.desc) && !e.poison && !e.remoteRefused

/-- One chunk of the copy at the front of unit `u`'s DMA queue. -/
def chunkOf (u : Nat) (e : Entry) (i : Nat) (c : Ctx) : Ctx :=
  let d := e.desc
  let (row, off, n) := chunkAt d e.pos
  let src := cSrc d + row * cSrcStride d + off
  let dst := cDst d + row * cDstStride d + off
  if (!cSrcRemote d && windowHeld c src) || (!cDstRemote d && windowHeld c dst) then c
  else match chunkRefused c (if cSrcRemote d then none else some src) (if cDstRemote d then none else some dst) n with
  | some a => violateCluster (clusterOf u) a c
  | none =>
    match (if cDstRemote d then none else firstProtected c dst n) with
    | some page => cowWait (page * 65536) [] c
    | none =>
      match cRemote d with
      | none => moveLocal u i src dst n c
      | some pkg =>
        match route c (dieOfUnit u) pkg c.dev.boot.pkg with
        | none => c.updEntry u 2 i (fun x => { x with remoteRefused := true })
        | some (port, _) =>
          let ask (a : Ctx) (m : Msg) : Ctx :=
            (a.send m).updEntry u 2 i (fun x =>
              { x with
                await := x.await ++ [(x.pos, n)]
                sentAt := x.sentAt ++ [a.dev.slow]
                via := x.via ++ [port]
                pos := x.pos + n })
          if cSrcRemote d then ask c (.remoteRequest pkg u src n false [] false)
          else
            let c1 := eccRead src n c
            if poisonAt c1 src n then c1.updEntry u 2 i (fun x => { x with poison := true })
            else ask c1 (.remoteRequest pkg u dst n true (c1.read src n) false)

/-- DMA_CHUNK: the cluster engine moves one chunk of the next unit in its round robin that has one (R221). -/
def dmaChunkOp (k : Nat) (c : Ctx) : Ctx :=
  let x := c.cluster k
  if x.frozen then c
  else
    let order := (List.range 8).map (fun j => 8 * k + (x.turn + j) % 8)
    match order.find? (fun u => unitLive c u && (findActive c u 2 0x30 hasChunk).isSome) with
    | none => c
    | some u =>
      match findActive c u 2 0x30 hasChunk with
      | none => c
      | some (i, e) => chunkOf u e i (c.updCluster k (fun y => { y with turn := (u + 1) % 8 }))

/-- Leave the whole local destination of a copy undefined (R226). -/
def copyUndef (d : Desc) (c : Ctx) : Ctx :=
  if cDstRemote d then c else (cDstRows d).foldl (fun a p => a.undef p.1 p.2) c

/-- DMA_COPY_COMPLETE: every byte has moved and every remote answer has come, or the copy ends early (R224–R226). A remote copy that met
both a refusal and poison ends with `DMA_REMOTE_REFUSED`: R650 orders neither before the other (log entry 117). -/
def dmaCopyCompleteOp (u : Nat) (c : Ctx) : Ctx :=
  match findActive c u 2 0x30 (fun e => !hasChunk e && e.await.isEmpty) with
  | none => c
  | some (i, e) =>
    if !queueLive c u 2 then c
    else if e.remoteRefused then finish u 2 i 0x20 0 c
    else if e.poison then finish u 2 i 4 0 (copyUndef e.desc c)
    else if e.carried.isEmpty then finish u 2 i 0 0 c
    else finish u 2 i 6 e.carried.length c

/-! ### Remote answers -/

/-- REMOTE_RESPONSE: the oldest request of unit `u`'s copy is answered (R224): read data lands, poison ends the copy (R225). Nothing lands
where the die or the package is stopped (R503, R602), nor where the engine may not write any more (R58, R264); data for a protected page
waits for it (R267), and an answer for a window that is being zeroed is not taken before (R602). -/
def remoteResponseOp (u : Nat) (refused : Bool) (data : List Byte) (poison : Bool) (c : Ctx) : Ctx :=
  match findActive c u 2 0x30 (fun e => !e.await.isEmpty) with
  | none => c
  | some (i, e) =>
    match e.await with
    | [] => c
    | (pos, n) :: rest =>
      let d := e.desc
      let done (f : Entry → Entry) (a : Ctx) : Ctx :=
        a.updEntry u 2 i (fun x => f { x with await := rest, sentAt := x.sentAt.drop 1, via := x.via.drop 1 })
      if !unitLive c u then c
      else if refused then done (fun x => { x with remoteRefused := true }) c
      else if cSrcRemote d then
        if poison then done (fun x => { x with poison := true }) c
        else if data.length ≠ n then c
        else
          let dst := cDst d + pos / cRowBytes d * cDstStride d + pos % cRowBytes d
          if windowHeld c dst then c
          else match chunkRefused c none (some dst) n with
          | some a => violateCluster (clusterOf u) a (done id c)
          | none =>
            match firstProtected c dst n with
            | some _ => done id (cowWait dst data c)
            | none => done id (store dst data c)
      else done id c

/-- RESP_TIMEOUT: a request has had no answer within LNK_TIMERS0.RESP_TIMEOUT (R455). -/
def respTimeoutOp (u : Nat) (c : Ctx) : Ctx :=
  match findActive c u 2 0x30 (fun e => !e.await.isEmpty) with
  | none => c
  | some (i, e) =>
    if e.sentAt.all (fun t => decide (c.since t < (c.linkCfg (dieOfUnit u)).respTimeout)) then c
    else c.updEntry u 2 i (fun x => { x with await := [], sentAt := [], via := [], remoteRefused := true })

/-! ### Requests of other packages -/

/-- Is the access of a remote package allowed (R245, R264, R518)? -/
def remoteAllowed (c : Ctx) (a n : Nat) (write : Bool) : Bool :=
  a + n ≤ lpSize && !touchesCopies a n && c.dev.job.running && inAreas c (fun x => x.remote && (!write || (x.write && !x.staging))) a n

/-- In a SERVE job a write of one whole cache block is a block held for its sender (R276), unless it belongs to a request granted
to that sender (step 6 of Table 10-9). -/
def isT2Block (c : Ctx) (src n : Nat) (write : Bool) : Bool :=
  write && c.dev.job.running && c.dev.job.kind == 2 && n == c.dev.srv.blockBytes && n != 0 &&
  !c.dev.srv.reqs.any (fun r => r.hand == 6 && r.handPkg == src)

/-- REMOTE_ACCESS_REQUEST: another package reads or writes an area that has the REMOTE attribute (R224, R245, R446, R447, R499). -/
def remoteAccessRequestOp (port src a n : Nat) (write : Bool) (data : List Byte) (poison : Bool) (c : Ctx) : Ctx :=
  let st := (c.port port).state
  let reply (refused : Bool) (d : List Byte) (p : Bool) (x : Ctx) : Ctx := x.send (.remoteResponse src port refused d p)
  if c.dev.safe.safe || (st ≠ 2 && st ≠ 3) || n = 0 then c
  else if refusesFrom c src then reply true [] false c
  else if !remoteAllowed c a n write then reply true [] false (violateRemote (port / 9) src a c)
  else if isT2Block c src n write && c.dev.job.overQuota then reply true [] false c
  else if write then
    match firstProtected c a n with
    | some page => cowWait (page * 65536) [] c
    | none =>
      let c1 := store a data c
      let c2 := if poison then forAll (wordsOf a n) setPoison c1 else c1
      let held := c2.dev.srv.t2Held
      let c3 := if isT2Block c src n write && !held.contains (src, a) then
          { c2 with dev := { c2.dev with srv := { c2.dev.srv with t2Held := held ++ [(src, a)] } } }
        else c2
      reply false [] false (quotaCheck c3)
  else
    let c1 := eccRead a n c
    if poisonAt c1 a n then reply false [] true c1 else reply false (c1.read a n) false c1

/-! ### The commands -/

/-- DMA_COPY (R222, R223). -/
def execDmaCopy (u : Nat) (s : State) : Host.Outcome State Fault Refusal := perform (.dmaCopy u) s (dmaCopyOp u)

/-- DMA_CHUNK (R221). -/
def execDmaChunk (cluster : Nat) (s : State) : Host.Outcome State Fault Refusal := perform (.dmaChunk cluster) s (dmaChunkOp cluster)

/-- DMA_COPY_COMPLETE (R224–R226). -/
def execDmaCopyComplete (u : Nat) (s : State) : Host.Outcome State Fault Refusal :=
  perform (.dmaCopyComplete u) s (dmaCopyCompleteOp u)

/-- DMA_FENCE (R209). -/
def execDmaFence (u : Nat) (s : State) : Host.Outcome State Fault Refusal := perform (.dmaFence u) s (fenceStart 2 0x31 u)

/-- DMA_FENCE_COMPLETE (R209). -/
def execDmaFenceComplete (u : Nat) (s : State) : Host.Outcome State Fault Refusal :=
  perform (.dmaFenceComplete u) s (fenceComplete 2 0x31 u)

/-- REMOTE_ACCESS_REQUEST (R224). -/
def execRemoteAccessRequest (port src addr len : Nat) (write : Bool) (data : List Byte) (poison : Bool) (s : State) :
    Host.Outcome State Fault Refusal :=
  perform (.remoteAccessRequest port src addr len write data poison) s (remoteAccessRequestOp port src addr len write data poison)

/-- REMOTE_RESPONSE (R224). -/
def execRemoteResponse (u : Nat) (refused : Bool) (data : List Byte) (poison : Bool) (s : State) : Host.Outcome State Fault Refusal :=
  perform (.remoteResponse u refused data poison) s (remoteResponseOp u refused data poison)

/-- RESP_TIMEOUT (R455). -/
def execRespTimeout (u : Nat) (s : State) : Host.Outcome State Fault Refusal := perform (.respTimeout u) s (respTimeoutOp u)

end Sys2Proof.Machine
end

