-- ==== Sys2Proof/Machine/Crypto.lean ====
section
/-!
DEFINITION. The digests, checks and signatures the spec takes from other standards: SHA-384 (FIPS 180-4), CRC-32C, and ECDSA on
P-384 with the deterministic nonce (FIPS 186-5, R536).
-/
namespace Sys2Proof.Machine

/-! ### SHA-384 -/

/-- Words of 64 bits packed into one number, the first highest. -/
def unpackWords (n x : Nat) : List Word64 := (List.range n).map (fun i => BitVec.ofNat 64 (x >>> (64 * (n - 1 - i))))

/-- The round constants of FIPS 180-4, eight to a number. -/
def shaK : List Word64 := shaKRows.flatMap (unpackWords 8)
where
  /-- The ten rows. -/
  shaKRows : List Nat :=
    [0x428A2F98D728AE227137449123EF65CDB5C0FBCFEC4D3B2FE9B5DBA58189DBBC3956C25BF348B53859F111F1B605D019923F82A4AF194F9BAB1C5ED5DA6D8118,
     0xD807AA98A303024212835B0145706FBE243185BE4EE4B28C550C7DC3D5FFB4E272BE5D74F27B896F80DEB1FE3B1696B19BDC06A725C71235C19BF174CF692694,
     0xE49B69C19EF14AD2EFBE4786384F25E30FC19DC68B8CD5B5240CA1CC77AC9C652DE92C6F592B02754A7484AA6EA6E4835CB0A9DCBD41FBD476F988DA831153B5,
     0x983E5152EE66DFABA831C66D2DB43210B00327C898FB213FBF597FC7BEEF0EE4C6E00BF33DA88FC2D5A79147930AA72506CA6351E003826F142929670A0E6E70,
     0x27B70A8546D22FFC2E1B21385C26C9264D2C6DFC5AC42AED53380D139D95B3DF650A73548BAF63DE766A0ABB3C77B2A881C2C92E47EDAEE692722C851482353B,
     0xA2BFE8A14CF10364A81A664BBC423001C24B8B70D0F89791C76C51A30654BE30D192E819D6EF5218D69906245565A910F40E35855771202A106AA07032BBD1B8,
     0x19A4C116B8D2D0C81E376C085141AB532748774CDF8EEB9934B0BCB5E19B48A8391C0CB3C5C95A634ED8AA4AE3418ACB5B9CCA4F7763E373682E6FF3D6B2B8A3,
     0x748F82EE5DEFB2FC78A5636F43172F6084C87814A1F0AB728CC702081A6439EC90BEFFFA23631E28A4506CEBDE82BDE9BEF9A3F7B2C67915C67178F2E372532B,
     0xCA273ECEEA26619CD186B8C721C0C207EADA7DD6CDE0EB1EF57D4F7FEE6ED17806F067AA72176FBA0A637DC5A2C898A6113F9804BEF90DAE1B710B35131C471B,
     0x28DB77F523047D8432CAAB7B40C724933C9EBE0A15C9BEBC431D67C49C100D4C4CC5D4BECB3E42B6597F299CFC657E2A5FCB6FAB3AD6FAEC6C44198C4A475817]

/-- The initial hash value of SHA-384. -/
def shaH0 : List Word64 :=
  unpackWords 8 0xCBBB9D5DC1059ED8629A292A367CD5079159015A3070DD17152FECD8F70E593967332667FFC00B318EB44A8768581511DB0C2E0D64F98FA747B5481DBEFA4FA4

/-- Exclusive or of a word turned right by each of the amounts. -/
def spin (l : List Nat) (x : Word64) : Word64 := l.foldl (fun y r => y ^^^ x.rotateRight r) 0

/-- One round over the last four values of each of the two sequences a and e, newest first, `kw` being the round constant plus the word of
the schedule. -/
def shaRound (p : List Word64 × List Word64) (kw : Word64) : List Word64 × List Word64 :=
  let a (i : Nat) := p.1.getD i 0
  let e (i : Nat) := p.2.getD i 0
  let t := kw + e 3 + (e 2 ^^^ (e 0 &&& (e 1 ^^^ e 2))) + spin [14, 18, 41] (e 0)
  ((t + ((a 0 &&& a 1) ||| (a 2 &&& (a 0 ||| a 1))) + spin [28, 34, 39] (a 0)) :: p.1.take 3, (a 3 + t) :: p.2.take 3)

/-- The message schedule, newest word first. -/
def shaSchedule : Nat → List Word64 → List Word64
  | 0, w => w
  | n + 1, w =>
    let x := w.getD 1 0
    let y := w.getD 14 0
    shaSchedule n (((spin [19, 61] x ^^^ (x >>> 6)) + (spin [1, 8] y ^^^ (y >>> 7)) + w.getD 6 0 + w.getD 15 0) :: w)

/-- One 128-byte block. -/
def shaBlock (h : List Word64) (blk : List Byte) : List Word64 :=
  let w := (shaSchedule 64 (unpackWords 16 (ofBytesBE blk)).reverse).reverse
  let p := (List.zipWith (· + ·) w shaK).foldl shaRound (h.take 4, h.drop 4)
  List.zipWith (· + ·) (p.1 ++ p.2) h

/-- All blocks; `n` bounds their number. -/
def shaBlocks : Nat → List Word64 → List Byte → List Word64
  | 0, h, _ => h
  | n + 1, h, m => if m.isEmpty then h else shaBlocks n (shaBlock h (m.take 128)) (m.drop 128)

/-- SHA-384 of a message: 48 bytes. -/
def sha384 (m : List Byte) : List Byte :=
  let n := m.length
  let pad := (240 - (n + 1) % 128) % 128
  let p := m ++ [0x80#8] ++ List.replicate pad 0 ++ toBytesBE 16 (8 * n)
  ((shaBlocks (n / 128 + 2) shaH0 p).take 6).flatMap (fun w => toBytesBE 8 w.toNat)

/-- The digest as a number, most significant byte first. -/
def sha384Nat (m : List Byte) : Nat := ofBytesBE (sha384 m)

/-! ### CRC-32 and CRC-32C -/

/-- Eight steps of a reflected polynomial. -/
def crcByte (poly : Nat) : Nat → Nat → Nat
  | 0, x => x
  | n + 1, x => crcByte poly n (if x % 2 = 1 then (x / 2) ^^^ poly else x / 2)

/-- The CRC of a message under a reflected 32-bit polynomial, all ones before and inverted after. -/
def crcOf (poly : Nat) (m : List Byte) : Nat := (m.foldl (fun x b => crcByte poly 8 (x ^^^ b.toNat)) 0xFFFFFFFF) ^^^ 0xFFFFFFFF

/-- CRC-32C of a message. -/
def crc32c (m : List Byte) : Nat := crcOf 0x82F63B78 m

/-- CRC-32 of IEEE 802.3 (R431). -/
def crc32 (m : List Byte) : Nat := crcOf 0xEDB88320 m

/-! ### P-384 -/

def p384P : Nat := 2 ^ 384 - 2 ^ 128 - 2 ^ 96 + 2 ^ 32 - 1
def p384N : Nat := 0xffffffffffffffffffffffffffffffffffffffffffffffffc7634d81f4372ddf581a0db248b0a77aecec196accc52973
def p384B : Nat := 0xb3312fa7e23ee7e4988e056be3f82d19181d9c6efe8141120314088f5013875ac656398d8a2ed19d2a85c8edd3ec2aef
def p384Gx : Nat := 0xaa87ca22be8b05378eb1c71ef320ad746e1d3b628ba79b9859f741e082542a385502f25dbf55296c3a545e3872760ab7
def p384Gy : Nat := 0x3617de4a96262c6f5d9e98bf9292dc29f8f41dbd289a147ce9da3113b5f0b8c00a60b1ce1d7e819d7a431d7c90ea0e5f

/-- Inverse modulo a prime. -/
def invMod (x p : Nat) : Nat := powModHi (x % p) (p - 2) p
where
  /-- square and multiply from the highest bit -/
  powModHi (b e m : Nat) : Nat :=
    (List.range 384).reverse.foldl (fun acc i => let q := acc * acc % m; if e.testBit i then q * b % m else q) 1

/-- A point of the curve; none is the point at infinity. -/
abbrev Point := Option (Nat × Nat)

/-- Addition of points. -/
def pointAdd : Point → Point → Point
  | none, q => q
  | p, none => p
  | some (x1, y1), some (x2, y2) =>
    let p := p384P
    if x1 = x2 then
      if (y1 + y2) % p = 0 then none
      else
        let l := (3 * x1 * x1 + (p - 3)) % p * invMod (2 * y1) p % p
        let x3 := (l * l + 2 * (p - x1)) % p
        some (x3, (l * (x1 + p - x3) + (p - y1)) % p)
    else
      let l := (y2 + p - y1) % p * invMod (x2 + p - x1) p % p
      let x3 := (l * l + (p - x1) + (p - x2)) % p
      some (x3, (l * (x1 + p - x3) + (p - y1)) % p)

/-- Multiple of a point. -/
def pointMul (k : Nat) (q : Point) : Point :=
  (List.range 384).reverse.foldl (fun acc i => let d := pointAdd acc acc; if k.testBit i then pointAdd d q else d) none

/-- The generator. -/
def p384G : Point := some (p384Gx, p384Gy)

/-- Is (x, y) a point of the curve? -/
def onCurve (x y : Nat) : Bool :=
  decide (x < p384P) && decide (y < p384P) && (y * y) % p384P == (x * x * x + (p384P - 3) * x + p384B) % p384P

/-- ECDSA verification of (r, s) over a digest under (x, y). -/
def ecdsaVerify (x y h r s : Nat) : Bool :=
  let n := p384N
  if r = 0 || s = 0 || n ≤ r || n ≤ s || !onCurve x y then false
  else
    let w := invMod s n
    match pointAdd (pointMul (h * w % n) p384G) (pointMul (r * w % n) (some (x, y))) with
    | none => false
    | some (px, _) => px % n == r

/-- HMAC with SHA-384. -/
def hmac384 (key msg : List Byte) : List Byte :=
  let k := key ++ List.replicate (128 - key.length) 0
  sha384 (k.map (· ^^^ 0x5C#8) ++ sha384 (k.map (· ^^^ 0x36#8) ++ msg))

/-- The deterministic nonce for key `d` and digest `h`: candidates in turn until one lies in 1 to n − 1. -/
def detNonce (d h : Nat) : Nat :=
  let x := toBytesBE 48 d ++ toBytesBE 48 (h % p384N)
  let v0 := List.replicate 48 1#8
  let k1 := hmac384 (List.replicate 48 0#8) (v0 ++ [0#8] ++ x)
  let v1 := hmac384 k1 v0
  let k2 := hmac384 k1 (v1 ++ [1#8] ++ x)
  let v2 := hmac384 k2 v1
  go 8 k2 v2
where
  /-- try a candidate, at most `fuel` times -/
  go : Nat → List Byte → List Byte → Nat
    | 0, _, _ => 0
    | fuel + 1, k, v =>
      let v1 := hmac384 k v
      let c := ofBytesBE v1
      if 1 ≤ c && c < p384N then c
      else
        let k1 := hmac384 k (v1 ++ [0#8])
        go fuel k1 (hmac384 k1 v1)

/-- Deterministic ECDSA signature of a digest. -/
def ecdsaSign (d h : Nat) : Nat × Nat :=
  let k := detNonce d h
  match pointMul k p384G with
  | none => (0, 0)
  | some (x, _) =>
    let r := x % p384N
    (r, invMod k p384N * ((h + r * d) % p384N) % p384N)

/-- Public key of a private key. -/
def publicKey (d : Nat) : Nat × Nat := (pointMul d p384G).getD (0, 0)

/-- Key digest of a public key (R536). -/
def keyDigest (x y : Nat) : Nat := sha384Nat (toBytesBE 48 x ++ toBytesBE 48 y)

end Sys2Proof.Machine
end

