-- ==== Sys2Proof/Machine/Steps.lean ====
section
/-!
DEFINITION. The step counter of a job and what its rise brings about (R20, R409, R410, R412).
-/
namespace Sys2Proof.Machine

/-- The largest step count. -/
def stepTop : Nat := 2 ^ 48 - 1

/-- The step counter rises by one (R409): it sticks at its top and ends the job with `STEP_LIMIT`; at a non-zero MAX_STEPS the job
ends with `JOB_DONE` (R410). -/
def stepRise (c : Ctx) : Ctx :=
  let j := c.dev.job
  if stepTop ≤ j.step then endCause 3 (c.updJob (fun x => { x with stepSticky := true, stepAt := c.dev.slow }))
  else
    let c1 := c.updJob (fun x => { x with step := j.step + 1, stepAt := c.dev.slow, flown := 0 })
    if j.maxSteps ≠ 0 && j.step + 1 = j.maxSteps then endCause 0 c1 else c1

/-- The worst-case check at the end of a step of a job other than SERVE: OVERRUN and a NOTE event (R412). The next step is counted
from here. -/
def stepCheck (c : Ctx) : Ctx :=
  let j := c.dev.job
  let c1 := c.updJob (fun x => { x with stepStart := c.dev.slow })
  if j.stepWcet ≠ 0 && decide (j.stepWcet < c.since j.stepStart) then
    mgmtEvent 0 34 (c1.updJob (fun x => { x with overrun := true }))
  else c1

end Sys2Proof.Machine
end

