-- ==== Sys2Proof/Machine/Sheaves.lean ====
section
/-!
DEFINITION. Members, resilience messages and sheaves as shared operations (chapter 13): who is a member and who coordinates, what a
DONE, a PLAN and a NOTICE do, and the end of a sheaf.
-/
namespace Sys2Proof.Machine

def Ctx.res (c : Ctx) : ResSt := c.dev.res
def Ctx.updRes (c : Ctx) (f : ResSt → ResSt) : Ctx := { c with dev := { c.dev with res := f c.dev.res } }

/-! ### Members (R461, R472) -/

/-- This package's tray and slot (R15, R64). -/
def ownTray (c : Ctx) : Nat := c.dev.boot.pkg / 8
def ownSlot (c : Ctx) : Nat := c.dev.boot.pkg % 8

/-- Insert a number in rising order, once. -/
def insNat (x : Nat) : List Nat → List Nat
  | [] => [x]
  | y :: t => if x < y then x :: y :: t else if x = y then y :: t else y :: insNat x t

/-- Member trays, rising: those of the rosters, or the own tray, less the removed ones. -/
def memberTrays (c : Ctx) : List Nat :=
  let l := (c.res.roster2 ++ c.res.roster3).foldl (fun a t => insNat t a) []
  (if l.isEmpty then [ownTray c] else l).filter (fun t => !c.res.removed.contains t)

/-- Is a package a member? -/
def isMember (c : Ctx) (pkg : Nat) : Bool := (memberTrays c).contains (pkg / 8)
/-- The coordinator's package ID. -/
def coordinator (c : Ctx) : Nat := 8 * (memberTrays c).headD (ownTray c)
/-- Slot 0 of the three lowest-numbered member trays. -/
def noticeTakers (c : Ctx) : List Nat := ((memberTrays c).take 3).map (fun t => 8 * t)

/-! ### Messages (Table 13-4) -/

/-- A message with nothing but its header. -/
def resMsg (c : Ctx) : ResMsg :=
  { epoch := c.dev.epoch, sender := c.dev.boot.pkg, step := 0, seq := 0, cost := 0, result := 0, count := 0, subject := 0, cause := 0,
    newEpoch := 0, removed := [], digest := 0 }

/-- The 64 bytes of a message (Table 13-4). The tray numbers of a REFORM, for which the table has no field, follow COUNT, 16 bits each, as far
as they fit (log entry 125). -/
def resBytes (type : Nat) (m : ResMsg) : List Byte :=
  let body : List Byte := match type with
    | 1 => toBytes 6 m.step ++ toBytes 2 0 ++ toBytes 4 m.seq
    | 2 => toBytes 6 m.step ++ toBytes 2 0 ++ toBytes 4 m.seq ++ toBytes 2 m.cost ++ toBytes 1 m.result ++ toBytes 1 0 ++ toBytes 4 m.count
    | 3 => toBytes 8 0 ++ toBytes 4 m.subject ++ toBytes 1 m.cause
    | 4 => toBytes 6 m.step ++ toBytes 2 0 ++ toBytes 4 m.newEpoch ++ toBytes 4 m.count ++ m.removed.flatMap (toBytes 2)
    | 6 => toBytes 8 0 ++ toBytes 4 m.subject
    | 7 | 8 => toBytesBE 48 m.digest
    | _ => []
  let head := toBytes 4 type ++ toBytes 4 m.epoch ++ toBytes 4 m.sender ++ toBytes 4 0
  (head ++ body ++ List.replicate 48 0).take 64

/-- Send a message to a package: it leaves on VC0 by the routing of die 0, whose job controller sends it (R452, R468). -/
def sendRes (pkg type : Nat) (m : ResMsg) (c : Ctx) : Ctx := sendFlit 0 0 pkg (resBytes type m) (c.send (.resilience pkg type m))

/-- Slot 0 of a tray passes a message to the other seven slots (R468). -/
def passOn (type : Nat) (m : ResMsg) (c : Ctx) : Ctx :=
  if ownSlot c ≠ 0 then c
  else (List.range 7).foldl (fun a i => sendRes (8 * ownTray c + i + 1) type m a) c

/-- The coordinator sends a message to slot 0 of every other member tray; the own package takes it directly. -/
def sendTrays (type : Nat) (m : ResMsg) (trays : List Nat) (c : Ctx) : Ctx :=
  (trays.filter (fun t => t != ownTray c)).foldl (fun a t => sendRes (8 * t) type m a) c

/-- SEQ of a PLAN before any sheaf has been committed (log entry 61). -/
def noSeq : Nat := 0xFFFFFFFF

/-! ### Sheaf slots (R460, R465) -/

/-- Base of a home or ward slot. -/
def homeSlot (c : Ctx) (i : Nat) : Nat := c.res.homeBase + i * c.res.slotPages * 65536
def wardSlot (c : Ctx) (i : Nat) : Nat := c.res.wardBase + i * c.res.slotPages * 65536
/-- Offset of page record `i` in a slot, behind the manifest (log entry 60). -/
def recordOff (i : Nat) : Nat := 16384 + i * 65544
/-- Bytes of a sheaf with `n` pages. -/
def sheafBytes (n : Nat) : Nat := recordOff n

/-- Mark a home slot. -/
def setHome (i : Nat) (x : SlotSt) (c : Ctx) : Ctx :=
  c.updRes (fun r => { r with home := (List.range 2).map (fun k => if k = i then x else r.home.getD k {}) })
def setWard (i : Nat) (x : SlotSt) (c : Ctx) : Ctx :=
  c.updRes (fun r => { r with wards := (List.range 2).map (fun k => if k = i then x else r.wards.getD k {}) })

/-- Bytes of a sheaf land in a slot, the first `hdr` of them before the page, the lines of the page named in `poison` poisoned: every line of
the slot that takes bytes of one is (R258, R432). -/
def landPage (a hdr : Nat) (bytes : List Byte) (poison : List Nat) (c : Ctx) : Ctx :=
  forAll (poison.flatMap (fun l => wordsOf (a + hdr + 128 * l) 128)) setPoison (store a bytes c)

/-- The poisoned lines of a page at `a`. -/
def poisonLines (c : Ctx) (a : Nat) : List Nat := (List.range 512).filter (fun l => poisonAt c (a + 128 * l) 128)

/-! ### Planning (R469–R471) -/

/-- The interval R470 chooses. -/
def planTau (c : Ctx) (cMax now : Nat) : Nat :=
  let r := c.res
  let n := min 16 (r.notices.filter (fun s => now ≤ s + 2 ^ r.kLog2)).length
  if n = 0 then r.tauMax
  else
    let m := 2 ^ r.kLog2 / n
    min r.tauMax (max r.tauMin (isqrt (2 * cMax * m)))

/-- The home slot that satisfies `p` becomes the committed one, and the digest last taken as a witness that of the committed sheaf (R469). -/
def commitWhere (p : SlotSt → Bool) (c : Ctx) : Ctx :=
  match (List.range 2).find? (fun i => (c.res.home.getD i {}).valid && p (c.res.home.getD i {})) with
  | some i =>
    c.updRes (fun r =>
      let h := r.home.getD i {}
      if r.valid && r.seq == h.seq then r
      else { r with valid := true, seq := h.seq, committedSlot := i, committedStep := h.step, witnessGood := r.witnessDigests.head? })
  | none => c

/-- A package takes a PLAN's commitment: the home slot that holds SEQ is the committed one (R469). -/
def commitSeq (seq : Nat) (c : Ctx) : Ctx := if seq = noSeq then c else commitWhere (fun h => h.seq == seq) c

/-- A package takes a REFORM's commitment: the sheaf with its STEP (R473, R482). -/
def commitStep (step : Nat) (c : Ctx) : Ctx := commitWhere (fun h => h.step == step) c

/-- The next sheaf point is S. -/
def setPlan (s : Nat) (c : Ctx) : Ctx :=
  c.updRes (fun r => { r with planned := some s, tau := (s - r.lastPoint) % 65536, lastPoint := s })

/-- Report a sheaf: a DONE for this package. -/
def doneMsg (c : Ctx) (step seq cost result : Nat) : ResMsg :=
  { resMsg c with step := step, seq := seq, cost := cost, result := result, count := 1 }

/-- Senders of a list of messages, and those of a sheaf. -/
def ofSeq (seq : Nat) (l : List ResMsg) : List ResMsg := l.filter (fun m => m.seq == seq)

/-- The combined DONE of a tray: C as the maximum, COUNT as the sum, `SHEAF_DONE` only when all say so (R468). -/
def doneCombine (c : Ctx) (l : List ResMsg) : ResMsg :=
  let m := l.headD (resMsg c)
  { doneMsg c m.step m.seq ((l.map (fun x => x.cost)).foldl max 0) (((l.map (fun x => x.result)).filter (fun x => x != 0)).headD 0) with
    count := (l.map (fun x => x.count)).sum }

/-- PLAN as a package takes it: passed on by slot 0, SEQ committed, S planned or reported missed (R468, R469, R471). -/
def planTakeWith (report : ResMsg → Ctx → Ctx) (m : ResMsg) (c : Ctx) : Ctx :=
  let c0 := commitSeq m.seq (passOn 1 m c)
  -- a package that has joined counts its sheaves on from the one last committed (R482)
  let c1 := if m.seq = noSeq then c0 else c0.updRes (fun r => { r with nextSeq := max r.nextSeq (m.seq + 1) })
  let ahead := (List.range 4).any (fun d => decide (m.step < (Tab.get {} c1.dev.furrows d).commits))
  if m.step < c1.dev.job.step || ahead then
    let seq := c1.res.nextSeq
    report (doneMsg c1 m.step seq 1 1)
      (c1.updRes (fun r => { r with nextSeq := seq + 1, lastResult := 1, planned := none, lastPoint := m.step }))
  else setPlan m.step c1

/-- The coordinator plans the next sheaf (R470), with the SEQ last committed. -/
def planNextWith (report : ResMsg → Ctx → Ctx) (cMax last seq : Nat) (c : Ctx) : Ctx :=
  let now := c.dev.job.step
  let s := max (last + planTau c cMax now) (now + c.res.planLead)
  let m := { resMsg c with step := s, seq := seq }
  planTakeWith report m (sendTrays 1 m (memberTrays c) c)

/-- Trays whose eight packages have all sent JOIN (R481, R482). -/
def joinedTrays (c : Ctx) : List Nat :=
  (c.res.joins.foldl (fun a p => insNat (p / 8) a) []).filter (fun t => (List.range 8).all (fun i => c.res.joins.contains (8 * t + i)))

/-- Advance the membership epoch (R411): at its top it sticks and the job ends with `EPOCH_LIMIT`. The second result: it advanced. -/
def epochAdvance (c : Ctx) : Ctx × Bool :=
  if 0xFFFFFFFF ≤ c.dev.epoch then (endCause 4 { c with dev := { c.dev with epochStuck := true } }, false)
  else (sendCaps { c with dev := { c.dev with epoch := c.dev.epoch + 1 } }, true)

/-- The coordinator sends REFORM, at the next epoch, to slot 0 of every tray concerned, its own among them: its own package takes it
as its next REFORM (R473, log entry 63). -/
def sendReform (removed : List Nat) (trays : List Nat) (c : Ctx) : Ctx :=
  let (c1, ok) := epochAdvance c
  if !ok then c1
  else
    let m := { resMsg c1 with step := c1.res.committedStep, newEpoch := c1.dev.epoch, removed := removed, count := removed.length }
    let c2 := trays.foldl (fun a t => if t = ownTray c1 then a.send (.resilience (8 * t) 4 m) else sendRes (8 * t) 4 m a) c1
    c2.updRes (fun r => { r with awaiting := r.awaiting ++ (trays.filter (fun t => !removed.contains t && t != ownTray c2)).map (fun t => (8 * t, c2.dev.slow)) })

/-- The coordinator takes a tray's DONE: once every member is covered the sheaf is committed if all say `SHEAF_DONE`, a returning
tray is admitted at a committed sheaf (R482), and the next sheaf is planned (R469, R470). -/
def coordTakeWith (report : ResMsg → Ctx → Ctx) (m : ResMsg) (c : Ctx) : Ctx :=
  let l := ofSeq m.seq (c.res.coordDones.filter (fun x => x.sender != m.sender || x.seq != m.seq)) ++ [m]
  if (l.map (fun x => x.count)).sum < 8 * (memberTrays c).length then
    c.updRes (fun r => { r with coordDones := r.coordDones.filter (fun x => x.sender != m.sender || x.seq != m.seq) ++ [m] })
  else
    let c1 := c.updRes (fun r => { r with coordDones := r.coordDones.filter (fun x => decide (m.seq < x.seq)) })
    let good := l.all (fun x => x.result == 0)
    let seq := if good then m.seq else if c1.res.valid then c1.res.seq else noSeq
    let cMax := (l.map (fun x => x.cost)).foldl max 0
    let back := joinedTrays c1
    if good && !back.isEmpty then
      sendReform (c1.res.removed.filter (fun t => !back.contains t)) (memberTrays c1 ++ back)
        ((commitSeq seq c1).updRes (fun r => { r with joins := r.joins.filter (fun p => !back.contains (p / 8)) }))
    else planNextWith report cMax m.step seq c1

/-- DONE (R468): slot 0 gathers its tray's, the coordinator the trays'. `fuel` bounds a plan that is missed at once. -/
def doneTake : Nat → ResMsg → Ctx → Ctx
  | 0, _, c => c
  | fuel + 1, m, c =>
    let report (x : ResMsg) (a : Ctx) : Ctx :=
      if ownSlot a = 0 then doneTake fuel x a else sendRes (8 * ownTray a) 2 x a
    let toCoord (x : ResMsg) (a : Ctx) : Ctx :=
      if coordinator a = a.dev.boot.pkg then coordTakeWith report x a else sendRes (coordinator a) 2 x a
    if m.sender / 8 ≠ ownTray c then toCoord m c
    else
      let l := ofSeq m.seq (c.res.trayDones.filter (fun x => x.sender != m.sender || x.seq != m.seq)) ++ [m]
      if l.length < 8 then
        c.updRes (fun r => { r with trayDones := r.trayDones.filter (fun x => x.sender != m.sender || x.seq != m.seq) ++ [m] })
      else
        let c1 := c.updRes (fun r => { r with trayDones := r.trayDones.filter (fun x => decide (m.seq < x.seq)) })
        toCoord (doneCombine c1 l) c1

/-! ### Routing without removed trays (Table 13-6) -/

/-- Does a candidate's port lead to a removed tray: its partner, expected or, where any is accepted, reported, lies there (Table 12-7)? -/
def leadsAway (c : Ctx) (trays : List Nat) (p : Nat) : Bool :=
  let x := c.port p
  if x.expPkg = 0x3FFFF then x.partner.seen && trays.contains (x.partner.pkg / 8) else trays.contains (x.expPkg / 8)

/-- An entry with its candidates towards removed trays made invalid: routing weight 0. -/
def entryLess (c : Ctx) (trays : List Nat) (e : Nat) : Nat :=
  (List.range 4).foldl (fun x i =>
    let (v, _, p) := candidate x i
    if v && p < 36 && leadsAway c trays p then x - 2 ^ (8 * i + 7) else x) e

/-- Rewrite die `d`'s tables from `src`, less the removed trays. -/
def rerouteDie (trays : List Nat) (src : Nat → Nat → Nat) (d : Nat) (c : Ctx) : Ctx :=
  let l := (List.range 392).map (fun i =>
    let gone : Bool := decide (8 ≤ i) && decide (i < 264) && trays.contains (256 * (ownTray c / 256) + (i - 8))
    (i, if gone then 0 else entryLess c trays (src d i)))
  let cfg := c.linkCfg d
  { c with dev := { c.dev with linkCfg := Tab.set c.dev.linkCfg d { cfg with routes := l.filter (fun p => p.2 != 0) } } }

/-! ### Abandoning and completing a sheaf (R271, R465–R467) -/

/-- Report this package's sheaf. -/
def reportDone (m : ResMsg) (c : Ctx) : Ctx :=
  if ownSlot c = 0 then doneTake 3 m c else sendRes (8 * ownTray c) 2 m c

/-- Cost of the sheaf in progress (R470), in the 16 bits that C has (Table 13-4; a larger one stays at the top, log entry 125). -/
def sheafCost (c : Ctx) (r : SheafRun) : Nat := min 0xFFFF (max 1 (c.dev.job.step - r.startStep))

/-- Abandon the sheaf in progress, its home slot left invalid, and report it. -/
def abandonSheaf (c : Ctx) : Ctx :=
  match c.res.run with
  | none => c
  | some r =>
    let c1 := (setHome r.slot {} (cowAbandon c)).updRes (fun x =>
      { x with run := none, state := 0, lastResult := 2, awaiting := x.awaiting.filter (fun p => p.1 != x.witness) })
    reportDone (doneMsg c1 r.step r.seq (sheafCost c r) 2) c1

/-! ### Notices (R472–R474) -/

/-- A taker of notices takes one: its step is remembered, its tray named, a sheaf in progress abandoned. -/
def noticeTake (tray : Nat) (c : Ctx) : Ctx :=
  if !c.res.present || !(memberTrays c).contains tray then c
  else
    let c1 := c.updRes (fun r =>
      { r with
        notices := (c.dev.job.step :: r.notices).take 16
        namedAt := if r.named.isEmpty then c.dev.slow else r.namedAt
        named := if r.named.contains tray then r.named else r.named ++ [tray] })
    abandonSheaf c1

/-- Send a NOTICE naming a tray to slot 0 of the three lowest-numbered member trays (R472). Only a package in a job with members
sends one. -/
def sendNotice (tray cause : Nat) (c : Ctx) : Ctx :=
  if !c.dev.job.running || !c.res.present || !(memberTrays c).contains tray then c
  else
    let m := { resMsg c with subject := tray, cause := cause }
    let c1 := ((noticeTakers c).filter (fun p => p != c.dev.boot.pkg)).foldl (fun a p => sendRes p 3 m a) c
    let c2 := c1.updRes (fun r => { r with noticeAt := some (r.noticeAt.getD c.dev.slow) })
    if (noticeTakers c).contains c.dev.boot.pkg then noticeTake tray c2 else c2

end Sys2Proof.Machine
end

