-- ==== Sys2Proof/Machine/Furrow.lean ====
section
/-!
DEFINITION. The furrow engines (chapter 9): descriptors and their triggers, headers, headland adders over the ring levels, the
summary exchange, the step verdict, and the ways a channel stops.
-/
namespace Sys2Proof.Machine

/-! ### Descriptor fields (Table 09-3) -/
def uGrad (D : Desc) : Bool := fld D 1 2 1 == 1
def uCondEn (D : Desc) : Bool := fld D 1 3 1 == 1
def uUpdateExp (D : Desc) : Bool := fld D 1 4 1 == 1
def uWaitEvt (D : Desc) : Nat := fld D 4 0 4
def uSigEvt (D : Desc) : Nat := fld D 4 4 4
def uKind (D : Desc) : Nat := fld D 5 0 2
def uOp (D : Desc) : Nat := fld D 5 2 2
def uMaskKind (D : Desc) : Nat := fld D 5 4 2
def uFormat (D : Desc) : Nat := fld D 6 0 4
def uMargin (D : Desc) : Nat := fld D 6 4 3
def uGroup (D : Desc) : Nat := fld D 7 0 6
def uSrc (D : Desc) : Nat := fld D 8 0 48
def uRowBlocks (D : Desc) : Nat := fld D 14 0 16
def uDst (D : Desc) : Nat := fld D 16 0 48
def uUnit (D : Desc) : Nat := fld D 22 0 7
def uElements (D : Desc) : Nat := fld D 24 0 32
def uCount (D : Desc) : Nat := fld D 28 0 32
def uAux (D : Desc) : Nat := fld D 32 0 48
def uCondValue (D : Desc) : Nat := fld D 38 0 8
def uMask (D : Desc) : Nat := fld D 40 0 48
def uWaitValue (D : Desc) : Nat := fld D 48 0 32
def uWaitInc (D : Desc) : Nat := fld D 52 0 32
def uCplOff (D : Desc) : Nat := fld D 56 0 26
def uCondOff (D : Desc) : Nat := fld D 60 0 26
/-- FUR_SCALE. -/
def uScale (D : Desc) : Bool := hOpcode D == 0x41
/-- Package unit named by NOTIFY_UNIT of a die's descriptor. -/
def notifyUnit (d : Nat) (D : Desc) : Nat := 128 * d + uUnit D

/-- The combination of Table 09-6. -/
def comboOk (D : Desc) : Bool :=
  match uFormat D with
  | 0 | 7 => uKind D ≤ 2
  | 1 | 6 => uKind D == 2
  | 8 => uKind D ≤ 1 && uOp D == 0
  | 9 => uKind D == 0 && uOp D == 0
  | _ => false

/-- The fields of a FUR_REDUCE or FUR_SCALE obey R339, its group and lists apart. -/
def reduceOk (D : Desc) : Bool :=
  (hOpcode D == 0x40 || hOpcode D == 0x41) && fld D 1 5 3 == 0 && fld D 5 6 2 == 0 && fld D 6 7 1 == 0 && fld D 7 6 2 == 0 &&
  fld D 22 7 1 == 0 && zeroBytes D 23 23 && zeroBytes D 39 39 && zeroBytes D 46 47 && fld D 56 26 6 == 0 && fld D 60 26 6 == 0 &&
  uKind D != 3 && uOp D != 3 && uMaskKind D != 3 && [0, 1, 6, 7, 8, 9].contains (uFormat D) && uElements D != 0 && (uMaskKind D == 0 || uRowBlocks D != 0) && uCplOff D % 64 == 0 &&
  (!uGrad D || uFormat D == 0 || uFormat D == 9) && (uMaskKind D == 0 || (uFormat D == 0 && uKind D != 2)) &&
  (!uUpdateExp D || (!uScale D && uFormat D == 8 && uKind D == 1)) && (uScale D || comboOk D)

/-- The fields of a FUR_COMMIT (R336). -/
def commitOk (D : Desc) : Bool :=
  fld D 1 2 6 == 0 && fld D 5 0 8 == 0 && zeroBytes D 6 21 && fld D 22 7 1 == 0 && zeroBytes D 23 47 && fld D 56 26 6 == 0 &&
  fld D 60 26 6 == 0 && uCplOff D % 64 == 0

/-! ### Groups and shards (R328–R332) -/

/-- The place of a die in a reduction: its die number, N_1 to N_3, POS_1 to POS_3, PREV_1 to PREV_3, and the elements. -/
structure FurGeo where
  d : Nat
  n : List Nat
  a : List Nat
  prev : List Nat
  total : Nat
  deriving DecidableEq, Repr

/-- Members at a level, and this die's position there. -/
def FurGeo.cnt (g : FurGeo) (l : Nat) : Nat := if l = 0 then 4 else g.n.getD (l - 1) 1
def FurGeo.pos (g : FurGeo) (l : Nat) : Nat := if l = 0 then g.d else g.a.getD (l - 1) 0
/-- N_1 · N_2 · N_3, and S (R330). -/
def FurGeo.inner (g : FurGeo) : Nat := g.cnt 1 * g.cnt 2 * g.cnt 3
def FurGeo.piece (g : FurGeo) : Nat := 32 * ((g.total + 32 * (4 * g.inner) - 1) / (32 * (4 * g.inner)))
/-- Position of owner `o` at a level. -/
def FurGeo.ownerPos (g : FurGeo) (o l : Nat) : Nat :=
  match l with
  | 0 => o / g.inner
  | 1 => o / (g.cnt 2 * g.cnt 3) % g.cnt 1
  | 2 => o / g.cnt 3 % g.cnt 2
  | _ => o % g.cnt 3
/-- This die as an owner. -/
def FurGeo.own (g : FurGeo) : Nat := ((g.d * g.cnt 1 + g.pos 1) * g.cnt 2 + g.pos 2) * g.cnt 3 + g.pos 3
/-- Elements of owner `o`: first, and end. -/
def FurGeo.lo (g : FurGeo) (o : Nat) : Nat := min (o * g.piece) g.total
def FurGeo.hi (g : FurGeo) (o : Nat) : Nat := min ((o + 1) * g.piece) g.total
/-- Owner of an element. -/
def FurGeo.ownerOf (g : FurGeo) (e : Nat) : Nat := e / g.piece
/-- Elements of die-part `d`. -/
def FurGeo.partLo (g : FurGeo) : Nat := min (g.d * g.inner * g.piece) g.total
def FurGeo.partHi (g : FurGeo) : Nat := min ((g.d + 1) * g.inner * g.piece) g.total

/-- Is the group usable: loaded, VALID, no level with N = 0, none of its levels out of range (R328, Table 09-1)? -/
def groupOk (c : Ctx) (d i : Nat) : Bool :=
  let e := groupEntry c d i
  i < (c.fur d).groups && bit (c.readNat e 1) 0 && !poisonAt c e 64 &&
  [(1, 8), (2, 256), (3, 256)].all (fun p =>
    let (n, a) := entryLevel? c e p.1
    c.readNat (e + 16 * p.1) 2 != 0 && n ≤ p.2 && a < n)

/-- Tensor length of a reduction: blocks for FUR_SCALE (R347). -/
def uTotal (D : Desc) : Nat := if uScale D then (uElements D + 31) / 32 else uElements D

/-- The geometry of a descriptor on a die. -/
def geoOf (c : Ctx) (d : Nat) (D : Desc) : FurGeo :=
  let e := groupEntry c d (uGroup D)
  { d := d
    n := [1, 2, 3].map (fun l => (entryLevel? c e l).1)
    a := [1, 2, 3].map (fun l => (entryLevel? c e l).2)
    prev := [1, 2, 3].map (fun l => c.readNat (e + 16 * l + 8) 4 % 2 ^ 18)
    total := uTotal D }

/-- Does die `d`'s hop at some level of the group use a port disabled while the job runs (Table 11-5)? -/
def portGone (c : Ctx) (d i : Nat) : Bool :=
  let e := groupEntry c d i
  [1, 2, 3].any (fun l => (entryLevel? c e l).1 != 1 &&
    [12, 14].any (fun o => isDisabled c (.linkPort (entryPort c e d l o))))

/-- Elements that one HEADLAND_ADD takes: a word (R333), for SPARSE the whole list of an owner's pairs, its words of 16 pairs one after
another (log entry 50). -/
def wordStep (D : Desc) (g : FurGeo) : Nat :=
  if uScale D then 32
  else match uFormat D with | 8 => 64 | 1 => 64 | 6 => 64 | 9 => max 1 g.piece | _ => 32

/-- Mask bit of an element (R345). -/
def elemKept (c : Ctx) (D : Desc) (e : Nat) : Bool :=
  if uMaskKind D = 0 then true
  else
    let rl := 128 * uRowBlocks D
    let m := e / rl
    let b := if uMaskKind D = 1 then m else m / 128 * uRowBlocks D + e % rl / 128
    (c.byte (uMask D + b / 8)).toNat.testBit (b % 8)

/-- First elements of owner `o`'s words, masked ones left out. -/
def wordsOfOwner (c : Ctx) (D : Desc) (g : FurGeo) (o : Nat) : List Nat :=
  let s := wordStep D g
  let n := (g.hi o - g.lo o + s - 1) / s
  ((List.range n).map (fun i => g.lo o + s * i)).filter (fun e => uScale D || elemKept c D e)
/-- Elements of the word that begins at `first`. -/
def wordLen (D : Desc) (g : FurGeo) (first : Nat) : Nat := min (wordStep D g) (g.hi (g.ownerOf first) - first)

/-- Owners whose level positions below `l` (from `lo`) are this die's own and whose position at `l` satisfies `p`. -/
def ownersAt (g : FurGeo) (lo l : Nat) (p : Nat → Bool) : List Nat :=
  (List.range (4 * g.inner)).filter (fun o =>
    ((List.range l).filter (fun j => lo ≤ j)).all (fun j => g.ownerPos o j == g.pos j) && p (g.ownerPos o l))

/-- Words this die takes in the reduce phase at a level: it is not the first in the order of addition (R332). -/
def reduceWords (c : Ctx) (D : Desc) (g : FurGeo) (l : Nat) : List Nat :=
  if g.cnt l ≤ 1 then []
  else (ownersAt g 0 l (fun b => g.pos l != (b + 1) % g.cnt l)).flatMap (wordsOfOwner c D g)
/-- Words this die takes in the gather phase at a level. -/
def gatherWords (c : Ctx) (D : Desc) (g : FurGeo) (l : Nat) : List Nat :=
  if g.cnt l ≤ 1 || l = 0 then []
  else (ownersAt g 0 l (fun b => g.pos l != b)).flatMap (wordsOfOwner c D g)

/-- Does the reduction sum, and does it gather? -/
def sums? (D : Desc) : Bool := uScale D || uKind D != 2
def gathers? (D : Desc) : Bool := uScale D || uKind D != 0

/-- Every word this die takes, as (level, gather, first). -/
def expected (c : Ctx) (D : Desc) (g : FurGeo) : List (Nat × Bool × Nat) :=
  (if sums? D then [0, 1, 2, 3].flatMap (fun l => (reduceWords c D g l).map (fun e => (l, false, e))) else []) ++
  (if gathers? D then [1, 2, 3].flatMap (fun l => (gatherWords c D g l).map (fun e => (l, true, e))) else [])

/-! ### Contributions (R334, R344–R347, R360, R361) -/

/-- The segment list: (ELEM_OFF, LEN, ADDR). -/
def segments (c : Ctx) (D : Desc) : List (Nat × Nat × Nat) :=
  (List.range (uCount D)).map (fun i =>
    let a := uSrc D + 16 * i
    (c.readNat a 4, c.readNat (a + 4) 4, c.readNat (a + 8) 6))
/-- Source address of an element; none where the die has no source. -/
def sourceOf (l : List (Nat × Nat × Nat)) (e : Nat) : Option Nat :=
  match l.find? (fun s => s.1 ≤ e && e < s.1 + s.2.1) with
  | some s => some (s.2.2 + 4 * (e - s.1))
  | none => none
/-- The pairs of a SPARSE list. -/
def pairsOf (c : Ctx) (D : Desc) : List (Nat × Nat) :=
  (List.range (uCount D)).map (fun i => (c.readNat (uSrc D + 8 * i) 4, c.readNat (uSrc D + 8 * i + 4) 4))

/-- Identity of an operation (R334). -/
def identity (fmt op : Nat) : Nat :=
  if fmt = 7 then (match op with | 0 => 0 | 1 => 0x80000000 | _ => 0x7FFFFFFF)
  else match op with | 0 => 0x80000000 | 1 => 0xFF800000 | _ => 0x7F800000

/-- The exponent field of the largest non-NaN magnitude plus one, 0 for a block that is zero or all NaN (R347). -/
def blockExp (codes : List Nat) : Nat :=
  let m := (codes.map (fun x => x % 2 ^ 31)).foldl (fun a x => if x ≤ 0x7F800000 then max a x else a) 0
  if m = 0 then 0 else m / 2 ^ 23 + 1

/-- The pairs of a SPARSE list with an index from `first` on, `n` indices long: index, value, and whether the pair is poisoned. -/
def pairsIn (c : Ctx) (D : Desc) (first n : Nat) : List (Nat × Nat × Bool) :=
  (List.range (uCount D)).filterMap (fun i =>
    let a := uSrc D + 8 * i
    let e := c.readNat a 4
    if first ≤ e && e < first + n then some (e, c.readNat (a + 4) 4, poisonAt c a 8) else none)

/-- Codes of elements `first` to `first + n − 1` of this die's source, none where it has no source, and whether one is poisoned. -/
def readSource (c : Ctx) (D : Desc) (first n : Nat) : List (Option Nat) × Bool :=
  let l := segments c D
  let es := (List.range n).map (fun i => if elemKept c D (first + i) then sourceOf l (first + i) else none)
  (es.map (fun a => a.map (fun p => c.readNat p 4)), es.any (fun a => match a with | some p => poisonAt c p 4 | none => false))

/-- Exponent of a block from the table (R346). -/
def tableExp (c : Ctx) (D : Desc) (b : Nat) : Nat := max 1 (min 254 (c.readNat (uAux D + b) 1))

/-- This die's contribution to a word. -/
def contribution (c : Ctx) (D : Desc) (g : FurGeo) (first : Nat) : List Nat × Bool :=
  let n := wordLen D g first
  if uScale D then
    let bs := (List.range n).map (fun i =>
      let b := first + i
      let (xs, p) := readSource c D (32 * b) (min 32 (uElements D - 32 * b))
      (blockExp (xs.filterMap id), p))
    (bs.map (fun x => x.1), bs.any (fun x => x.2))
  else match uFormat D with
    | 8 =>
      let k := (n + 31) / 32
      let bs := (List.range k).map (fun i =>
        let b := first / 32 + i
        let (xs, p) := readSource c D (first + 32 * i) (min 32 (n - 32 * i))
        let vs : List Ext := xs.map (fun x => match x with | some v => f32 v | none => .fin false 0 0)
        let full := vs ++ List.replicate (32 - vs.length) (Ext.fin false 0 0)
        (bsxToBytes (bsxOfExt false (tableExp c D b) full), p || poisonAt c (uAux D + b) 1))
      (bs.flatMap (fun x => x.1), bs.any (fun x => x.2))
    | 9 =>
      let l := pairsIn c D first n
      (l.flatMap (fun p => [p.1, p.2.1]), l.any (fun p => p.2.2))
    | fmt =>
      let (xs, p) := readSource c D first n
      (xs.map (fun x => x.getD (identity fmt (uOp D))), p)

/-- Pairs of an alternating list. -/
def pairUpList : List Nat → List (Nat × Nat)
  | i :: v :: t => (i, v) :: pairUpList t
  | _ => []

/-- Merge two pair lists by index; equal indices add, the travelling value first (R361). A pair whose index the other list lacks is not
added and keeps its bits, those of a NaN too: DESIGN CHOICE (log entry 130). -/
def mergePairs : Nat → List (Nat × Nat) → List (Nat × Nat) → List (Nat × Nat)
  | 0, _, _ => []
  | _ + 1, [], b => b
  | _ + 1, a, [] => a
  | k + 1, (i, v) :: a, (j, w) :: b =>
    if i < j then (i, v) :: mergePairs k a ((j, w) :: b)
    else if j < i then (j, w) :: mergePairs k ((i, v) :: a) b
    else (i, addF32 v w) :: mergePairs k a b

/-- SPARSE: the pairs in poisoned words of 16 pairs of a list, where those of indices `bad` are poisoned (R333, R352). -/
def poisonedPairs (l : List (Nat × Nat)) (bad : List Nat) : List Nat :=
  ((chunks 16 ((l.length + 15) / 16) l).filter (fun w => w.any (fun p => bad.contains p.1))).flatMap (fun w => w.map (fun p => p.1))

/-- The word that begins at `first` with this die's contribution alone, as it enters a level. -/
def contributionWord (c : Ctx) (D : Desc) (g : FurGeo) (level first : Nat) : FurWord :=
  let (xs, p) := contribution c D g first
  if uFormat D = 9 && !uScale D then
    let l := pairUpList xs
    let bad := poisonedPairs l ((pairsIn c D first (wordLen D g first)).filterMap (fun q => if q.2.2 then some q.1 else none))
    { level := level, first := first, elems := xs, poison := p, gather := false, bad := bad }
  else { level := level, first := first, elems := xs, poison := p, gather := false }

/-- One headland operation on a word: travelling elements, own elements (Table 09-2). -/
def headland (D : Desc) (t own : List Nat) : List Nat :=
  if uScale D then List.zipWith max t own
  else match uFormat D with
    | 8 =>
      let k := t.length / 66
      (List.zipWith (fun x y => bsxToBytes (bsxAdd (bsxOfBytes x) (bsxOfBytes y))) (chunks 66 k t) (chunks 66 k own)).flatten
    | 9 => (mergePairs (t.length + own.length) (pairUpList t) (pairUpList own)).flatMap (fun p => [p.1, p.2])
    | 7 =>
      List.zipWith (fun x y =>
        let a := decodeInt 32 x
        let b := decodeInt 32 y
        encodeInt 32 (match uOp D with | 0 => clampInt 32 (a + b) | 1 => max a b | _ => min a b)) t own
    | _ =>
      List.zipWith (fun x y => match uOp D with | 0 => addF32 x y | 1 => rf32 (extMax (f32 x) (f32 y)) | _ => rf32 (extMin (f32 x) (f32 y))) t own

/-- A travelling word takes this die's part: its elements combined, its poison that of both (R333, R352). -/
def addWord (D : Desc) (w own : FurWord) : FurWord :=
  let xs := headland D w.elems own.elems
  { w with
    elems := xs
    poison := w.poison || own.poison
    bad := if uFormat D = 9 && !uScale D then poisonedPairs (pairUpList xs) (w.bad ++ own.bad) else [] }

/-! ### Results -/

/-- Bytes per element at the destination. -/
def dstWidth (D : Desc) : Nat := if uFormat D = 1 || uFormat D = 6 then 2 else 4

/-- The result codes of a finished word: dense for SPARSE, FP32 for BSX (R342, R346, R361). -/
def resultCodes (D : Desc) (g : FurGeo) (w : FurWord) : List Nat :=
  let n := wordLen D g w.first
  match uFormat D with
  | 8 => if w.gather then w.elems else
      ((chunks 66 (w.elems.length / 66) w.elems).flatMap (fun l =>
        let b := bsxOfBytes l
        b.mant.map (fun m => rf32 (bsxValue b m)))).take n
  | 9 => (List.range n).map (fun i => match (pairUpList w.elems).find? (fun p => p.1 == w.first + i) with | some p => p.2 | none => 0)
  | _ => w.elems

/-- Address of element `e` at the destination (R341–R343). -/
def dstAddr (D : Desc) (g : FurGeo) (e : Nat) : Nat :=
  uDst D + dstWidth D * (if uKind D = 0 then e - g.lo (g.ownerOf e) else e)

/-- Write a word of results, poisoned where it is (R352). -/
def writeResult (D : Desc) (g : FurGeo) (w : FurWord) (codes : List Nat) (c : Ctx) : Ctx :=
  if uScale D then c
  else
    let a := dstAddr D g w.first
    let data := codes.flatMap (toBytes (dstWidth D))
    let c1 := store a data c
    if uFormat D = 9 then w.bad.foldl (fun x e => forAll (wordsOf (dstAddr D g e) 4) setPoison x) c1
    else if w.poison then forAll (wordsOf a data.length) setPoison c1 else c1

/-- Bytes a finished word writes. -/
def resultSpan (D : Desc) (g : FurGeo) (first : Nat) : Nat × Nat :=
  if uScale D then (0, 0) else (dstAddr D g first, dstWidth D * wordLen D g first)

/-- The exponents a word of results adds to the table (R347, R348). -/
def resultExps (D : Desc) (w : FurWord) (codes : List Nat) : Tab Nat :=
  if uScale D then (List.range codes.length).map (fun i => (w.first + i, codes.getD i 0))
  else if uUpdateExp D then
    (List.range ((codes.length + 31) / 32)).map (fun i => (w.first / 32 + i, blockExp ((codes.drop (32 * i)).take 32)))
  else []

/-- Is an FP32 code NaN? -/
def codeNaN (x : Nat) : Bool := decide (0x7F800000 < x % 2 ^ 31)

/-- Counts of an owned result word (R350–R352). -/
def wordCounts (D : Desc) (w : FurWord) (codes : List Nat) (n : FurCounts) : FurCounts :=
  let blocks := if uFormat D = 8 && !uScale D then (chunks 66 (w.elems.length / 66) w.elems).map bsxOfBytes else []
  let nan := if uScale D || uFormat D = 7 || uFormat D = 1 || uFormat D = 6 then 0 else (codes.filter codeNaN).length
  { nan := min 0xFFFFFFFF (n.nan + nan)
    poisonWords := min 0xFFFFFFFF (n.poisonWords + (if uFormat D = 9 && !uScale D then
      ((chunks 16 ((w.elems.length / 2 + 15) / 16) (pairUpList w.elems)).filter (fun l => l.any (fun p => w.bad.contains p.1))).length
      else b2n w.poison))
    satBlocks := min 0xFFFFFFFF (n.satBlocks + (blocks.filter (fun b => b.sat)).length)
    maxLift := (blocks.map (fun b => b.lifts)).foldl max n.maxLift }

/-! ### Records and states (R338, R362, Table 09-7) -/

/-- May the channel touch these bytes (R223, R239, R264, R278, R340)? -/
def furReach (c : Ctx) (wr : Bool) (a n : Nat) : Bool :=
  n == 0 || (dmaByteOk c a n && !touchesSeedbed c a n && (decide (lpSize ≤ a) || (if wr then lpWritable c a n else lpReadable c a n)))

/-- A refused access: the violation is recorded, the channel frozen, the job ends (R340, R415). -/
def freezeChan (d k addr : Nat) (c : Ctx) : Ctx :=
  endCause 0x14 (markFroze d 46 (raise d 46 3 [] (pvRecord d 2 k addr (c.updChan d k (fun x => { x with state := 5, run := none })))))

/-- Levels of a group with a ring: level 0, and those of more than one member. -/
def ringLevels (c : Ctx) (d i : Nat) : List Nat := 0 :: [1, 2, 3].filter (fun l => (entryLevel? c (groupEntry c d i) l).1 != 1)

/-- The hop of channel `k` of die `d` at ring level `l` of group `i` (R324, R329): at level 0 the module whose turn it is, of the group
that leads to the next die (R53). -/
def hopOf (c : Ctx) (d k i l : Nat) : FurHop :=
  if l = 0 then
    let t := (d + 1) % 4
    .crossing (4 * (if t < d then t else t - 1) + (c.fur d).rot % 4) t
  else
    let e := groupEntry c d i
    .link (entryPort c e d l 12) k (c.readNat (e + 16 * l + 4) 4 % 2 ^ 18)

/-- Send a peer abort on every ring of the group `i` (R362, R363). -/
def sendAbort (d k i : Nat) (c : Ctx) : Ctx := (ringLevels c d i).foldl (fun a l => a.send (.peerAbort d k (hopOf a d k i l))) c

/-- Words of 128 bytes that a word of a HEADLAND_ADD is on a crossing. -/
def crossingWords (D : Desc) (w : FurWord) : Nat := if uFormat D = 9 && !uScale D then (w.elems.length / 2 + 15) / 16 else 1

/-- Send a word on its level's hop; the crossing's modules take its 128-byte words in rotation (R329). -/
def sendWord (d k : Nat) (D : Desc) (w : FurWord) (c : Ctx) : Ctx :=
  let c1 := c.send (.furWord d k (hopOf c d k (uGroup D) w.level) w)
  if w.level = 0 then c1.updFur d (fun x => { x with rot := (x.rot + crossingWords D w) % 4 }) else c1

/-- The 64 bytes of a furrow completion record (Table 09-4). -/
def furRecord (c : Ctx) (D : Desc) (status iter : Nat) (n : FurCounts) (verdict : Bool) : List Byte :=
  toBytes 64 (word [(8, hOpcode D), (8, status), (16, hTag D), (32, iter), (32, n.nan), (32, n.poisonWords), (32, n.satBlocks),
    (3, n.maxLift), (5, 0), (1, b2n (n.nan != 0)), (1, b2n (n.poisonWords != 0)), (1, b2n (n.satBlocks != 0)), (1, b2n verdict), (4, 0),
    (16, 0), (32, c.dev.epoch)])

/-- Does a status halt its channel (Table 09-5)? -/
def furHalts (st : Nat) : Bool := [1, 5, 0x41, 0x42, 0x43, 0x44].contains st

/-- No counts. -/
def noCounts : FurCounts := { nan := 0, poisonWords := 0, satBlocks := 0, maxLift := 0 }

/-- A descriptor ends: its record, then SIG, the next PC, and the channel's state (R338, R362). A record the channel may not write
freezes it instead (R340). -/
def furEnd (d k : Nat) (D : Desc) (iter status : Nat) (n : FurCounts) (verdict : Bool) (c : Ctx) : Ctx :=
  let u := notifyUnit d D
  let loop := hOpcode D == 0x43
  let a := umBase u + uCplOff D
  if !loop && hCpl D && !furReach c true a 64 then freezeChan d k a c
  else
    let c1 := if !loop && hCpl D then store a (furRecord c D status iter n verdict) c else c
    let c2 := if !loop && hSig D then addEvt u (uSigEvt D) 1 c1 else c1
    c2.updChan d k (fun x =>
      let st := if furHalts status then (if x.state = 4 then 4 else 3) else if x.state = 2 then 1 else x.state
      { x with
        pc := x.pc + 1
        run := none
        state := if st = 1 && decide (x.len ≤ x.pc + 1) then 0 else st
        haltStatus := if furHalts status then status else x.haltStatus
        haltTag := if furHalts status then (if loop then 0 else hTag D) else x.haltTag })

/-- A running reduction ends early: record, SIG, halt, and a peer abort on every ring (Table 09-7). -/
def furAbortRun (d k status : Nat) (c : Ctx) : Ctx :=
  match (c.chan d k).run with
  | none => c
  | some r => sendAbort d k (uGroup r.desc) (furEnd d k r.desc r.iter status noCounts false c)

/-- Does the engine of die `d` run? -/
def furLive (c : Ctx) (d : Nat) : Bool :=
  !c.dieStopped d && c.dev.job.running && c.dev.job.released && !c.dev.job.stopped

/-- The trigger base of a descriptor (R337). -/
def trigger (D : Desc) (iter : Nat) : Nat := min 0x7FFFFFFF (uWaitValue D + iter * uWaitInc D)

/-- The descriptor at PC of a channel that may take one: not running, none held back. -/
def nextDesc (c : Ctx) (d k : Nat) : Option Desc :=
  let x := c.chan d k
  let heldHere : Bool := match (c.fur d).held with | some h => h.1 == k | none => false
  if furLive c d && !c.dev.job.ending && (x.state == 1 || x.state == 3 || x.state == 4) && x.run.isNone && x.pc < x.len && !heldHere then
    some (BitVec.ofNat 512 (c.readNat (x.base + 64 * x.pc) 64))
  else none

/-- Take the next descriptor with opcode `op` once its trigger is met. A poisoned descriptor freezes the channel (R325); on a halted
or disabled channel it is refused. -/
def furTake (op : Nat) (d k : Nat) (act : Desc → Nat → Ctx → Ctx) (c : Ctx) : Ctx :=
  match nextDesc c d k with
  | none => c
  | some _ =>
    let x := c.chan d k
    let a := x.base + 64 * x.pc
    let c0 := eccRead a 64 c
    let D : Desc := BitVec.ofNat 512 (c0.readNat a 64)
    if poisonAt c0 a 64 then endCause 0x14 (c0.updChan d k (fun x => { x with state := 5 }))
    else
      let known := [0x40, 0x41, 0x42, 0x43].contains (hOpcode D)
      if !(hOpcode D == op || (!known && op == 0x40)) then c
      else if op ≠ 0x43 && decide (evtWord c (notifyUnit d D) (uWaitEvt D) < trigger D x.iter) then c
      else if x.state = 3 || x.state = 4 then furEnd d k D x.iter 0x45 noCounts false c0
      else act D x.iter c0

/-! ### FUR_REDUCE and FUR_SCALE -/

/-- The lists of a descriptor obey R336 and R339. -/
def listsOk (c : Ctx) (D : Desc) : Bool :=
  if !sums? D then true
  else if uFormat D = 9 && !uScale D then
    let l := pairsOf c D
    !poisonAt c (uSrc D) (8 * uCount D) && l.all (fun p => p.1 < uElements D) &&
    (List.zipWith (fun p q => decide (p.1 < q.1)) l (l.drop 1)).all id
  else
    let l := segments c D
    !poisonAt c (uSrc D) (16 * uCount D) && l.all (fun s => s.1 < uElements D && s.1 + s.2.1 ≤ uElements D) &&
    (List.range (uCount D)).all (fun i => c.readNat (uSrc D + 16 * i + 14) 2 == 0) &&
    (List.zipWith (fun s t => decide (s.1 < t.1 ∧ s.1 + s.2.1 ≤ t.1)) l (l.drop 1)).all id

/-- Bytes of the segment or pair list. -/
def listSpan (D : Desc) : Nat × Nat :=
  if !sums? D then (uSrc D, 0) else (uSrc D, (if uFormat D = 9 && !uScale D then 8 else 16) * uCount D)

/-- Bytes of the bitmap. -/
def maskSpan (D : Desc) : Nat :=
  if uMaskKind D = 0 then 0
  else
    let rows := (uElements D + 128 * uRowBlocks D - 1) / (128 * uRowBlocks D)
    ((if uMaskKind D = 1 then rows else (rows + 127) / 128 * uRowBlocks D) + 7) / 8

/-- The kept runs of a span of elements, as (first, count) of 32 elements at most. -/
def keptRuns (c : Ctx) (D : Desc) (lo hi : Nat) : List (Nat × Nat) :=
  if uMaskKind D = 0 then (if lo < hi then [(lo, hi - lo)] else [])
  else ((List.range ((hi - lo + 31) / 32)).map (fun i => (lo + 32 * i, min 32 (hi - lo - 32 * i)))).filter (fun p => elemKept c D p.1)

/-- The single source elements kept. -/
def keptSources (c : Ctx) (D : Desc) : List (Nat × Nat) :=
  (segments c D).flatMap (fun s =>
    if uMaskKind D = 0 then [(s.2.2, 4 * s.2.1)]
    else ((List.range s.2.1).filter (fun i => elemKept c D (s.1 + i))).map (fun i => (s.2.2 + 4 * i, 4)))

/-- Every span of bytes the descriptor reads (false) or writes (true) on this die, its lists read already (R340). -/
def furSpans (c : Ctx) (d : Nat) (D : Desc) (g : FurGeo) : List (Bool × Nat × Nat) :=
  let um := umBase (notifyUnit d D)
  let w := dstWidth D
  let nblk := (uElements D + 31) / 32
  (if hCpl D then [(true, um + uCplOff D, 64)] else []) ++
  [(false, uMask D, maskSpan D)] ++
  (if uScale D || uFormat D = 8 then [(uScale D || uUpdateExp D, uAux D, nblk)] else []) ++
  (if !sums? D then [(false, uSrc D, w * (g.hi g.own - g.lo g.own))]
   else if uFormat D = 9 && !uScale D then []
   else (keptSources c D).map (fun p => (false, p.1, p.2))) ++
  (if uScale D then []
   else if uKind D = 0 then (keptRuns c D (g.lo g.own) (g.hi g.own)).map (fun p => (true, dstAddr D g p.1, w * p.2))
   else (keptRuns c D g.partLo g.partHi).map (fun p => (true, uDst D + w * p.1, w * p.2)))

/-- The header this die sends at a level (R327). -/
def headerOf (c : Ctx) (D : Desc) (g : FurGeo) (l : Nat) : FurHeader :=
  { level := l, tag := hTag D, opcode := hOpcode D, kind := uKind D, op := uOp D, format := uFormat D, group := uGroup D,
    elements := uElements D, epoch := c.dev.epoch, n1 := g.cnt 1, n2 := g.cnt 2, n3 := g.cnt 3, pos := g.pos l, src := c.dev.boot.pkg }

/-- Levels whose rings the reduction uses. -/
def usedLevels (D : Desc) (g : FurGeo) : List Nat :=
  (if sums? D then [0] else []) ++ [1, 2, 3].filter (fun l => g.cnt l != 1)

/-- Change the run of a channel. -/
def updRun (d k : Nat) (f : FurRun → FurRun) (c : Ctx) : Ctx := c.updChan d k (fun x => { x with run := x.run.map f })

/-- A word of results is finished on this die: written, and its exponents noted. -/
def landWord (d k : Nat) (D : Desc) (g : FurGeo) (w : FurWord) (codes : List Nat) (c : Ctx) : Ctx :=
  let l := resultExps D w codes
  updRun d k (fun r => { r with
    exps := l.foldl (fun t p => Tab.set t p.1 p.2) r.exps
    badExps := if w.poison then r.badExps ++ l.map (fun p => p.1) else r.badExps }) (writeResult D g w codes c)

/-- Send a finished word round the rings of the levels below `top`, level 3 first (R342, R343). -/
def gatherOut (d k : Nat) (D : Desc) (g : FurGeo) (w : FurWord) (top : Nat) (c : Ctx) : Ctx :=
  ([3, 2, 1].filter (fun l => l < top && g.cnt l != 1)).foldl (fun a l => sendWord d k D { w with level := l, gather := true } a) c

/-- The owner finishes a word (R341, R342). -/
def ownWord (d k : Nat) (D : Desc) (g : FurGeo) (w : FurWord) (c : Ctx) : Ctx :=
  let codes := resultCodes D g w
  let c1 := updRun d k (fun r => { r with counts := wordCounts D w codes r.counts }) (landWord d k D g w codes c)
  if gathers? D then gatherOut d k D g { w with elems := codes } 4 c1 else c1

/-- A word's sum is complete at a level: it enters the next level, waits for its travelling word there, or is finished (R335). -/
def levelDone (d k : Nat) (D : Desc) (g : FurGeo) (w : FurWord) (c : Ctx) : Ctx :=
  let o := g.ownerOf w.first
  match [1, 2, 3].find? (fun l => decide (w.level < l) && g.cnt l != 1) with
  | none => ownWord d k D g w c
  | some m =>
    if g.pos m = (g.ownerPos o m + 1) % g.cnt m then sendWord d k D { w with level := m } c
    else updRun d k (fun r => { r with sums := r.sums ++ [{ w with level := m }] }) c

/-- Is the word's sum, complete at level `l`, the result? -/
def lastLevel (g : FurGeo) (l : Nat) : Bool := [1, 2, 3].all (fun m => m ≤ l || g.cnt m == 1)

/-- The first words of a reduction leave: those this die begins (R332), or its owned piece (R343). -/
def firstWords (d k : Nat) (D : Desc) (g : FurGeo) (c : Ctx) : Ctx :=
  if sums? D then
    let owners := ownersAt g 0 0 (fun b => d == (b + 1) % 4)
    (owners.flatMap (wordsOfOwner c D g)).foldl (fun a e =>
      sendWord d k D (contributionWord a D g 0 e) a) c
  else
    let w := dstWidth D
    (wordsOfOwner c D g g.own).foldl (fun a e =>
      let n := wordLen D g e
      let src := uSrc D + w * (e - g.lo g.own)
      let xs := (List.range n).map (fun i => a.readNat (src + w * i) w)
      ownWord d k D g { level := 0, first := e, elems := xs, poison := poisonAt a src (w * n), gather := true } a) c

/-- An all-gather starts once no page that this die's own piece lands in is protected: its words are master writes too (R366). -/
def ownLanding (D : Desc) (g : FurGeo) (go : Ctx → Ctx) (c : Ctx) : Ctx :=
  let n := if sums? D then 0 else dstWidth D * (g.hi g.own - g.lo g.own)
  match (if n = 0 then none else firstProtected c (dstAddr D g (g.lo g.own)) n) with
  | some page => cowWait (page * 65536) [] c
  | none => go c

/-- A descriptor whose trigger is met is checked and starts its reduction (R328, R337, R339–R341, R347). -/
def reduceAct (d k : Nat) (D : Desc) (iter : Nat) (c : Ctx) : Ctx :=
  let condAt := umBase (notifyUnit d D) + uCondOff D
  let bad (a : Ctx) (abort : Bool) : Ctx :=
    let a1 := furEnd d k D iter 1 noCounts false a
    if abort then sendAbort d k (uGroup D) a1 else a1
  if uCondEn D && !furReach c false condAt 1 then freezeChan d k condAt c
  else if uCondEn D && c.readNat condAt 1 ≠ uCondValue D then furEnd d k D iter 0x40 noCounts false c
  else if !groupOk c d (uGroup D) then bad c false
  else if portGone c d (uGroup D) then furEnd d k D iter 0x45 noCounts false (c.updChan d k (fun x => { x with state := 4 }))
  else if !reduceOk D then bad c true
  else
    let (la, ln) := listSpan D
    if !furReach c false la ln then freezeChan d k la c
    else
      let c1 := eccRead la ln c
      if !listsOk c1 D then bad c1 true
      else
        let g := geoOf c1 d D
        match (furSpans c1 d D g).find? (fun s => !furReach c1 s.1 s.2.1 s.2.2) with
        | some s => freezeChan d k s.2.1 c1
        | none => ownLanding D g (fun c1 =>
          let c2 := ((furSpans c1 d D g).filter (fun s => !s.1)).foldl (fun a s => eccRead s.2.1 s.2.2 a) c1
          let c3 := c2.updChan d k (fun x =>
            { x with state := 2, run := some { desc := D, iter := iter, since := c2.dev.slow } })
          let c4 := (usedLevels D g).foldl (fun a l => a.send (.furHeader d k (hopOf a d k (uGroup D) l) (headerOf a D g l))) c3
          firstWords d k D g c4) c1

/-! ### Words -/

/-- The fields of a header are those of the descriptor, from the member before this one (R327). -/
def headerFits (D : Desc) (g : FurGeo) (h : FurHeader) : Bool :=
  h.tag == hTag D && h.opcode == hOpcode D && h.kind == uKind D && h.op == uOp D && h.format == uFormat D &&
  h.group == uGroup D && h.elements == uElements D && h.n1 == g.cnt 1 && h.n2 == g.cnt 2 && h.n3 == g.cnt 3 &&
  (usedLevels D g).contains h.level && (h.pos + 1) % g.cnt h.level == g.pos h.level &&
  (h.level == 0 || h.src == g.prev.getD (h.level - 1) 0)

/-- FUR_HEADER: the header of a hop's first word is checked (R327). -/
def furHeaderOp (d k : Nat) (h : FurHeader) (c : Ctx) : Ctx :=
  match (c.chan d k).run with
  | none => c
  | some r =>
    if !furLive c d then c
    else
      let D := r.desc
      let g := geoOf c d D
      if !headerFits D g h then furAbortRun d k 0x41 c
      else if h.epoch ≠ c.dev.epoch then furAbortRun d k 0x42 c
      else updRun d k (fun r => { r with headers := if r.headers.contains h.level then r.headers else r.headers ++ [h.level], since := c.dev.slow }) c

/-- The word's elements have the length its format gives. -/
def wordShape (D : Desc) (g : FurGeo) (w : FurWord) : Bool :=
  let n := wordLen D g w.first
  if uScale D then w.elems.length == n
  else match uFormat D with
    | 8 => if w.gather then w.elems.length == n else w.elems.length == 66 * ((n + 31) / 32)
    | 9 => w.elems.length % 2 == 0 && w.poison == !w.bad.isEmpty && (pairUpList w.elems).all (fun p => w.first ≤ p.1 && p.1 < w.first + n)
    | _ => w.elems.length == n

/-- The word is one this die takes now: its hop's header has come, it has not come before, its shape fits. -/
def wordTaken (c : Ctx) (r : FurRun) (g : FurGeo) (w : FurWord) : Bool :=
  r.headers.contains w.level && !r.taken.contains (w.level, w.gather, w.first) &&
  (expected c r.desc g).contains (w.level, w.gather, w.first) && wordShape r.desc g w

/-- The word lands here, unless a page it writes is protected: then the adder waits (R366). -/
def landing (D : Desc) (g : FurGeo) (first : Nat) (go : Ctx → Ctx) (c : Ctx) : Ctx :=
  let (a, n) := resultSpan D g first
  match (if n = 0 then none else firstProtected c a n) with
  | some page => cowWait (page * 65536) [] c
  | none => go c

/-- Does the word's result land on this die when it is taken: gathered, or its sum complete at the last level here? -/
def landsHere (g : FurGeo) (w : FurWord) : Bool :=
  w.gather || (g.pos w.level == g.ownerPos (g.ownerOf w.first) w.level && lastLevel g w.level)

/-- Spans the adder reads (false) and writes (true) for a word, checked again when it is taken (R58, R362). -/
def wordSpans (c : Ctx) (D : Desc) (g : FurGeo) (w : FurWord) : List (Bool × Nat × Nat) :=
  let n := wordLen D g w.first
  let (lo, len) := if uScale D then (32 * w.first, min (32 * n) (uElements D - 32 * w.first)) else (w.first, n)
  (if w.gather || w.level ≠ 0 then []
   else if uFormat D = 9 && !uScale D then [(false, uSrc D, 8 * uCount D)]
   else
     (if uFormat D = 8 && !uScale D then [(false, uAux D + w.first / 32, (n + 31) / 32)] else []) ++
     ((List.range len).filter (fun i => elemKept c D (lo + i))).filterMap (fun i =>
       (sourceOf (segments c D) (lo + i)).map (fun a => (false, a, 4)))) ++
  (if landsHere g w then [(true, (resultSpan D g w.first).1, (resultSpan D g w.first).2)] else [])

/-- HEADLAND_ADD: an adder takes a word, combines it with this die's part and sends it on, or to the owner's destination (R332, R333,
R342, R343, R349, R352). -/
def headlandAddOp (d k : Nat) (w : FurWord) (c : Ctx) : Ctx :=
  match (c.chan d k).run with
  | none => c
  | some r =>
    let D := r.desc
    let g := geoOf c d D
    if !furLive c d || !wordTaken c r g w then c
    else match (wordSpans c D g w).find? (fun s => !furReach c s.1 s.2.1 s.2.2) with
    | some s => freezeChan d k s.2.1 c
    | none =>
      let o := g.ownerOf w.first
      let mark (a : Ctx) : Ctx := updRun d k (fun r => { r with taken := (w.level, w.gather, w.first) :: r.taken, since := c.dev.slow }) a
      if w.gather then
        landing D g w.first (fun a =>
          let a1 := landWord d k D g w w.elems (mark a)
          let a2 := if (g.pos w.level + 1) % g.cnt w.level = g.ownerPos o w.level then a1 else sendWord d k D w a1
          gatherOut d k D g w w.level a2) c
      else
        let own : Option FurWord :=
          if w.level = 0 then some (contributionWord c D g 0 w.first)
          else r.sums.find? (fun s => s.level == w.level && s.first == w.first)
        match own with
        | none => c
        | some x =>
          let w1 := addWord D w x
          let go (a : Ctx) : Ctx :=
            let a1 := updRun d k (fun r => { r with sums := r.sums.filter (fun s => !(s.level == w.level && s.first == w.first)) }) (mark a)
            if g.pos w.level = g.ownerPos o w.level then levelDone d k D g w1 a1 else sendWord d k D w1 a1
          if landsHere g w then landing D g w.first go c else go c

/-- Two counts of a summary exchange together (R353). -/
def addCounts (x y : FurCounts) : FurCounts :=
  { nan := min 0xFFFFFFFF (x.nan + y.nan), poisonWords := min 0xFFFFFFFF (x.poisonWords + y.poisonWords),
    satBlocks := min 0xFFFFFFFF (x.satBlocks + y.satBlocks), maxLift := max x.maxLift y.maxLift }

/-- Write the exponents of a reduction (R347, R348), those of poisoned words poisoned (R352). -/
def writeExps (D : Desc) (l : Tab Nat) (bad : List Nat) (c : Ctx) : Ctx :=
  let w := l.filter (fun p => uScale D || p.2 != 0)
  let c1 := w.foldl (fun a p =>
    let e := p.2 + uMargin D
    store (uAux D + p.1) [BitVec.ofNat 8 (min 254 (if uScale D then max 1 e else e))] a) c
  (w.filter (fun p => bad.contains p.1)).foldl (fun a p => forAll (wordsOf (uAux D + p.1) 1) setPoison a) c1

/-- The two descriptors name the same reduction: the seven fields of a header (R327). -/
def sameReduction (D E : Desc) : Bool :=
  hTag D == hTag E && hOpcode D == hOpcode E && uKind D == uKind E && uOp D == uOp E && uFormat D == uFormat E &&
  uGroup D == uGroup E && uElements D == uElements E

/-- The counts of die `d` for reduction `D`, once it has taken every word of it. -/
def dieCounts (c : Ctx) (d k : Nat) (D : Desc) : Option FurCounts :=
  match (c.chan d k).run with
  | none => none
  | some r =>
    if sameReduction D r.desc && (expected c r.desc (geoOf c d r.desc)).all (fun e => r.taken.contains e) then some r.counts else none

/-- The group-wide counts of a reduction under way on die `d` (R353): those the package's dies have agreed on, else the counts of its
four dies, each done with its words, and of the other packages' members (`others`, where the group has any). -/
def agreedCounts (c : Ctx) (d k : Nat) (r : FurRun) (others : FurCounts) : Option FurCounts :=
  match r.agreed with
  | some n => some n
  | none =>
    match dieCounts c 0 k r.desc, dieCounts c 1 k r.desc, dieCounts c 2 k r.desc, dieCounts c 3 k r.desc with
    | some a, some b, some x, some y =>
      let n := addCounts (addCounts (addCounts a b) x) y
      some (if (geoOf c d r.desc).inner = 1 then n else addCounts n others)
    | _, _, _, _ => none

/-- FUR_SUMMARY_EXCHANGE: every word of the package's dies has been taken; the reduction's counts are exchanged, its record written, SIG applied, its
sources released (R338, R344, R348, R350, R353). -/
def furSummaryExchangeOp (d k : Nat) (others : FurCounts) (c : Ctx) : Ctx :=
  match (c.chan d k).run with
  | none => c
  | some r =>
    let D := r.desc
    if !furLive c d then c
    else match agreedCounts c d k r others with
    | none => c
    | some n =>
      match r.exps.find? (fun p => !furReach c true (uAux D + p.1) 1), r.exps.find? (fun p => (firstProtected c (uAux D + p.1) 1).isSome) with
      | some p, _ => freezeChan d k (uAux D + p.1) c
      | none, some p => cowWait (pageOf (uAux D + p.1) * 65536) [] c
      | none, none =>
        let c0 := writeExps D r.exps r.badExps c
        let c1 := forAll [0, 1, 2, 3] (fun e a => updRun e k (fun x => { x with agreed := some n }) a)
          ((usedLevels D (geoOf c d D)).foldl (fun a l => a.send (.furCounts d k (hopOf a d k (uGroup D) l) r.counts)) c0)
        let c2 := if uGrad D && (n.nan != 0 || n.poisonWords != 0) then c1.updFur d (fun x => { x with latch := true }) else c1
        furEnd d k D r.iter 0 n false c2

/-! ### FUR_COMMIT (R354, R409, R462) -/

/-- The verdict is written and the step latch cleared; on die 0 the step counter rises, but in a SERVE job, whose step commits raise it
(R409). -/
def commitDo (d k : Nat) (D : Desc) (iter : Nat) (c : Ctx) : Ctx :=
  let x := c.fur d
  let v := x.latch
  let c1 := store (umBase (notifyUnit d D) + uCondOff D) [BitVec.ofNat 8 (b2n v)] c
  let c2 := c1.updFur d (fun x =>
    let (n, s) := stick 65535 x.skipCount 1
    { x with
      latch := false
      held := none
      commits := x.commits + 1
      skipCount := if v && !x.nanPolicy then n else x.skipCount
      skipSticky := if v && !x.nanPolicy then x.skipSticky || s else x.skipSticky })
  let c3 := if v && x.nanPolicy then endCause 0x11 c2 else c2
  let c4 := furEnd d k D iter 0 noCounts v c3
  if d = 0 && c.dev.job.kind != 2 then stepRise (stepCheck c4) else c4

/-- Is this commit that of the sheaf point planned (R462)? With ENABLE clear the point is held as well: its sheaf is then skipped (R464). -/
def atSheafPoint (c : Ctx) (d : Nat) : Bool := c.dev.res.planned == some (c.fur d).commits

/-- FUR_COMMIT's own part: checked, held at a sheaf point, else performed. -/
def commitAct (d k : Nat) (D : Desc) (iter : Nat) (c : Ctx) : Ctx :=
  let um := umBase (notifyUnit d D)
  if !commitOk D then furEnd d k D iter 1 noCounts false c
  else if !furReach c true (um + uCondOff D) 1 then freezeChan d k (um + uCondOff D) c
  else if hCpl D && !furReach c true (um + uCplOff D) 64 then freezeChan d k (um + uCplOff D) c
  else if atSheafPoint c d then c.updFur d (fun x => { x with held := some (k, iter) })
  else commitDo d k D iter c

/-- FUR_LOOP: back to entry 0, ITER one more (R325). It uses byte 0 only (R336). -/
def loopAct (d k : Nat) (c : Ctx) : Ctx :=
  c.updChan d k (fun x =>
    let (n, s) := stick 0x7FFFFFFF x.iter 1
    { x with pc := 0, iter := n, iterSticky := x.iterSticky || s })

/-! ### Stopping (R363, R364) -/

/-- FUR_PEER_ABORT (R363). -/
def furPeerAbortOp (d k : Nat) (c : Ctx) : Ctx := if furLive c d then furAbortRun d k 0x44 c else c

/-- Trays of the ring neighbours whose words are still missing (cause 3 of Table 13-5). -/
def lateTrays (c : Ctx) (d : Nat) (r : FurRun) : List Nat :=
  let g := geoOf c d r.desc
  let missing := (expected c r.desc g).filter (fun e => !r.taken.contains e)
  (([1, 2, 3].filter (fun l => missing.any (fun e => e.1 == l))).map (fun l => g.prev.getD (l - 1) 0 / 8)).eraseDups

/-- FUR_TIMEOUT (R363): the reduction ends; the neighbours it waited for are named in notices (R472). -/
def furTimeoutOp (d k : Nat) (c : Ctx) : Ctx :=
  match (c.chan d k).run with
  | some r =>
    if furLive c d && decide ((c.fur d).timeout ≤ c.since r.since) then
      (lateTrays c d r).foldl (fun a t => sendNotice t 3 a) (furAbortRun d k 0x43 c)
    else c
  | none => c

/-- Disable a channel (R364): nothing new starts, its running reduction drains. -/
def disableChan (d k : Nat) (c : Ctx) : Ctx :=
  let x := c.chan d k
  if x.state = 1 || x.state = 2 then
    let c1 := c.updChan d k (fun x => { x with state := 4 })
    if c.dev.job.running then disableFn (.furrow d k) c1 else c1
  else c

/-! ### The commands -/

/-- FUR_REDUCE (R337, R339–R346). -/
def execFurReduce (d c : Nat) (s : State) : Host.Outcome State Fault Refusal := perform (.furReduce d c) s (furTake 0x40 d c (reduceAct d c))
/-- FUR_SCALE (R347). -/
def execFurScale (d c : Nat) (s : State) : Host.Outcome State Fault Refusal := perform (.furScale d c) s (furTake 0x41 d c (reduceAct d c))
/-- FUR_COMMIT (R354). -/
def execFurCommit (d c : Nat) (s : State) : Host.Outcome State Fault Refusal := perform (.furCommit d c) s (furTake 0x42 d c (commitAct d c))
/-- FUR_LOOP (R325). -/
def execFurLoop (d c : Nat) (s : State) : Host.Outcome State Fault Refusal := perform (.furLoop d c) s (furTake 0x43 d c (fun _ _ => loopAct d c))
/-- FUR_HEADER (R327). -/
def execFurHeader (d c : Nat) (hdr : FurHeader) (s : State) : Host.Outcome State Fault Refusal :=
  perform (.furHeader d c hdr) s (furHeaderOp d c hdr)
/-- HEADLAND_ADD (R332–R335). -/
def execHeadlandAdd (d c : Nat) (w : FurWord) (s : State) : Host.Outcome State Fault Refusal :=
  perform (.headlandAdd d c w) s (headlandAddOp d c w)
/-- FUR_SUMMARY_EXCHANGE (R353). -/
def execFurSummaryExchange (d c : Nat) (others : FurCounts) (s : State) : Host.Outcome State Fault Refusal :=
  perform (.furSummaryExchange d c others) s (furSummaryExchangeOp d c others)
/-- FUR_PEER_ABORT (R363). -/
def execFurPeerAbort (d c : Nat) (s : State) : Host.Outcome State Fault Refusal := perform (.furPeerAbort d c) s (furPeerAbortOp d c)
/-- FUR_TIMEOUT (R363). -/
def execFurTimeout (d c : Nat) (s : State) : Host.Outcome State Fault Refusal := perform (.furTimeout d c) s (furTimeoutOp d c)
/-- FUR_CHANNEL_DISABLE (R364). -/
def execFurChannelDisable (d c : Nat) (s : State) : Host.Outcome State Fault Refusal :=
  perform (.furChannelDisable d c) s (disableChan d c)

end Sys2Proof.Machine
end

