-- ==== Sys2Proof/Machine/Image.lean ====
section
/-!
DEFINITION. The Fefer image and the job entries it holds (R403, R515–R517, Tables 11-1, 15-4 to 15-9), read from an image copy or
an NVM slot at base address `b`.
-/
namespace Sys2Proof.Machine

/-- Base of the image copy in use. -/
def imgBase (c : Ctx) : Nat := imageCopy c.dev.boot.copy

/-- Field of `n` bytes at offset `off` from `b`. -/
def imgField (c : Ctx) (b off n : Nat) : Nat := c.readNat (b + off) n

/-- SECTIONS of the header. -/
def imgSections (c : Ctx) (b : Nat) : Nat := imgField c b 6 2

/-- Section entry `i` (Table 15-5): type, offset, size. -/
def secEntry (c : Ctx) (b i : Nat) : Nat × Nat × Nat :=
  (imgField c b (128 + 64 * i) 2, imgField c b (128 + 64 * i + 4) 4, imgField c b (128 + 64 * i + 8) 4)

/-- The section of a type: offset and size. -/
def findSection (c : Ctx) (b ty : Nat) : Option (Nat × Nat) :=
  match ((List.range (imgSections c b)).map (secEntry c b)).find? (fun e => e.1 == ty) with
  | some (_, o, n) => some (o, n)
  | none => none

/-- Address of a section, 0 offset where it is absent. -/
def sectionAt (c : Ctx) (b ty : Nat) : Nat := b + ((findSection c b ty).getD (0, 0)).1

/-- Does the digest of section entry `i` check? -/
def secDigestOk (c : Ctx) (b i : Nat) : Bool :=
  let (_, o, n) := secEntry c b i
  sha384 (c.read (b + o) n) == c.read (b + 128 + 64 * i + 16) 48

/-- Does the digest of the section of a type check? -/
def typeDigestOk (c : Ctx) (b ty : Nat) : Bool :=
  (List.range (imgSections c b)).all (fun i => (secEntry c b i).1 != ty || secDigestOk c b i)

/-- Do two sections overlap? -/
def secClash (x y : Nat × Nat × Nat) : Bool := overlaps x.2.1 x.2.2 y.2.1 y.2.2

/-- The rules of R516: at most one section of a type, the required types present, sections above the header, within IMAGE_SIZE
and apart, no unknown type, entries beyond SECTIONS zero. -/
def sectionsOk (c : Ctx) (b : Nat) : Bool :=
  let n := imgSections c b
  let l := (List.range n).map (secEntry c b)
  let size := imgField c b 12 4
  let signer := imgField c b 20 1
  let jobs := (l.find? (fun e => e.1 == 0x0B)).map (fun e => b + e.2.1)
  let anyJob := match jobs with
    | some a => (List.range 64).any (fun i => bit (c.readNat (a + 128 * i) 1) 2)
    | none => false
  1 ≤ n && n ≤ 32 && (c.read (b + 128 + 64 * n) (64 * (32 - n))).all (fun x => x == 0) &&
  l.all (fun e => 1 ≤ e.1 && e.1 ≤ 0x0E && e.2.1 % 0x1000 == 0 && 0x1000 ≤ e.2.1 && e.2.1 + e.2.2 ≤ size) &&
  (List.range n).all (fun i => (List.range i).all (fun j =>
    (l.getD i (0, 0, 0)).1 != (l.getD j (0, 0, 0)).1 && !secClash (l.getD i (0, 0, 0)) (l.getD j (0, 0, 0)))) &&
  (List.range 11).all (fun t => l.any (fun e => e.1 == t + 1)) &&
  (!anyJob || l.any (fun e => e.1 == 0x0C)) && (signer == 0 || l.any (fun e => e.1 == 0x0E))

/-! ### Job entries (Table 11-1) -/

/-- Address of job entry `i`. -/
def jobEntry (c : Ctx) (b i : Nat) : Nat := sectionAt c b 0x0B + 128 * i
def jeKind (c : Ctx) (a : Nat) : Nat := bits (c.readNat a 1) 0 2
def jeValid (c : Ctx) (a : Nat) : Bool := bit (c.readNat a 1) 2
def jeStart (c : Ctx) (a : Nat) : Nat := bits (c.readNat (a + 1) 1) 0 2
def jeDegraded (c : Ctx) (a : Nat) : Bool := bit (c.readNat (a + 1) 1) 2
def jePrev (c : Ctx) (a : Nat) : Nat := bits (c.readNat (a + 2) 1) 0 6
def jeVariant (c : Ctx) (a : Nat) : Nat := bits (c.readNat (a + 3) 1) 0 2
/-- Image offset field at `off`, as an address; none where it is 0. -/
def jeOff (c : Ctx) (b a off : Nat) : Option Nat := let o := c.readNat (a + off) 4; if o = 0 then none else some (b + o)

/-- The area table of an entry (Table 06-6). -/
def parseAreas (c : Ctx) (a : Nat) : List Area :=
  ((List.range 32).map (fun i =>
    let e := a + 16 * i
    let f := c.readNat (e + 14) 1
    { base := c.readNat e 6, size := c.readNat (e + 8) 6, write := bit f 0, host := bit f 1, remote := bit f 2, sheaf := bit f 3,
      staging := bit f 4 : Area })).filter (fun x => x.size ≠ 0)

/-- UM_REGION from its 64-bit value. -/
def parseRegion (v : Nat) : Region :=
  { wabBase := bits v 0 10, wabSize := bits v 10 10, sbBase := bits v 20 10, sbSize := bits v 30 8, stashBase := bits v 38 10,
    stashSize := bits v 48 10 }

/-- The regions obey R236. -/
def regionOk (r : Region) : Bool :=
  r.wabSize ≤ 512 && r.sbSize ≤ 128 && r.stashSize ≤ 768 &&
  r.wabBase + r.wabSize ≤ 768 && r.sbBase + r.sbSize ≤ 768 && r.stashBase + r.stashSize ≤ 768 &&
  !overlaps r.wabBase r.wabSize r.sbBase r.sbSize && !overlaps r.wabBase r.wabSize r.stashBase r.stashSize &&
  !overlaps r.sbBase r.sbSize r.stashBase r.stashSize

/-- The slice of a unit as (address, bytes). -/
def spillSlice (v : Nat) : Nat × Nat := (bits v 0 32 * 65536, bits v 32 24 * 65536)

/-! ### Load plans (Tables 15-7, 15-8, R653) -/

/-- Groups of the plan at `p`, and the entry of group `g`. -/
def planGroups (c : Ctx) (p : Nat) : Nat := c.readNat (p + 2) 2
def groupAt (p g : Nat) : Nat := p + 64 + 384 * g
def groupFirst (c : Ctx) (p g : Nat) : Nat := c.readNat (groupAt p g) 4
def groupCount (c : Ctx) (p g : Nat) : Nat := c.readNat (groupAt p g + 4) 4
/-- Is core `n` a member of group `g`? -/
def groupHas (c : Ctx) (p g n : Nat) : Bool := bit (c.readNat (groupAt p g + 64 + n / 8) 1) (n % 8)
/-- Segments of a plan with its header and groups: the bytes before its segments. -/
def planSize (c : Ctx) (p : Nat) : Nat := 64 + 384 * planGroups c p

/-- Is the payload of the segment at `s` within its destination, for an application core (`app`) or another? -/
def segFits (c : Ctx) (s : Nat) (app : Bool) : Bool :=
  let len := c.readNat (s + 12) 2 % 8192
  let off := c.readNat (s + 8) 4
  let dram := bit (c.readNat (s + 6) 1) 1
  off + len ≤ (if app then 0x100000 else if dram then 0x8000 else 0x10000)

/-- The plan at `p` with segments at `s` obeys R520 and R653. -/
def planOk (c : Ctx) (p s : Nat) : Bool :=
  let n := planGroups c p
  let segs := c.readNat (p + 4) 4
  1 ≤ n && n ≤ 2094 &&
  (List.range n).all (fun g => groupFirst c p g + groupCount c p g ≤ segs) &&
  (List.range 2094).all (fun k => ((List.range n).filter (fun g => groupHas c p g k)).length ≤ 1) &&
  (List.range segs).all (fun i =>
    let a := s + 4128 * i
    let g := c.readNat (a + 4) 2
    let app := (List.range 24).any (fun k => groupHas c p g (2070 + k))
    let ram := (List.range 2070).any (fun k => groupHas c p g k)
    g < n && (!app || segFits c a true) && (!ram || segFits c a false))

/-- The plan and segments of a job's program section: the segments follow the plan. -/
def programPlan (c : Ctx) (b a : Nat) : Option (Nat × Nat) := (jeOff c b a 100).map (fun p => (p, p + planSize c p))

/-! ### Checks of R519 -/

/-- The areas obey R263 and R518: aligned, whole pages, apart, off the copies, at most one STAGING area. -/
def areasOk (l : List Area) : Bool :=
  l.all (fun x => x.base % 65536 == 0 && x.size % 65536 == 0 && x.base + x.size ≤ lpSize && !touchesCopies x.base x.size) &&
  (List.range l.length).all (fun i => (List.range i).all (fun j =>
    match l[i]?, l[j]? with
    | some x, some y => !overlaps x.base x.size y.base y.size
    | _, _ => true)) &&
  (l.filter (fun x => x.staging)).length ≤ 1

/-- The spill slices obey R303. -/
def spillsOk (areas : List Area) (l : List (Nat × Nat)) : Bool :=
  l.all (fun p => p.2 == 0 || areas.any (fun x => within p.1 p.2 x.base x.size && x.write && !x.sheaf && !x.staging && !x.host && !x.remote)) &&
  (List.range l.length).all (fun i => (List.range i).all (fun j =>
    match l[i]?, l[j]? with
    | some x, some y => !overlaps x.1 x.2 y.1 y.2
    | _, _ => true))

/-- A 32-bit row of the step table never decreases (R369). -/
def rowRises (c : Ctx) (a : Nat) : Bool := (List.range 9).all (fun i => c.readNat (a + 4 * i) 4 ≤ c.readNat (a + 4 * i + 4) 4)

/-- Transfers per microsecond of an LPDDR5X rate code (Table 06-3). -/
def rateOf (code : Nat) : Nat := [5500, 6400, 7500, 8533, 9600, 10667].getD code 0

/-- RECLAIM_LIMIT reaches the bound of R400: the T0 pool over the data bandwidth at RATE_MIN (15/16 of 256 bytes a transfer, R247, at 37.5
CLK_SLOW cycles a microsecond), and two steps of the longest worst case any class allows (log entry 31). -/
def reclaimOk (c : Ctx) (b s : Nat) : Bool :=
  let rate := rateOf (bits (c.readNat (sectionAt c b 4) 8) 3 3)
  let worst := ((List.range 4).map (fun k => c.readNat (s + 192 + 16 * k) 4)).foldl max 0
  5 * (c.readNat (s + 4) 4 % 2 ^ 24) * c.readNat (s + 12) 4 + 64 * rate * worst ≤ 32 * rate * c.readNat (s + 160) 4

/-- The serving section obeys R370. -/
def servingOk (c : Ctx) (b s : Nat) : Bool :=
  let dMax := bits (c.readNat s 1) 4 4
  let base := c.readNat (s + 32) 4 + c.readNat (s + 36) 4 + (1 + dMax) * c.readNat (s + 40) 4 + dMax * c.readNat (s + 80) 4 + c.readNat (s + 28) 4
  dMax ≤ 8 && reclaimOk c b s && rowRises c (s + 40) && rowRises c (s + 80) && rowRises c (s + 120) &&
  (List.range 4).all (fun k =>
    let e := s + 192 + 16 * k
    !(c.readNat (e + 4) 4 == 0 && c.readNat (e + 8) 4 == 0) && base ≤ c.readNat e 4)

/-- Every offset of a job entry lies within JOB_DATA (R517). -/
def offsetsOk (c : Ctx) (b a : Nat) : Bool :=
  let (o, n) := (findSection c b 0x0C).getD (0, 0)
  [96, 100, 104, 108, 112, 116].all (fun k => let f := c.readNat (a + k) 4; f == 0 || (o ≤ f && f < o + n))

/-- The group tables and programs of the furrow section at `f` lie in areas with WRITE set (R517). -/
def furrowOk (c : Ctx) (areas : List Area) (f : Nat) : Bool :=
  let parts := (List.range 4).foldl (fun l _ => l ++ [l.getLastD f + c.readNat (l.getLastD f + 48) 4]) [f]
  let inside (a n : Nat) : Bool := areasCover (fun x => x.write) areas 33 a n
  (List.range 4).all (fun d =>
    let p := parts.getD d 0
    inside (c.readNat (p + 8) 8 % 2 ^ 48) (64 * bits (c.readNat p 8) 33 7) &&
    [1, 2, 3, 4].all (fun k => let v := c.readNat (p + 8 + 8 * k) 8; inside (v % 2 ^ 48) (64 * (v / 2 ^ 48))))

/-- A job entry obeys R236, R263, R303, R370, R403, R517, R518 and R653. -/
def entryOk (c : Ctx) (b a : Nat) : Bool :=
  !jeValid c a ||
  (let areas := (jeOff c b a 96).elim [] (parseAreas c)
   let units := jeOff c b a 108
   let regions := (List.range 512).map (fun u => (units.elim 0 (fun p => c.readNat (p + 16 * u) 8), units.elim 0 (fun p => c.readNat (p + 16 * u + 8) 8)))
   jeStart c a ≤ 2 && jeVariant c a ≤ 2 && c.readNat (a + 16) 4 != 0 && offsetsOk c b a && areasOk areas &&
   (jeOff c b a 104).all (furrowOk c areas) &&
   regions.all (fun r => regionOk (parseRegion r.1)) && spillsOk areas (regions.map (fun r => spillSlice r.2)) &&
   (match jeOff c b a 112 with | some s => jeKind c a == 2 && servingOk c b s | none => true) &&
   (match programPlan c b a with | some (p, s) => planOk c p s | none => true))

/-- The MEMORY section's dies agree on RATE, RATE_MIN and ZONE_GIB (R247); TOPOLOGY and LINKS agree (R451). -/
def memoryOk (c : Ctx) (b : Nat) : Bool :=
  let m := sectionAt c b 4
  let v (d : Nat) : Nat × Nat := let x := c.readNat (m + 8 * d) 8; (bits x 0 6, bits x 8 12)
  (List.range 4).all (fun d => v d == v 0)

/-- TOPOLOGY's timers and ADMIT equal every die's in LINKS (R451). -/
def topologyOk (c : Ctx) (b : Nat) : Bool :=
  let t := sectionAt c b 7
  let l := sectionAt c b 6
  (List.range 4).all (fun d =>
    bit (c.readNat (t + 2) 1) 0 == bit (c.readNat (l + 24 * d) 1) 0 &&
    c.readNat (t + 8) 4 == c.readNat (l + 24 * d + 8) 4 &&
    c.readNat (t + 4) 4 == c.readNat (l + 24 * d + 16) 4 &&
    c.readNat (t + 12) 4 == c.readNat (l + 24 * d + 20) 4)

/-- The checks of stage 4 on an image at `b` (R519): every digest, every job entry, MEMORY, TOPOLOGY, every load plan. -/
def imageOk (c : Ctx) (b : Nat) : Bool :=
  (List.range (imgSections c b)).all (secDigestOk c b) && (List.range 64).all (fun i => entryOk c b (jobEntry c b i)) &&
  memoryOk c b && topologyOk c b && planOk c (sectionAt c b 9) (sectionAt c b 0x0A) &&
  (match findSection c b 0x0D with
   | some (o, _) => planOk c (b + o) (b + o + planSize c (b + o))
   | none => true)

end Sys2Proof.Machine
end

