-- ==== Sys2Proof/Machine/Sequencer.lean ====
section
/-!
DEFINITION. The sequencer of a SERVE job as shared operations (chapter 10): costs, step-record batches, the end of a request,
pausing through the tiers, admission and resumption.
-/
namespace Sys2Proof.Machine

/-- The sequencer's books. -/
def Ctx.srv (c : Ctx) : SrvSt := c.dev.srv
def Ctx.updSrv (c : Ctx) (f : SrvSt → SrvSt) : Ctx := { c with dev := { c.dev with srv := f c.dev.srv } }
/-- The request with an ID that is not final. -/
def Ctx.req? (c : Ctx) (id : Nat) : Option Req := c.dev.srv.reqs.find? (fun r => r.id == id)
/-- Change the request with an ID. -/
def Ctx.updReq (c : Ctx) (id : Nat) (f : Req → Req) : Ctx :=
  c.updSrv (fun s => { s with reqs := s.reqs.map (fun r => if r.id = id then f r else r) })
/-- The next order stamp: its value, and the context after. -/
def Ctx.stamp (c : Ctx) : Nat × Ctx := (c.srv.stamp, c.updSrv (fun s => { s with stamp := s.stamp + 1 }))

/-- Does the sequencer take actions: a SERVE job runs on (R367), its work not yet stopped? -/
def seqRuns (c : Ctx) : Bool :=
  c.dev.job.kind == 2 && c.dev.job.running && c.dev.job.released && !c.dev.job.stopped && !c.dev.safe.safe

/-- The class entry. -/
def classOf (c : Ctx) (k : Nat) : ClassSt := c.srv.classes.getD k {}

/-! ### Worst cases (R371) -/

/-- Length bucket: the smallest b of 0–9 with L ≤ 256 · 2^b. -/
def bucket (l : Nat) : Nat := ((List.range 10).find? (fun b => decide (l ≤ 256 * 2 ^ b))).getD 9

/-- One row entry of the step table. -/
def decodeToken (c : Ctx) (b : Nat) : Nat := c.srv.decodeToken.getD b 0
def draftToken (c : Ctx) (b : Nat) : Nat := c.srv.draftToken.getD b 0
def prefillToken (c : Ctx) (b : Nat) : Nat := c.srv.prefillToken.getD b 0

/-- Cost of a decode entry with d drafts at length L. -/
def decodeCost (c : Ctx) (d l : Nat) : Nat := (1 + d) * decodeToken c (bucket l) + d * draftToken c (bucket l)

/-- Distinct variants. -/
def distinct (l : List Nat) : Nat := l.eraseDups.length

/-- Largest draft count of a request: D_MAX with SPEC set. -/
def dMaxOf (c : Ctx) (r : Req) : Nat := if r.spec then c.srv.dMax else 0

/-- Committed cost of a set of requests. -/
def committedCost (c : Ctx) (l : List Req) : Nat :=
  c.srv.stepBase + c.srv.variantCost * distinct (l.map (fun r => r.variant)) + (l.map (fun r => decodeCost c (dMaxOf c r) r.maxLen)).sum

/-- Deadline of a set of requests: the least STEP_DEADLINE over their classes; none for an empty set. -/
def deadlineOf (c : Ctx) : List Req → Option Nat
  | [] => none
  | r :: t =>
    let d := (classOf c r.cls).deadline
    match deadlineOf c t with
    | none => some d
    | some e => some (min d e)

/-! ### Admission (R374, R380) -/

/-- T0 blocks a request reserves (R374). -/
def reservation (c : Ctx) (r : Req) : Nat := if c.srv.role = 1 then (r.promptLen + 16) / 16 else (r.maxLen + 15) / 16
/-- The admitted set. -/
def admittedSet (c : Ctx) : List Req := c.srv.reqs.filter (fun r => r.admitted)
/-- Reservations of a list of requests. -/
def reserved (c : Ctx) (l : List Req) : Nat := (l.map (reservation c)).sum

/-- The variant and the tenant of a request. -/
def variantOf (c : Ctx) (v : Nat) : VariantSt := Tab.get {} c.srv.variants v
def tenantOf (c : Ctx) (t : Nat) : TenantSt := Tab.get {} c.srv.tenants t

/-- R380 for request `r` beside the set `a`, `ghosts` the final requests whose slot and cache are still read. `marks` says whether
an OVER_QUOTA mark refuses it. -/
def admits (c : Ctx) (marks : Bool) (ghosts a : List Req) (r : Req) : Bool :=
  let all := r :: a
  let v := variantOf c r.variant
  let t := tenantOf c r.tenant
  (c.srv.role == 1 || decide (committedCost c all + c.srv.prefillReserve ≤ (deadlineOf c all).getD 0)) &&
  a.length + ghosts.length < 8192 && reserved c all + reserved c ghosts ≤ c.srv.t0Blocks &&
  !(marks && (v.overQuota || t.overQuota)) &&
  reserved c (all.filter (fun x => x.variant == r.variant)) ≤ v.quota &&
  reserved c (all.filter (fun x => x.tenant == r.tenant)) ≤ t.quota

/-! ### Step records (R377, R378, R568) -/

/-- A 16-byte entry of Table 10-6. -/
def recordEntry (id token kind st reason pos : Nat) : List Byte :=
  toBytes 4 id ++ toBytes 4 token ++ [BitVec.ofNat 8 kind, BitVec.ofNat 8 st, BitVec.ofNat 8 reason, 0] ++ toBytes 4 pos

/-- An entry joins the batch due to a destination. -/
def emit (dest destPkg : Nat) (bytes : List Byte) (c : Ctx) : Ctx :=
  c.updSrv (fun s => { s with batch := s.batch ++ [{ dest := dest, destPkg := destPkg, bytes := bytes }] })

/-- The REPLY to an input record. -/
def reply (src : Source) (id opcode status : Nat) (c : Ctx) : Ctx :=
  match src with
  | .pair q => emit q 0 (recordEntry id opcode 3 status 0 0) c
  | .frontEnd pkg => emit 8 pkg (recordEntry id opcode 3 status 0 0) c

/-- Bytes of ring `q` not yet read, and its size. -/
def ringUsed (p : QPair) : Nat := (p.write + 2 ^ 32 - p.read) % 2 ^ 32
def ringSize (p : QPair) : Nat := 2 ^ p.rsizeLog2
/-- The free space of ring `q` (R568): its empty bytes less the reserve. -/
def ringFree (c : Ctx) (q : Nat) : Nat :=
  let p := c.pair q
  ringSize p - ringUsed p - 16 * (c.srv.reqs.filter (fun r => r.dest == q)).length

/-- Does ring `q` take batches: enabled, or its drain running (R570)? -/
def ringOpen (c : Ctx) (q : Nat) : Bool := (c.pair q).enable || c.dev.job.drains.any (fun d => d.fn == .pair q)

/-- Write bytes into a ring from index `i`, wrapping byte by byte. -/
def ringWrite (p : QPair) : Nat → List Byte → Ctx → Ctx
  | _, [], c => c
  | i, b :: t, c => ringWrite p (i + 1) t (c.write (queueRam + (p.rbase + i % ringSize p) % queueRamSize) [b])

/-- Function that owns pair `q`, and its vector (R566, Table 17-6). -/
def ownerOf (c : Ctx) (q : Nat) : Nat × Nat := if c.dev.stw.numVfs > q then (q + 1, 0) else (0, 3 + q)

/-- The 32-byte header of a batch (Table 10-6). -/
def batchHeader (c : Ctx) (n : Nat) (event : Bool) : List Byte :=
  toBytes 8 c.dev.job.step ++ toBytes 4 n ++ toBytes 4 c.dev.boot.pkg ++ toBytes 4 c.dev.epoch ++ toBytes 12 (b2n event)

/-- Write one destination's batch: every byte before WRITE advances, WRITE before the event (R569). -/
def writeBatch (event : Bool) (dest destPkg : Nat) (l : List BatchEntry) (c : Ctx) : Ctx :=
  let data := batchHeader c l.length event ++ l.flatMap (fun e => e.bytes)
  if dest = 8 then c.send (.batch destPkg data)
  else if !ringOpen c dest then c
  else
    let p := c.pair dest
    let c1 := (ringWrite p p.write data c).updPair dest (fun x => { x with write := (x.write + data.length) % 2 ^ 32 })
    let (fn, v) := ownerOf c dest
    msix fn v (irqRaise dest c1)

/-- Does a batch of `n` entries fit the ring's empty bytes? -/
def batchFits (c : Ctx) (dest n : Nat) : Bool :=
  dest == 8 || !ringOpen c dest || decide (32 + 16 * n ≤ ringSize (c.pair dest) - ringUsed (c.pair dest))

/-- Write the batches due, one to each destination; one that its ring has no room for stays due (log entry 40). -/
def flushBatch (event : Bool) (c : Ctx) : Ctx :=
  let dests := (c.srv.batch.map (fun e => (e.dest, e.destPkg))).eraseDups
  dests.foldl (fun a d =>
    let mine := a.srv.batch.filter (fun e => e.dest == d.1 && e.destPkg == d.2)
    if batchFits a d.1 mine.length then
      writeBatch event d.1 d.2 mine (a.updSrv (fun s => { s with batch := s.batch.filter (fun e => !(e.dest == d.1 && e.destPkg == d.2)) }))
    else a) c

/-- Write now what is due to the rings that satisfy `p`: their last batch (R401, R570). -/
def flushRings (p : Nat → Bool) (c : Ctx) : Ctx :=
  let mine := c.srv.batch.filter (fun e => p e.dest)
  let c1 := flushBatch true (c.updSrv (fun s => { s with batch := mine }))
  c1.updSrv (fun s => { s with batch := s.batch ++ c.srv.batch.filter (fun e => !p e.dest) })

/-- End of a sequencer action: with no step in flight what is due goes out as an event batch (R377). -/
def actionEnd (c : Ctx) : Ctx := if c.srv.plan.isNone then flushBatch true c else c

/-! ### The end of a request (R378, R395, R396) -/

/-- Remember a final request or a forwarding, the oldest of 4,096 replaced first. -/
def ledgerAdd (e : LedgerEntry) (c : Ctx) : Ctx :=
  c.updSrv (fun s =>
    let l := s.ledger ++ [e]
    { s with ledger := l.drop (l.length - 4096) })

/-- Is the request in the step in flight? -/
def inPlan (c : Ctx) (id : Nat) : Bool :=
  match c.srv.plan with
  | some p => p.decodes.any (fun e => e.1 == id) || p.chunks.any (fun e => e.1 == id)
  | none => false

/-- Address of T2 slot `s`: in the host buffer, or in the neighbour's area (Table 15-9). -/
def t2Addr (c : Ctx) (s : Nat) : Nat :=
  (if c.srv.t2Form = 0 then c.srv.t2Target else c.srv.t2Target / 2 ^ 32 * 65536) + s * c.srv.blockBytes
/-- The package that holds T2: none for the host. -/
def t2Pkg (c : Ctx) : Option Nat := if c.srv.t2Form = 0 then none else some (c.srv.t2Target % 2 ^ 18)

/-- Free the T2 blocks of a request, those on their way too: a neighbour frees each by its own free request (R276). -/
def t2Release (r : Req) (c : Ctx) : Ctx :=
  match t2Pkg c with
  | some pkg => r.t2.foldl (fun a s => a.send (.t2Free pkg (t2Addr a s))) c
  | none => c

/-- Take a request out of the books: its T1 and T2 blocks are freed; a step in flight that reads its cache keeps its slot. -/
def dropReq (r : Req) (c : Ctx) : Ctx :=
  let stays := inPlan c r.id
  let c1 := c.updSrv (fun s =>
    { s with
      reqs := s.reqs.filter (fun x => x.id != r.id)
      leaving := if stays then s.leaving ++ [r] else s.leaving
      plan := s.plan.map (fun p =>
        { p with decodes := p.decodes.filter (fun e => e.1 != r.id), chunks := p.chunks.filter (fun e => e.1 != r.id) }) })
  quotaCheck (t2Release r c1)

/-- A request becomes final: its one FINAL entry, its ledger entry, its place freed. -/
def finalize (r : Req) (st reason : Nat) (c : Ctx) : Ctx :=
  dropReq r (ledgerAdd { id := r.id, state := st, forward := none }
    (emit r.dest r.destPkg (recordEntry r.id 0xFFFFFFFF 1 st reason r.emitted) c))

/-! ### Tiers (R387–R389) -/

/-- Blocks in T2, and those on their way there. -/
def t2Used (c : Ctx) : Nat :=
  ((c.srv.reqs.filter (fun r => r.tier == 2 || r.moving == some 2)).map (fun r => r.blocks)).sum

/-- May moves to and from T2 start: a neighbour, or the host while the physical function masters the bus and is in service (R574, R575)? -/
def t2Reach (c : Ctx) : Bool := c.srv.t2Form == 1 || (c.dev.stw.busMaster && !isDisabled c (.pcie 0))

/-- Has T2 room for `n` more blocks? -/
def t2Room (c : Ctx) (n : Nat) : Bool := t2Reach c && t2Used c + n ≤ c.srv.t2Blocks

/-- Does a move of the request's blocks to or from T2 host run? -/
def hostMoves (c : Ctx) (r : Req) : Bool := c.srv.t2Form == 0 && (r.moving == some 2 || (r.tier == 2 && r.moving.isSome))

/-- Blocks leaving T1 for T2. -/
def t1Going (c : Ctx) : Nat := ((c.srv.reqs.filter (fun r => r.tier == 1 && r.moving == some 2)).map (fun r => r.blocks)).sum

/-- T1 blocks free once its outward moves end: none while the job is OVER_QUOTA (R425). -/
def t1Free (c : Ctx) : Nat := if c.dev.job.overQuota then 0 else c.srv.t1Blocks + t1Going c - t1Blocks c

/-- The port that VC6 traffic of the sequencer for a package leaves by (R452). -/
def viaPort (c : Ctx) (pkg : Nat) : Option Nat := (route c 0 pkg c.dev.boot.pkg).map (fun p => p.1)

/-- The first T2 slot from `s` on, around the tier, that `used` does not list; `k + 1` are tried. -/
def freeSlot (n : Nat) (used : List Nat) : Nat → Nat → Nat
  | 0, s => s % n
  | k + 1, s => if used.contains (s % n) then freeSlot n used k (s + 1) else s % n

/-- T2 slots for `n` more blocks. Which of the free ones a block takes the spec leaves open: a free choice (log entry 131). -/
def takeSlots : Nat → List Nat → Ctx → List Nat × Ctx
  | 0, _, c => ([], c)
  | n + 1, used, c =>
    let (k, c1) := c.draw 1
    let s := freeSlot c.srv.t2Blocks used used.length (Config.freeNat k)
    let (l, c2) := takeSlots n (s :: used) c1
    (s :: l, c2)

/-- Start a move of a request's cache into a tier; the tier's time to live starts (R388). A move to T2 takes its slots there. -/
def startMove (id tier : Nat) (c : Ctx) : Ctx :=
  let (n, c1) := c.stamp
  let blocks := (c1.req? id).elim 0 (fun r => r.blocks)
  let away := match t2Pkg c with | some pkg => if tier = 2 || (c1.req? id).any (fun r => r.tier == 2) then viaPort c pkg else none | none => none
  let (slots, c2) := if tier = 2 then takeSlots blocks (c1.srv.reqs.flatMap (fun r => r.t2)) c1 else ([], c1)
  (c2.updReq id (fun r =>
    { r with
      moving := some tier, since := if tier = 0 then r.since else c.dev.slow, expired := false, movedAt := n, via := away
      t2 := if tier = 2 then slots else r.t2 })).send (.move id tier)

/-- Is a T1 cache a candidate to move on: it rests there, paused? -/
def t1Resting (r : Req) : Bool := r.tier == 1 && r.moving.isNone && r.state == 4

/-- Cycles until a T1 cache expires. -/
def t1Left (c : Ctx) (r : Req) : Nat := r.since + (classOf c r.cls).ttl1 - c.dev.slow

/-- The T1 cache whose expiry is nearest. -/
def nearestT1 (c : Ctx) : List Req → Option Req
  | [] => none
  | r :: t => match nearestT1 c t with
    | none => some r
    | some x => if t1Left c r ≤ t1Left c x then some r else some x

/-- Move a cache on from T1 to T2, or free it with `FIN_NO_ROOM` where T2 has no room or its class skips T2 (R389). -/
def moveOn (r : Req) (c : Ctx) : Ctx :=
  if (classOf c r.cls).ttl2 ≠ 0 && t2Room c r.blocks then startMove r.id 2 c else finalize r 7 0x12 c

/-- Make T1 room for `need` blocks: caches nearest their expiry move on until their blocks suffice (R389). The blocks still missing,
and the context after. -/
def makeT1Room : Nat → Nat → Ctx → Nat × Ctx
  | 0, need, c => (need, c)
  | fuel + 1, need, c =>
    if need = 0 then (0, c)
    else match nearestT1 c (c.srv.reqs.filter t1Resting) with
      | none => (need, c)
      | some r => makeT1Room fuel (need - r.blocks) (moveOn r c)

/-- A request leaves the engine: its slot, reservation and cost are released. -/
def leaveResident (id : Nat) (c : Ctx) : Ctx := c.updReq id (fun r => { r with admitted := false, urgent := false })

/-- Pause a request at once (R387): without cache it takes effect now; else its cache moves to T1, or to T2 where its class skips
T1; with no room anywhere the request ends `EXPIRED` with `FIN_NO_ROOM` (R389). -/
def pauseNow (r : Req) (runnable : Bool) (c : Ctx) : Ctx :=
  let (n, c0) := c.stamp
  let c1 := c0.updReq r.id (fun x => { x with state := 4, pausedAt := n, runnable := runnable && !x.turnOver, pauseDue := false })
  if r.blocks = 0 then leaveResident r.id c1
  else if (classOf c r.cls).ttl1 ≠ 0 then
    let (missing, c2) := makeT1Room (c1.srv.reqs.length) (r.blocks - t1Free c1) c1
    if missing = 0 then quotaCheck (startMove r.id 1 c2) else moveOn { r with state := 4 } c2
  else moveOn { r with state := 4 } c1

/-- Pause a request under R382, R389, R390 or R400, after the commit of a step that includes it. -/
def pauseReq (runnable : Bool) (r : Req) (c : Ctx) : Ctx :=
  if inPlan c r.id then c.updReq r.id (fun x => { x with pauseDue := true }) else pauseNow r runnable c

/-- Is a pause of the request under way or due? -/
def pausing (r : Req) : Bool := r.state == 4 || r.pauseDue

/-- May the request be paused by priority: admitted, not in `MOVE` or `SHIP`? -/
def pausable (r : Req) : Bool := r.admitted && !pausing r && !(r.state == 3 && (r.cause == 0 || r.cause == 3))

/-! ### Order (R381–R383, R390) -/

/-- Insert by a key, ascending; equal keys keep their order. -/
def insBy (key : Req → Nat) (x : Req) : List Req → List Req
  | [] => [x]
  | y :: t => if key x ≤ key y then x :: y :: t else y :: insBy key x t
/-- Sort by a key, ascending. -/
def sortBy (key : Req → Nat) : List Req → List Req
  | [] => []
  | x :: t => insBy key x (sortBy key t)

/-- Highest class first and, within a class, latest admitted first. -/
def byPriority (l : List Req) : List Req := (sortBy (fun r => r.cls) (sortBy (fun r => r.admittedAt) l)).reverse
/-- Highest class first and, within a class, longest since its last step first. -/
def byIdle (l : List Req) : List Req :=
  (List.range 4).reverse.flatMap (fun k => sortBy (fun r => r.steppedAt) (l.filter (fun r => r.cls == k)))

/-- Does the request decode elsewhere? -/
def decodesAway (c : Ctx) (r : Req) : Bool := !r.isLocal && r.decodePkg != c.dev.boot.pkg && r.hand != 6 && r.hand != 7

/-- Admit a queued request (Table 10-8). A record held for a prefill package is admitted already (R386). -/
def admitReq (r : Req) (c : Ctx) : Ctx :=
  let (n, c1) := c.stamp
  c1.updReq r.id (fun x => { x with admitted := true, admittedAt := n, state := 1, tier := 0 })

/-- Resume a paused request: its cache moves up to T0 (Table 10-8). One without cache goes on at once. -/
def resumeReq (r : Req) (c : Ctx) : Ctx :=
  let (n, c1) := c.stamp
  let c2 := c1.updReq r.id (fun x => { x with admitted := true, admittedAt := n, runnable := false })
  if r.blocks = 0 then
    c2.updReq r.id (fun x => { x with state := if r.hand = 6 then 0 else 1, tier := 0 })
  else startMove r.id 0 (c2.updReq r.id (fun x => { x with state := 3, cause := 0 }))

/-- Send the RESERVE of the first queued request, unless one is out (R386). -/
def sendReserve (r : Req) (c : Ctx) : Ctx :=
  if r.hand ≠ 0 then c
  else
    let m : Reserve := { req := r.id, cls := r.cls, variant := r.variant, tenant := r.tenant, spec := r.spec, converse := r.converse,
                         sample := r.sample, stops := r.stops, maxLen := r.maxLen, maxNew := r.maxNew, dest := r.dest, destPkg := r.destPkg }
    (c.send (.reserve r.decodePkg m)).updReq r.id (fun x => { x with hand := 1 })

/-- The shortest leading run whose pause would admit the request: its length (R382). -/
def leadingRun (c : Ctx) (a cand : List Req) (r : Req) : Option Nat :=
  (List.range (cand.length + 1)).find? (fun k =>
    let run := cand.take k
    admits c true c.srv.leaving (a.filter (fun x => !run.any (fun y => y.id == x.id))) r)

/-- Resume the runnable paused requests of a class in the order in which they were paused (R383). -/
def resumeClass (k : Nat) (c : Ctx) : Ctx :=
  let l := sortBy (fun r => r.pausedAt)
    (c.srv.reqs.filter (fun r => r.cls == k && r.state == 4 && r.runnable && !r.admitted && r.moving.isNone && (r.tier != 2 || t2Reach c)))
  l.foldl (fun a r => if admits a true a.srv.leaving (admittedSet a) r then resumeReq r a else a) c

/-- Consider one queued request: the context after, and whether it holds back those behind it (R381, R382). -/
def considerQueued (r : Req) (c : Ctx) : Ctx × Bool :=
  if decodesAway c r && r.hand ≠ 2 then (sendReserve r c, true)
  else if admits c true c.srv.leaving (admittedSet c) r then (admitReq r c, false)
  else
    let a := (admittedSet c).filter (fun x => !pausing x)
    let cand := byPriority (a.filter (fun x => decide (r.cls < x.cls) && pausable x))
    match leadingRun c a cand r with
    | some k => ((cand.take k).foldl (fun b x => pauseReq true x b) c, true)
    | none => (c, true)

/-- Consider queued requests in order until one is held. -/
def considerAll : List Req → Ctx → Ctx × Bool
  | [], c => (c, false)
  | r :: t, c =>
    let (c1, held) := considerQueued r c
    if held then (c1, true) else considerAll t c1

/-- Queued requests of a class in order of acceptance. -/
def queuedOf (c : Ctx) (k : Nat) : List Req :=
  sortBy (fun r => r.acceptedAt) (c.srv.reqs.filter (fun r => r.cls == k && r.state == 0 && !r.admitted))

/-- Resume and admit class by class (R381–R383): a request held back holds back the queued ones of higher-numbered classes, whose paused
ones are resumed all the same. -/
def admitFrom : List Nat → Bool → Ctx → Ctx
  | [], _, c => c
  | k :: rest, held, c =>
    let c1 := resumeClass k c
    let (c2, h) := if held then (c1, true) else considerAll (queuedOf c1 k) c1
    admitFrom rest h c2

/-- The request R390 chooses: lowest class first, then earliest paused or accepted. -/
def chooseIdle (c : Ctx) : Option Req :=
  let l := c.srv.reqs.filter (fun r =>
    (r.state == 0 && !r.admitted && !(decodesAway c r && r.hand != 2)) || (r.state == 4 && r.runnable && !r.admitted && r.moving.isNone && (r.tier != 2 || t2Reach c)))
  let when (r : Req) : Nat := if r.state = 4 then r.pausedAt else r.acceptedAt
  (sortBy (fun r => r.cls) (sortBy when l)).head?

/-- R390: with no resident request `READY` or `PREFILL`, blocked residents are paused until R380 admits the chosen request. -/
def idlePass (c : Ctx) : Ctx :=
  if c.srv.reqs.any (fun r => r.admitted && (r.state == 1 || r.state == 2)) then c
  else match chooseIdle c with
    | none => c
    | some r =>
      if admits c true c.srv.leaving (admittedSet c) r then (if r.state = 4 then resumeReq r c else admitReq r c)
      else
        let a := (admittedSet c).filter (fun x => !pausing x)
        let cand := byIdle (a.filter (fun x => x.state == 3 && pausable x))
        let k := (leadingRun c a cand r).getD cand.length
        (cand.take k).foldl (fun b x => pauseReq true x b) c

/-- Does a holder's use exceed its quota (R398)? -/
def holderUse (c : Ctx) (p : Req → Bool) : Nat := reserved c ((admittedSet c).filter p)

/-- Clear OVER_QUOTA and end the reclaim of holders whose use is within quota (R399, R400). -/
def settleQuotas (c : Ctx) : Ctx :=
  c.updSrv (fun s =>
    { s with
      variants := s.variants.map (fun p =>
        if p.2.overQuota && holderUse c (fun r => r.variant == p.1) ≤ p.2.quota then (p.1, { p.2 with overQuota := false, reclaim := none }) else p)
      tenants := s.tenants.map (fun p =>
        if p.2.overQuota && holderUse c (fun r => r.tenant == p.1) ≤ p.2.quota then (p.1, { p.2 with overQuota := false, reclaim := none }) else p) })

/-- Requests of a holder. -/
def ofHolder (h : Holder) (r : Req) : Bool := match h with | .variant v => r.variant == v | .tenant t => r.tenant == t
/-- Quota of a holder, its image value, and its reclaim. -/
def holderQuota (c : Ctx) (h : Holder) : Nat := match h with | .variant v => (variantOf c v).quota | .tenant t => (tenantOf c t).quota
def holderImage (c : Ctx) (h : Holder) : Nat := match h with | .variant v => (variantOf c v).image | .tenant t => (tenantOf c t).image
def holderReclaim (c : Ctx) (h : Holder) : Option (Nat × Bool) :=
  match h with | .variant v => (variantOf c v).reclaim | .tenant t => (tenantOf c t).reclaim
/-- Set a holder's quota, mark and reclaim. -/
def setHolder (h : Holder) (quota : Nat) (mark : Bool) (rec : Option (Nat × Bool)) (c : Ctx) : Ctx :=
  match h with
  | .variant v => c.updSrv (fun s => { s with variants := Tab.upd {} s.variants v (fun x => { x with quota := quota, overQuota := mark, reclaim := rec }) })
  | .tenant t => c.updSrv (fun s => { s with tenants := Tab.upd {} s.tenants t (fun x => { x with quota := quota, overQuota := mark, reclaim := rec }) })

/-- Is the holder marked OVER_QUOTA (R399)? -/
def holderOver (c : Ctx) (h : Holder) : Bool := match h with | .variant v => (variantOf c v).overQuota | .tenant t => (tenantOf c t).overQuota

/-- Pause a holder's requests, their moves ahead of every other, until its use less what is leaving is within quota (R400). -/
def reclaimFrom (h : Holder) : List Req → Nat → Ctx → Ctx
  | [], _, c => c
  | r :: t, pending, c =>
    if holderUse c (ofHolder h) - pending ≤ holderQuota c h then c
    else reclaimFrom h t (pending + reservation c r) (pauseReq true r (c.updReq r.id (fun x => { x with urgent := true })))

/-- Bring an OVER_QUOTA holder within quota (R400). A request in MOVE or SHIP finishes its move first; the action that ends it comes here
again. -/
def reclaim (h : Holder) (c : Ctx) : Ctx :=
  if !holderOver c h then c
  else
    let mine := (admittedSet c).filter (ofHolder h)
    reclaimFrom h (byPriority (mine.filter pausable)) (reserved c (mine.filter pausing)) c

/-- Every holder's reclaim. -/
def reclaimAll (c : Ctx) : Ctx :=
  let hs := ((c.srv.variants.filter (fun p => p.2.overQuota)).map (fun p => Holder.variant p.1)) ++
    ((c.srv.tenants.filter (fun p => p.2.overQuota)).map (fun p => Holder.tenant p.1))
  hs.foldl (fun a h => reclaim h a) c

/-- What the sequencer considers at the end of an action: quotas, resumption and admission, the idle engine. -/
def consider (c : Ctx) : Ctx :=
  let c1 := settleQuotas c
  if c1.dev.job.ending then c1 else idlePass (admitFrom [0, 1, 2, 3] false (reclaimAll c1))

/-- The same, and the records of the action. -/
def schedule (c : Ctx) : Ctx := actionEnd (consider c)

end Sys2Proof.Machine
end

