-- ==== Sys2Proof/Machine/Loading.lean ====
section
/-!
DEFINITION. Loading the cores (R520–R522, R653) and the unit reset (R50, R118, R240, R309, R599).
-/
namespace Sys2Proof.Machine

/-! ### Unit reset -/

/-- A unit reset begins: engines and cores of the unit stop (R599). While a partial reset of its die or a reset of the package runs the
request is absorbed (R51). -/
def unitResetStart (u : Nat) (c : Ctx) : Ctx :=
  if resetHeld c || decide ((c.die (dieOfUnit u)).preset ≠ 0) then c else c.updUnit u (fun x => { x with resetting := true })

/-- Reset of a control core: registers, machine-mode state and both RAMs zero, held until loaded (R50). -/
def coreCleared (core : Nat) (c : Ctx) : Ctx := (c.updCore core (fun _ => {})).zero (coreRam core) (2 ^ 17)

/-- Zero a unit's tile registers (R279). -/
def tileZero (u : Nat) (c : Ctx) : Ctx := c.zero (trBase u) (2 ^ 20)

/-- Zero and unpoison a unit's seedbed region (R240). -/
def seedbedZero (u : Nat) (c : Ctx) : Ctx :=
  let (b, n) := seedbed c u
  (forAll (wordsOf b n) clearWord c).zero b n

/-- Zero and unpoison a unit's whole memory (R483). -/
def umZero (u : Nat) (c : Ctx) : Ctx :=
  let b := umBase u
  ({ c with dev := { c.dev with
      poison := c.dev.poison.filter (fun a => !(b ≤ a && a < b + umSize))
      errs := c.dev.errs.filter (fun p => !(b ≤ p.1 && p.1 < b + umSize)) } }).zero b umSize

/-- Take a unit into service at the package's epoch: its memory is zeroed first (R65, R483). -/
def admitUnit (u : Nat) (c : Ctx) : Ctx := (umZero u c).updUnit u (fun x => { x with admitted := true, epoch := c.dev.epoch })

/-- Take every unit that waits for it into service (R483). -/
def admitAll (c : Ctx) : Ctx :=
  forAll ((c.dev.units.filter (fun p => !p.2.admitted && !p.2.retired && !p.2.resetting)).map (fun p => p.1)) admitUnit c

/-- The dies and the units in service are admitted at the package's epoch: their copies move with it (R65). -/
def epochAll (c : Ctx) : Ctx :=
  forAll (List.range 4) (fun d a => if (a.die d).preset = 0 then a.updDie d (fun x => { x with epoch := c.dev.epoch }) else a)
    (forAll (List.range 512) (fun u a => if (a.unit u).admitted then a.updUnit u (fun x => { x with epoch := c.dev.epoch }) else a) c)

/-- CLK_URESET of die `d` (R599): refused for a unit in service while a job runs or ends; an enclosing reset absorbs it (R51). -/
def clkUresetOp (d v : Nat) (c : Ctx) : Ctx :=
  if !bit v 7 || resetHeld c then c
  else
    let u := 128 * d + v % 128
    if c.dev.job.running && !(c.unit u).retired then c.updDie d (fun x => { x with uresetRefused := true })
    else
      unitResetStart u (c.updDie d (fun x => { x with uresetRefused := false }))

/-! ### Loaders -/

/-- Can the core be loaded: not in a retired unit, not held out by the defect list (R520, R525)? -/
def loadable (c : Ctx) (n : Nat) : Bool :=
  (n ≥ 2048 || !(c.unit (unitOfCore n)).retired) && (c.core n).load != .defective &&
  !(c.dev.boot.inForce ++ c.dev.boot.heldOut).any (fun e => e.kind == 4 && e.index == n)

/-- The group of a core in the plan at `p` (R520). -/
def groupOf (c : Ctx) (p n : Nat) : Option Nat := (List.range (planGroups c p)).find? (fun g => groupHas c p g n)

/-- Where a loaded core starts: an application core at offset 0 of its boot window (R555), any other at 0 of its instruction RAM. -/
def entryPc (n : Nat) : Word64 := if 2070 ≤ n then BitVec.ofNat 64 (bootWindow (n - 2070)) else 0

/-- Start the loader of core `n` from the plan at `p` with segments at `s`: drill first when METHOD is 0, else glean (R522). -/
def loadStart (p s : Nat) (glean : Bool) (n : Nat) (c : Ctx) : Ctx :=
  match groupOf c p n with
  | none => c
  | some g =>
    if !loadable c n then c
    else
      let m := c.readNat p 1
      let l : Loader := { plan := p, segs := s, group := g, since := c.dev.slow, gleaning := glean || m = 1, active := true }
      (c.updCore n (fun k => { k with load := .loading })).updBoot (fun b => { b with loaders := Tab.set b.loaders n l })

/-- At a job's start the loads of a unit's control cores follow its reset (R408). -/
def unitLoads (u : Nat) (c : Ctx) : Ctx :=
  match programPlan c (imgBase c) (jobEntry c (imgBase c) c.dev.job.index) with
  | some (p, s) =>
    if c.dev.job.running && !c.dev.job.released && !c.dev.job.ending && !(c.unit u).retired then
      forAll [4 * u, 4 * u + 1, 4 * u + 2, 4 * u + 3] (loadStart p s false) c
    else c
  | none => c

/-- UNIT_RESET_COMPLETE (R50, R118, R240, R309); at a job's start the loads of the unit's control cores follow (R408). -/
def unitResetCompleteOp (u : Nat) (c : Ctx) : Ctx :=
  if !(c.unit u).resetting || (c.die (dieOfUnit u)).preset = 1 then c
  else
    let c1 := tileZero u (seedbedZero u c)
    let c2 := forAll [4 * u, 4 * u + 1, 4 * u + 2, 4 * u + 3] coreCleared c1
    let c3 := c2.updUnit u UnitSt.cleared
    unitLoads u (c3.updBoot (fun b => { b with loaders := b.loaders.filter (fun p => p.1 / 4 != u) }))

/-- The loader of a core. -/
def Ctx.loader (c : Ctx) (n : Nat) : Loader := Tab.get {} c.dev.boot.loaders n
def Ctx.updLoader (c : Ctx) (n : Nat) (f : Loader → Loader) : Ctx :=
  c.updBoot (fun b => { b with loaders := Tab.set b.loaders n (f (c.loader n)) })

/-- Is the loader of core `n` at work: its core's reset over? -/
def loaderRuns (c : Ctx) (n : Nat) : Bool :=
  (c.loader n).active && !(decide (n < 2048) && (c.unit (unitOfCore n)).resetting) &&
  (!c.dev.safe.safe || c.dev.safe.leaving)

/-- Key of byte `off` of a core's destination (Table 15-8). -/
def loadKey (n : Nat) (dram : Bool) (off : Nat) : Nat :=
  if 2070 ≤ n then bootWindow (n - 2070) + off else coreRam n + (if dram then 0x10000 else 0) + off

/-- Is the CRC of a segment good (Table 15-8)? -/
def segCrcOk (b : List Byte) : Bool :=
  let len := ofBytes ((b.drop 12).take 2) % 8192
  ofBytes ((b.drop 28).take 4) == crc32c (b.take 28 ++ (b.drop 32).take len)

/-- Write a good segment's payload into core `n`'s RAM and remember it. -/
def segTake (n : Nat) (b : List Byte) (c : Ctx) : Ctx :=
  let seq := ofBytes (b.take 4)
  let dram := bit (ofBytes ((b.drop 6).take 1)) 1
  let off := ofBytes ((b.drop 8).take 4)
  let len := ofBytes ((b.drop 12).take 2) % 8192
  let key := loadKey n dram off
  (c.write key ((b.drop 32).take len)).updLoader n (fun l =>
    { l with got := if l.got.any (fun p => p.1 == seq) then l.got else l.got ++ [(seq, key, len)] })

/-- The other loaders of a plan that take the broadcast with the loader of core `n`. -/
def drillPeers (c : Ctx) (n : Nat) : List Loader :=
  let l := c.loader n
  (c.dev.boot.loaders.filter (fun p => p.1 != n && p.2.active && !p.2.gleaning && p.2.plan == l.plan)).map (fun p => p.2)

/-- Is the next segment of the broadcast one for core `n`: lower groups sent, and every member loader of its group as far (R521)? -/
def drillTurn (c : Ctx) (n : Nat) : Bool :=
  let l := c.loader n
  (drillPeers c n).all (fun x => l.group ≤ x.group && (x.group != l.group || l.next ≤ x.next))

/-- SEGMENT: the next segment of the drill broadcast reaches the loader of core `n`, as it stands in the image copy or damaged on the way;
after the group's last, its end marker (R521, R522). The firmware reads a segment once; poison counts as a bad CRC (R653). -/
def segmentOp (n : Nat) (b : List Byte) (c : Ctx) : Ctx :=
  let l := c.loader n
  let mine : Bool := ofBytes ((b.drop 4).take 2) == l.group
  if !loaderRuns c n || l.gleaning || !drillTurn c n then c
  else if groupCount c l.plan l.group ≤ l.next then
    if mine && bit (ofBytes ((b.drop 6).take 1)) 0 then c.updLoader n (fun l => { l with gleaning := true, since := c.dev.slow }) else c
  else
    let a := l.segs + 4128 * (groupFirst c l.plan l.group + l.next)
    let sent := (drillPeers c n).any (fun x => x.group == l.group && l.next < x.next)
    let c0 := if sent then c else eccRead a 4128 c
    let c1 := c0.updLoader n (fun l => { l with next := l.next + 1, since := c.dev.slow })
    if !segCrcOk b || poisonAt c0 a 4128 then c1
    else if b ≠ c0.read a 4128 then c
    else if mine then segTake n b c1
    else c1

/-- GLEAN_WAIT: no segment of the group came for GLEAN_WAIT cycles (R522). -/
def gleanWaitOp (n : Nat) (c : Ctx) : Ctx :=
  let l := c.loader n
  if loaderRuns c n && !l.gleaning && decide (c.readNat (l.plan + 8) 4 ≤ c.since l.since) then
    c.updLoader n (fun l => { l with gleaning := true })
  else c

/-- The SEQ numbers of a loader's group. -/
def groupSeqs (c : Ctx) (l : Loader) : List Nat :=
  (List.range (groupCount c l.plan l.group)).map (fun i => groupFirst c l.plan l.group + i)

/-- Has the loader the segment? -/
def Loader.has (l : Loader) (q : Nat) : Bool := l.got.any (fun p => p.1 == q)

/-- GLEAN_FETCH: the loader reads segment `q` from the image copy in this attempt (R522); poison counts as a bad CRC (R653). -/
def gleanFetchOp (n q : Nat) (c : Ctx) : Ctx :=
  let l := c.loader n
  if !loaderRuns c n || !l.gleaning || !(groupSeqs c l).contains q || l.has q || l.tried.contains q then c
  else
    let a := l.segs + 4128 * q
    let c1 := eccRead a 4128 c
    let b := c1.read a 4128
    let c2 := c1.updLoader n (fun l => { l with tried := q :: l.tried })
    if !poisonAt c1 a 4128 && segCrcOk b then segTake n b c2 else c2

/-! ### Defective cores (Table 15-10) -/

/-- Start-up stops with a code (R509): READY stays low, ALERT_N is asserted, the capability record says UNAVAILABLE. -/
def bootStop (code : Nat) (c : Ctx) : Ctx :=
  sendCaps (updAlert ((c.updBoot (fun b => { b with stopped := true, error := code })).updPins (fun p => { p with ready := false })))

/-- An NVM event: PFC_STATUS bit 7 with its cause (R526). -/
def nvmEvent (c : Ctx) : Ctx := raise 4 7 2 [] (c.updColl 4 (fun x => { x with cause := setBit x.cause 6 }))

/-- Append an entry to the defect list; a failed append holds the element out and raises an NVM event (R526, R527). -/
def appendEntry (e : Defect) (c : Ctx) : Ctx :=
  let (c1, failed) := defectAppend e c
  if failed then nvmEvent c1 else c1

/-- Retire a unit that holds no work: its own entry when it is not the one listed. During a partial reset of its die it goes after that
(R61). -/
def retireNow (own : Bool) (count u : Nat) (c : Ctx) : Ctx :=
  if (c.unit u).retired then c
  else
    let e := runtimeDefect c 1 0 u 0 count
    let c1 := if own then appendEntry e c else c
    if (c.die (dieOfUnit u)).preset ≠ 0 then c1.updBoot (fun b => { b with late := b.late ++ [e] }) else unitGone u c1

/-- A core ends DEFECTIVE (R522, Table 15-10): its entry, kind core with COUNT 3, and its consequence. -/
def coreDefective (n : Nat) (c : Ctx) : Ctx :=
  let level := if n < 2048 then 0 else if n < 2064 then 2 else if n < 2068 then 3 else 4
  let e := runtimeDefect c 4 level n 0 3
  let c1 := appendEntry e (c.updCore n (fun k => { k with load := .defective }))
  if n < 2048 then
    let u := unitOfCore n
    forAll [4 * u, 4 * u + 1, 4 * u + 2, 4 * u + 3] (fun k a =>
      (a.updLoader k (fun l => { l with active := false })).updCore k (fun s => if s.load == .defective then s else { s with load := .reset }))
      (retireNow false 3 u c1)
  else if n < 2064 then forAll ((List.range 32).map (fun i => 32 * (n - 2048) + i)) (retireNow true 3) c1
  else if n < 2070 then bootStop 7 c1
  else c1

/-- Stage 6 of start-up is over when every load has ended: stage 7 begins (Table 15-1). -/
def loadStageEnd (c : Ctx) : Ctx :=
  if c.dev.boot.stage = 6 && !c.dev.boot.stopped && c.dev.boot.loaders.all (fun p => !p.2.active) then c.updBoot (fun b => { b with stage := 7 })
  else c

/-- CORE_LOAD_COMPLETE: an attempt of the loader is over (R522): LOADED when every segment is there and the digest agrees, else the
next attempt, DEFECTIVE after the third. -/
def coreLoadCompleteOp (n : Nat) (c : Ctx) : Ctx :=
  let l := c.loader n
  let qs := groupSeqs c l
  if !loaderRuns c n || !l.gleaning || !qs.all (fun q => l.has q || l.tried.contains q) then c
  else
    let complete := qs.all l.has
    let payload := qs.flatMap (fun q => match l.got.find? (fun p => p.1 == q) with
      | some (_, key, len) => c.read key len
      | none => [])
    let good := complete && sha384 payload == c.read (groupAt l.plan l.group + 8) 48
    if good then
      loadStageEnd ((c.updLoader n (fun l => { l with active := false })).updCore n (fun k => { k with load := .loaded, pc := entryPc n }))
    else if l.attempt = 3 then loadStageEnd (coreDefective n (c.updLoader n (fun l => { l with active := false })))
    else c.updLoader n (fun l => { l with attempt := l.attempt + 1, tried := [], got := if complete then [] else l.got })

/-- Every loader is at rest. -/
def loadsEnded (c : Ctx) : Bool := c.dev.boot.loaders.all (fun p => !p.2.active)

/-! ### The commands -/

/-- SEGMENT (R521, R522). -/
def execSegment (core : Nat) (bytes : List Byte) (s : State) : Host.Outcome State Fault Refusal :=
  perform (.segment core bytes) s (segmentOp core bytes)

/-- GLEAN_WAIT (R522). -/
def execGleanWait (core : Nat) (s : State) : Host.Outcome State Fault Refusal := perform (.gleanWait core) s (gleanWaitOp core)

/-- GLEAN_FETCH (R522, R653). -/
def execGleanFetch (core seq : Nat) (s : State) : Host.Outcome State Fault Refusal :=
  perform (.gleanFetch core seq) s (gleanFetchOp core seq)

/-- CORE_LOAD_COMPLETE (R522). -/
def execCoreLoadComplete (core : Nat) (s : State) : Host.Outcome State Fault Refusal :=
  perform (.coreLoadComplete core) s (coreLoadCompleteOp core)

/-- CLK_URESET (R599). -/
def execClkUreset (d value : Nat) (s : State) : Host.Outcome State Fault Refusal := perform (.clkUreset d value) s (clkUresetOp d value)

/-- UNIT_RESET_COMPLETE (R50, R599). -/
def execUnitResetComplete (u : Nat) (s : State) : Host.Outcome State Fault Refusal :=
  perform (.unitResetComplete u) s (unitResetCompleteOp u)

end Sys2Proof.Machine
end

