-- ==== Sys2Proof/Machine/Work.lean ====
section
/-!
DEFINITION. Stopping the work of a package as one shared operation (step 4 of Table 11-4, step 1 of Table 13-6), and what the end of a
job or a restore zeroes (R240, R279).
-/
namespace Sys2Proof.Machine

/-- Every queue of a unit stops; what remains is abandoned without completion records. -/
def queuesStop (u : Nat) (c : Ctx) : Ctx :=
  c.updUnit u (fun x => { x with me := { x.me with entries := [] }, ve := { x.ve with entries := [] }, dma := { x.dma with entries := [] } })

/-- Every furrow channel of a die goes IDLE, its reduction abandoned without a record (R362). -/
def chansStop (d : Nat) (c : Ctx) : Ctx :=
  c.updFur d (fun x => { x with held := none, chans := x.chans.map (fun p => (p.1, { p.2 with state := 0, run := none })) })

/-- Units the state lists something of. -/
def listedUnits (c : Ctx) : List Nat := c.dev.units.map (fun p => p.1)
/-- Units that have left their admitted state, or are listed at all: those an operation over every unit has to touch. -/
def allUnits : List Nat := List.range 512

/-- Every queue and channel of the package stops. -/
def stopWork (c : Ctx) : Ctx := forAll (List.range 4) chansStop (forAll (listedUnits c) queuesStop c)

/-- Zero the seedbed regions and, where asked, the tile registers of every unit (R240, R279). -/
def zeroSeedbeds (tiles : Bool) (c : Ctx) : Ctx :=
  let c1 := forAll (listedUnits c) seedbedZero c
  if tiles then c1.zero (trBase 0) (512 * 2 ^ 20) else c1

end Sys2Proof.Machine
end

