-- ==== Sys2Proof/Machine/Resilience.lean ====
section
/-!
DEFINITION. The commands of chapter 13: sheaves, plans and their commitment, notices, re-forming, restore and the replica check.
-/
namespace Sys2Proof.Machine

/-! ### The manifest (Table 13-1) -/

/-- Routing words of die `d`: 392 entries of 32 bits. -/
def routeBytes (c : Ctx) (d : Nat) : List Byte :=
  (List.range 392).flatMap (fun i => toBytes 4 (Tab.get 0 (c.linkCfg d).routes i))

/-- The manifest of a sheaf. -/
def manifest (c : Ctx) (r : SheafRun) : List Byte :=
  toBytes 4 0x53484631 ++ toBytes 4 c.dev.epoch ++ toBytes 6 r.step ++ toBytes 2 0 ++ toBytes 4 c.dev.boot.pkg ++ toBytes 4 r.seq ++
  toBytes 4 r.pages ++ [BitVec.ofNat 8 r.slot, 0, 0, 0] ++ toBytesBE 48 c.res.programDigest ++
  c.read (c.fur 0).groupBase 4096 ++ (List.range 4).flatMap (routeBytes c) ++ List.replicate 5936 0

/-! ### Sheaf points (R462–R464) -/

/-- May the package start a sheaf (R464)? -/
def sheafSkips (c : Ctx) : Bool :=
  !c.res.enable || c.res.run.isSome || c.dev.job.overQuota || c.res.restore != 0 || !c.res.named.isEmpty

/-- Do all four dies hold the commit of the planned step? -/
def allHeld (c : Ctx) : Bool :=
  (List.range 4).all (fun d => (c.fur d).held.isSome && c.res.planned == some (c.fur d).commits)

/-- The held verdicts are written, dies 3 to 0, and the step counter rises with die 0's (Table 13-3). -/
def releaseHeld (c : Ctx) : Ctx :=
  [3, 2, 1, 0].foldl (fun a d =>
    match (a.fur d).held with
    | some (k, iter) =>
      let x := a.chan d k
      commitDo d k (BitVec.ofNat 512 (a.readNat (x.base + 64 * x.pc) 64)) iter a
    | none => a) c

/-- The digest of the sheaf goes to the witness once the last page has been read (R465). -/
def sendDigest (r : SheafRun) (c : Ctx) : Ctx :=
  let h := sha384Nat (c.read (homeSlot c r.slot) (sheafBytes r.pages))
  let m := { resMsg c with digest := h }
  (sendRes c.res.witness 7 m c).updRes (fun x =>
    { x with
      run := some { r with digest := h, digestSent := true }
      state := 2
      awaiting := x.awaiting ++ [(c.res.witness, c.dev.slow)] })

/-- SHEAF_START (R266, R462, R464): all four dies hold the sheaf point's commit; the sheaf starts or is skipped, and the held
verdicts are written. -/
def sheafStartOp (c : Ctx) : Ctx :=
  match c.res.planned with
  | none => c
  | some s =>
    if !furLive c 0 || !allHeld c then c
    else
      let seq := c.res.nextSeq
      if sheafSkips c then
        let c1 := releaseHeld (c.updRes (fun r => { r with planned := none, nextSeq := seq + 1, lastResult := 1 }))
        reportDone (doneMsg c1 s seq 1 1) c1
      else
        let c1 := cowStart c
        let slot := if c1.res.valid then 1 - c1.res.committedSlot else 0
        let r : SheafRun := { seq := seq, step := s, slot := slot, startStep := s + 1, since := c1.dev.slow, pages := (scopePages c1).length }
        let m := manifest c1 r
        let c2 := store (homeSlot c1 slot) m (setHome slot { seq := seq, step := s, pages := r.pages } c1)
        let c3 := (c2.send (.sheafPage c2.res.buddy slot seq 0 0 m [])).updRes (fun x =>
          { x with planned := none, nextSeq := seq + 1, state := 1, run := some r })
        let c4 := if r.pages = 0 then sendDigest r c3 else c3
        releaseHeld c4

/-- Pages in scope that a waiting first write waits for. -/
def awaitedPages (c : Ctx) : List Nat := c.dev.cow.waiting.flatMap (fun w => (pagesOf w.1 (max 1 w.2.length)).filter (protectedPage c))

/-- The index in scope of the page the streamer sends next: one whose first write found no staging (R270), else the next in ascending order
that has not gone out of order; none when all have gone. -/
def nextPage (c : Ctx) : Option Nat :=
  let pages := scopePages c
  match (if (stagingFree c).isNone then (awaitedPages c).find? (fun p => pages.contains p) else none) with
  | some p => some (pages.idxOf p)
  | none => (List.range pages.length).find? (fun k => decide (c.dev.cow.next ≤ k) && !c.dev.cow.early.contains (pages.getD k 0))

/-- SHEAF_PAGE_SEND: the streamer sends the next page in scope, live or staged, to the buddy and home, poison with it line by line (R258,
R268, R270, R465). A page that a first write reached before it is left until that write's copy and mark are made (R269). A page with
GEN = g and no copy, which only a change of scope or of GEN between sheaves can leave, is sent live: the model's choice (log entry 123). -/
def sheafPageSendOp (c : Ctx) : Ctx :=
  match c.res.run, nextPage c with
  | some r, some k =>
    let page := (scopePages c).getD k 0
    if r.pages ≤ r.sent || !furLive c 0 || ((awaitedPages c).contains page && (stagingFree c).isSome) then c
    else
      let src := Tab.get (page * 65536) c.dev.cow.staged page
      let c1 := eccRead src 65536 c
      let data := c1.read src 65536
      let bad := poisonLines c1 src
      let c2 := landPage (homeSlot c1 r.slot + recordOff k) 8 (toBytes 8 (page * 65536) ++ data) bad c1
      let c3 := c2.send (.sheafPage c2.res.buddy r.slot r.seq (k + 1) (page * 65536) data bad)
      let inOrder : Bool := (List.range k).all (fun i => decide (i < c.dev.cow.next) || c.dev.cow.early.contains ((scopePages c).getD i 0))
      let c4 := (markPage page c3).updCow (fun w => { w with
        staged := Tab.del page w.staged
        next := if inOrder then k + 1 else w.next
        early := if inOrder then w.early else page :: w.early })
      let r1 := { r with sent := r.sent + 1 }
      let c5 := quotaCheck (releaseWrites (c4.updRes (fun x => { x with run := some r1 })))
      if r1.sent = r1.pages then sendDigest r1 c5 else c5
  | _, _ => c

/-- The home digest record (R466). -/
def digestRecord (r : SheafRun) : List Byte := toBytes 4 0x53444731 ++ toBytes 4 r.seq ++ toBytes 6 r.step ++ toBytes 2 0 ++ toBytesBE 48 r.digest

/-- The sheaf is complete: ACTIVE clears, its digest record is written, and DONE goes out (R465, R466). -/
def sheafDone (r : SheafRun) (c : Ctx) : Ctx :=
  let c1 := store (c.res.restartAddr + 2048 + 64 * r.slot) (digestRecord r) (cowComplete c)
  let c2 := (setHome r.slot { valid := true, seq := r.seq, step := r.step, pages := r.pages, got := r.pages } c1).updRes (fun x =>
    { x with run := none, state := 0, lastResult := 0 })
  reportDone (doneMsg c2 r.step r.seq (sheafCost c r) 0) c2

/-- A sheaf's run with an acknowledgement more: with none in before, both (`n` = 0), the buddy's of the last page (1) or the witness's of the
digest; with one in, the other. -/
def ackRun (n : Nat) (r : SheafRun) : SheafRun :=
  if r.buddyAck || r.witnessAck then { r with buddyAck := true, witnessAck := true }
  else { r with buddyAck := n != 2, witnessAck := n != 1 }

/-- SHEAF_COMPLETE: the acknowledgements of buddy and witness arrive, together or one by one, and with both the sheaf completes (R465). The
command does not say whether both or which: that is free (log entry 134). -/
def sheafCompleteOp (c : Ctx) : Ctx :=
  match c.res.run with
  | none => c
  | some r =>
    if !r.digestSent then c
    else
      let (k, c0) := c.draw 1
      let r1 := ackRun (Config.freeNat k % 3) r
      let c1 := c0.updRes (fun x =>
        { x with run := some r1, awaiting := if r1.witnessAck then x.awaiting.filter (fun p => p.1 != x.witness) else x.awaiting })
      if r1.buddyAck && r1.witnessAck then sheafDone r1 c1 else c1

/-- SHEAF_TIMEOUT (R467). -/
def sheafTimeoutOp (c : Ctx) : Ctx :=
  match c.res.run with
  | some r => if c.res.sheafTimeout ≤ c.since r.since then abandonSheaf c else c
  | none => c

/-- SHEAF_PAGE_RECEIVE: a buddy takes a page of its ward into the ward slot, poisoned lines poisoned, and acknowledges it (R465, R432); it
refuses one it has no slot for, and while BUSY or from a frozen requester (R446, Table 14-6). During a restore the buddy's copy comes back into the home slot (R477). In the
safe state the flits of VC7 are discarded (R447). -/
def sheafPageReceiveOp (src slot seq index addr : Nat) (page : PageData) (c : Ctx) : Ctx :=
  let data := page.bytes
  let poison := page.poison
  let off := if index = 0 then 0 else recordOff (index - 1)
  let hdr := if index = 0 then 0 else 8
  let bytes := if index = 0 then data else toBytes 8 addr ++ data
  let fits : Bool := decide (slot < 2) && decide (off + bytes.length ≤ c.res.slotPages * 65536) &&
    bytes.length == (if index = 0 then 16384 else 65544)
  if c.dev.safe.safe then c
  else if !c.dev.job.running || refusesFrom c src then c.send (.sheafAck src seq false false)
  else if c.res.restore = 1 && c.res.refetched && src == c.res.buddy && slot == c.res.committedSlot && fits then
    landPage (homeSlot c slot + off) hdr bytes poison (c.updRes (fun r => { r with awaiting := r.awaiting.filter (fun p => p.1 != r.buddy) }))
  else if src = c.res.ward && fits && c.res.present then
    let c1 := landPage (wardSlot c slot + off) hdr bytes poison c
    let old := c.res.wards.getD slot {}
    let base : SlotSt := if index = 0 then { seq := seq, step := ofBytes ((data.drop 8).take 6), pages := ofBytes ((data.drop 24).take 4) } else old
    let got := if index = 0 then 0 else base.got + 1
    (setWard slot { base with got := got, valid := got == base.pages && base.seq == seq } c1).send (.sheafAck src seq false true)
  else c.send (.sheafAck src seq false false)

/-- Send the ward's slot of the committed sheaf back to it, manifest and pages in order (R477). -/
def serveRefetch (c : Ctx) : Ctx :=
  match (List.range 2).find? (fun i => (c.res.wards.getD i {}).valid && (c.res.wards.getD i {}).seq == c.res.seq) with
  | none => c
  | some i =>
    let w := c.res.wards.getD i {}
    let b := wardSlot c i
    let c1 := eccRead b (sheafBytes w.pages) c
    (List.range w.pages).foldl (fun a k =>
      let p := b + recordOff k
      a.send (.sheafPage c.res.ward i w.seq (k + 1) (a.readNat p 8) (a.read (p + 8) 65536) (poisonLines a (p + 8))))
      (c1.send (.sheafPage c.res.ward i w.seq 0 0 (c1.read b 16384) []))

/-- DIGEST: a witness takes and acknowledges its ward's digest (R465); a buddy asked by its ward sends the committed slot back (R477, log
entry 126); in a restore a removed ward's digest comes from its witness (step 6 of Table 13-6). -/
def digestOp (m : ResMsg) (c : Ctx) : Ctx :=
  if !c.dev.job.running then c
  else if m.sender = c.res.witnessed && c.res.present then
    (c.updRes (fun r => { r with witnessDigests := (m.digest :: r.witnessDigests).take 2 })).send (.sheafAck m.sender m.seq true true)
  else if m.sender = c.res.ward && c.res.present then serveRefetch c
  else if c.res.restore = 1 then c.updRes (fun r => { r with wardDigest := some m.digest })
  else c.send (.sheafAck m.sender m.seq true false)

/-! ### PLAN, DONE, NOTICE -/

/-- Do resilience messages count: a job with a resilience block runs? -/
def inJob (c : Ctx) : Bool := c.dev.job.running && c.res.present

/-- PLAN (R468, R469, R471). -/
def planOp (m : ResMsg) (c : Ctx) : Ctx := if inJob c then planTakeWith reportDone m c else c
/-- DONE (R468–R470). -/
def doneOp (m : ResMsg) (c : Ctx) : Ctx := if inJob c && ownSlot c == 0 then doneTake 3 m c else c
/-- NOTICE (R467, R472, R474). -/
def noticeOp (m : ResMsg) (c : Ctx) : Ctx :=
  if inJob c && (noticeTakers c).contains c.dev.boot.pkg then noticeTake m.subject c else c

/-- Does this taker act as coordinator: every taker ahead of it is in a tray it has a notice of, its own is not (R473, R474)? -/
def actsAsCoordinator (c : Ctx) : Bool :=
  let ahead := (noticeTakers c).takeWhile (fun p => p != c.dev.boot.pkg)
  ahead.all (fun p => c.res.named.contains (p / 8)) && !c.res.named.contains (ownTray c)

/-- NOTICE_WAIT: the coordinator advances the epoch and sends REFORM (R473, R474). -/
def noticeWaitOp (c : Ctx) : Ctx :=
  if !inJob c || c.res.named.isEmpty || !(noticeTakers c).contains c.dev.boot.pkg || c.since c.res.namedAt < c.res.noticeWait || !actsAsCoordinator c then c
  else sendReform (c.res.removed ++ c.res.named) (memberTrays c) (c.updRes (fun r => { r with named := [] }))

/-- REFORM_WAIT_TIMEOUT: no REFORM came after a notice (R474). -/
def reformWaitTimeoutOp (c : Ctx) : Ctx :=
  match c.res.noticeAt with
  | some t =>
    if inJob c && decide (2 * c.res.noticeWait + (c.linkCfg 0).respTimeout ≤ c.since t) then
      endCause 0x14 (c.updRes (fun r => { r with noticeAt := none }))
    else c
  | none => c

/-! ### REFORM (R475, R476, R480, Table 13-6) -/

/-- A roster without the removed trays. -/
def less (l removed : List Nat) : List Nat := l.filter (fun t => !removed.contains t)

/-- Original positions from one tray to the next in the shortened roster, forwards. -/
def hop (l : List Nat) (a b : Nat) : Nat := (l.idxOf b + l.length - l.idxOf a) % l.length

/-- The successor and predecessor of a tray in a ring. -/
def nextIn (l : List Nat) (t : Nat) : Nat := l.getD ((l.idxOf t + 1) % l.length) t
def prevIn (l : List Nat) (t : Nat) : Nat := l.getD ((l.idxOf t + l.length - 1) % l.length) t

/-- Would the shortened ring need a hop more than two original positions long at any of its members, or be left with none (R477)? -/
def ringBroken (l removed : List Nat) : Bool :=
  let s := less l removed
  !l.isEmpty && (s.isEmpty || (s.length != 1 && s.any (fun t => decide (2 < hop l t (nextIn s t)))))

/-- Level `l`'s 16 bytes of an entry for the shortened ring (R476): N, POS, NEXT, PREV and the ports, the skip ports over a gap. -/
def levelBytes (c : Ctx) (orig removed : List Nat) (nextPorts prevPorts skipNext skipPrev : Nat) : List Byte :=
  let s := less orig removed
  let t := ownTray c
  let a := nextIn s t
  let b := prevIn s t
  toBytes 2 s.length ++ toBytes 2 (s.idxOf t) ++ toBytes 4 (8 * a + ownSlot c) ++ toBytes 4 (8 * b + ownSlot c) ++
  toBytes 2 (if hop orig t a = 2 then skipNext else nextPorts) ++ toBytes 2 (if hop orig b t = 2 then skipPrev else prevPorts)

/-- Entry at `src` of the image's group table, re-formed, written at `dst` (R476). -/
def regroup (src dst : Nat) (removed : List Nat) (c : Ctx) : Ctx :=
  let lv := c.readNat (src + 1) 1
  if !bit (c.readNat src 1) 0 then c
  else
    let upd (l : Nat) (roster : List Nat) (a : Ctx) : Ctx :=
      if bit lv l && roster.contains (ownTray c) then
        let o := 16 * l
        store (dst + o)
          (levelBytes c roster removed (c.readNat (src + o + 12) 2) (c.readNat (src + o + 14) 2)
            (c.res.skipPorts.getD (2 * (l - 2)) 0) (c.res.skipPorts.getD (2 * (l - 2) + 1) 0)) a
      else a
    let one (l : Nat) (roster : List Nat) : Nat :=
      if bit lv l && roster.contains (ownTray c) && (less roster removed).length == 1 then 2 ^ l else 0
    let c1 := store dst (c.read src 64) c
    let c2 := store (dst + 1) [BitVec.ofNat 8 (lv - one 2 c.res.roster2 - one 3 c.res.roster3)] c1
    upd 3 c.res.roster3 (upd 2 c.res.roster2 (storeNat (dst + 4) 4 c.dev.epoch c2))

/-- Group table of die `d` in the image's furrow section: address of its first entry (R517). -/
def imageGroups (c : Ctx) (d : Nat) : Option Nat :=
  match jeOff c (imgBase c) (jobEntry c (imgBase c) c.dev.job.index) 104 with
  | none => none
  | some f =>
    some ((List.range d).foldl (fun a _ => a + c.readNat (a + 48) 4) f + 64)

/-- New group entries on every die (step 4 of Table 13-6). -/
def regroupAll (removed : List Nat) (c : Ctx) : Ctx :=
  (List.range 4).foldl (fun a d =>
    match imageGroups a d with
    | none => a
    | some g => (List.range (a.fur d).groups).foldl (fun b i => regroup (g + 64 * i) (groupEntry b d i) removed b) a) c

/-- Ports to removed trays get weight 0 and the tables are rewritten, from the committed manifest where there is one (step 3). -/
def rerouteAll (removed : List Nat) (fromManifest : Bool) (c : Ctx) : Ctx :=
  let base := homeSlot c c.res.committedSlot + 4176
  let src (d i : Nat) : Nat :=
    if fromManifest && c.res.valid then c.readNat (base + 1568 * d + 4 * i) 4 else Tab.get 0 (c.linkCfg d).routes i
  forAll (List.range 4) (rerouteDie removed src) c

/-- Requests that a lost member held cache or a hand-off of (R275, R386). -/
def lostRequests (removed : List Nat) (c : Ctx) : Ctx :=
  if c.dev.job.kind ≠ 2 then c
  else
    let gone (r : Req) : Bool :=
      (decide (4 ≤ r.hand) && decide (r.hand ≤ 5) && removed.contains (r.decodePkg / 8)) ||
      (r.tier == 2 && c.srv.t2Form == 1 && removed.contains (c.srv.t2Target % 2 ^ 18 / 8))
    schedule ((c.srv.reqs.filter gone).foldl (fun a r => finalize r 8 0x20 a) c)

/-- The package takes the epoch of a REFORM (R65): its copy moves with it. -/
def takeEpoch (e : Nat) (c : Ctx) : Ctx := sendCaps { c with dev := { c.dev with epoch := e % 2 ^ 32 } }

/-- A HELD port to a member, a late one among them, is admitted, and becomes UP or DEGRADED when the epochs agree (R482, Table 12-6). -/
def freeHeld (c : Ctx) : Ctx :=
  forAll (List.range 36) (fun p a =>
    let x := a.port p
    if x.state = 6 && isMember a x.partner.pkg && !x.dup then
      let y := { x with heldLate := false, beforeCheck := true }
      a.updPort p (fun _ => if y.partner.epoch == a.dev.epoch && !y.heldUnavail then
        { y with heldEpoch := false, state := if y.degRate || y.degWidth || y.degLength then 3 else 2 } else y)
    else a) c

/-- The witness of a removed ward sends the digest of its committed sheaf to the ward's buddy (step 6 of Table 13-6). Which package that is
the spec's tables do not say: a free value (log entry 65). -/
def sendWitness (removed : List Nat) (c : Ctx) : Ctx :=
  match c.res.witnessGood with
  | some h =>
    if c.res.witnessed ≠ 0x3FFFF && removed.contains (c.res.witnessed / 8) then
      sendRes (Config.buddyOf c.res.witnessed % 2 ^ 18) 7 { resMsg c with digest := h } c
    else c
  | none => c

/-- Steps 1 to 4 of a restore on a survivor of a training job. -/
def restoreStart (m : ResMsg) (c : Ctx) : Ctx :=
  let joining : Bool := c.res.restore == 3
  let lost := c.dev.job.step - m.step + 1
  let c1 := commitStep m.step (stopWork (abandonSheaf c))
  let c2 := zeroSeedbeds true c1
  let c3 := freeHeld (takeEpoch m.newEpoch c2)
  let c4 := (rerouteAll m.removed true c3).updRes (fun r =>
    let (n, s) := stick 255 r.restores 1
    { r with
      removed := m.removed
      restore := 1
      state := 3
      refetched := joining
      reformStep := m.step
      restores := n
      restoresSticky := r.restoresSticky || s
      lostSteps := min 0xFFFFFFFF lost
      readies := []
      checks := []
      wardDigest := none })
  let c5 := regroupAll m.removed c4
  let c6 := c5.updJob (fun j => { j with released := false })
  let broken := ringBroken c6.res.roster2 m.removed || ringBroken c6.res.roster3 m.removed || Config.wardLost m.removed
  let c7 := sendWitness m.removed (if joining then c6.updRes (fun r => { r with restore := 3 }) else c6)
  if Config.stageLost m.removed then endCause 0x12 c7 else if broken then endCause 0x14 c7 else c7

/-- A survivor of a SERVE or FORECAST job: its furrow channels stop and its links follow (R480, steps 1 and 3), its sequencer and its job go
on, and its units and dies take the new epoch at once. Step 4, on which R480 is silent, runs as well, since R72 has every survivor re-form
its rings, and a teacher stage without a holder ends the job: the model's choice (log entry 124). -/
def reformLinks (m : ResMsg) (c : Ctx) : Ctx :=
  let c1 := forAll (List.range 4) chansStop c
  let c2 := rerouteAll m.removed false (freeHeld (epochAll (takeEpoch m.newEpoch c1)))
  let c3 := regroupAll m.removed (c2.updRes (fun r => { r with removed := m.removed, restore := 0 }))
  let c4 := lostRequests m.removed c3
  if Config.stageLost m.removed then endCause 0x12 c4 else c4

/-- REFORM: a survivor begins the restore, a removed package leaves (R475, R480). -/
def reformOp (m : ResMsg) (c : Ctx) : Ctx :=
  if !inJob c then c
  else
    let c1 := (passOn 4 m c).updRes (fun r => { r with named := [], noticeAt := none })
    if m.removed.contains (ownTray c) then endCause 0x14 c1
    else if c.dev.job.kind ≤ 1 then restoreStart m c1
    else reformLinks m c1

/-! ### Restore (steps 5 to 9 of Table 13-6) -/

/-- Does the home slot of the committed sheaf, the one REFORM names, pass its digest (R466)? -/
def homeOk (c : Ctx) : Bool :=
  let s := c.res.committedSlot
  let a := c.res.restartAddr + 2048 + 64 * s
  let pages := c.readNat (homeSlot c s + 24) 4
  c.res.valid && c.res.committedStep == c.res.reformStep && c.readNat a 4 == 0x53444731 && c.readNat (a + 4) 4 == c.res.seq && sheafBytes pages ≤ c.res.slotPages * 65536 &&
  sha384 (c.read (homeSlot c s) (sheafBytes pages)) == c.read (a + 16) 48

/-- Copy the home slot into the SHEAF areas, page by page. -/
def homeBack (c : Ctx) : Ctx :=
  let b := homeSlot c c.res.committedSlot
  (List.range (c.readNat (b + 24) 4)).foldl (fun a i =>
    copyLines (b + recordOff i + 8) ((scopePages c).getD i 0 * 65536) 65536 a) c

/-- Is the package the buddy of a removed ward? -/
def wardRemoved (c : Ctx) : Bool := c.res.ward != 0x3FFFF && c.res.removed.contains (c.res.ward / 8)

/-- The ward slot of the committed sheaf, if its digest is the witness's (step 6). -/
def wardOk (c : Ctx) (h : Nat) : Bool :=
  match (List.range 2).find? (fun i => (c.res.wards.getD i {}).valid && (c.res.wards.getD i {}).seq == c.res.seq) with
  | some i => sha384Nat (c.read (wardSlot c i) (sheafBytes (c.res.wards.getD i {}).pages)) == h
  | none => false

/-- Tell the coordinator that this survivor is ready. -/
def sendReady (c : Ctx) : Ctx :=
  if coordinator c = c.dev.boot.pkg then c.updRes (fun r => { r with readies := insNat c.dev.boot.pkg r.readies })
  else c.send (.survivorReady (coordinator c))

/-- The restart record (R478): the new epoch, how many trays are removed and how many wards follow, the committed STEP, the trays, and for a
removed ward its package ID and the address of its committed buddy slot. R478 lists the contents, the order and the widths are the model's
(log entry 64). -/
def restartRecord (c : Ctx) : List Byte :=
  let l := c.res.removed
  let slot := ((List.range 2).find? (fun i => (c.res.wards.getD i {}).valid && (c.res.wards.getD i {}).seq == c.res.seq)).getD 0
  let ward : List Byte := if wardRemoved c then toBytes 4 c.res.ward ++ toBytes 6 (wardSlot c slot) else []
  (toBytes 4 c.dev.epoch ++ toBytes 2 l.length ++ toBytes 2 (b2n (wardRemoved c)) ++ toBytes 6 c.res.reformStep ++ toBytes 2 0 ++
    l.flatMap (toBytes 2) ++ ward ++ List.replicate 2048 0).take 2048

/-- Step 7: the restart record, and READY. -/
def restoreReady (c : Ctx) : Ctx := sendReady ((store c.res.restartAddr (restartRecord c) c).updRes (fun r => { r with restore := 2 }))

/-- The digest checks read their slots like any reader (R256, R257). -/
def restoreRead (c : Ctx) : Ctx :=
  eccRead c.res.wardBase (2 * c.res.slotPages * 65536) (eccRead (homeSlot c c.res.committedSlot) (c.res.slotPages * 65536) c)

/-- RESTORE_DIGEST: the digest checks of steps 5 and 6 end (R475, R477). A joining package has no home slot to check (R482). A survivor whose
home slot fails asks its buddy for the slot with a DIGEST message, for which Table 13-4 has no type of its own (log entry 126). -/
def restoreDigestOp (c : Ctx) : Ctx :=
  if !inJob c then c
  else if c.res.restore = 3 && c.res.state = 3 then
    if loadsEnded c && c.dev.units.all (fun p => !p.2.resetting) then restoreReady c else c
  else if c.res.restore ≠ 1 || (wardRemoved c && c.res.wardDigest.isNone) then c
  else
    let c0 := restoreRead c
    if !homeOk c0 then
      if c0.res.refetched then sendNotice (ownTray c0) 6 c0
      else (sendRes c0.res.buddy 7 (resMsg c0) c0).updRes (fun r =>
        { r with refetched := true, awaiting := r.awaiting ++ [(r.buddy, c0.dev.slow)] })
    else if wardRemoved c0 && !wardOk c0 (c0.res.wardDigest.getD 0) then endCause 0x14 c0
    else restoreReady (regroupAll c0.res.removed (homeBack c0))

/-- Survivors of the job: every package of every member tray. -/
def allReady (c : Ctx) : Bool := (memberTrays c).all (fun t => (List.range 8).all (fun i => c.res.readies.contains (8 * t + i)))

/-- Step 9: the step counter, the channels (none of them disabled any more: R365), the event counters, and the control cores from their instruction RAM images; dies and units are
admitted at the new epoch (R65). -/
def resumeTake (m : ResMsg) (c : Ctx) : Ctx :=
  if c.res.restore ≠ 2 then c
  else
    let s := c.res.reformStep
    let c1 := passOn 5 m c
    let c2 := forAll (List.range 4) (fun d a => a.updFur d (fun x =>
      { x with commits := s, chans := x.chans.map (fun p => (p.1, { p.2 with pc := 0, iter := 0, run := none, state := if p.2.len = 0 then 0 else 1 })) })) c1
    let c3 := forAll (listedUnits c2) (fun u a => a.updUnit u (fun x => { x with evts := [] })) c2
    let notChan (f : DisFn) : Bool := match f with | .furrow _ _ => false | _ => true
    let c4 := forAll ((c3.dev.cores.filter (fun p => p.1 < 2048)).map (fun p => p.1)) (fun n a => a.updCore n (fun k => { load := k.load })) c3
    let c5 := c4.updJob (fun j => { j with step := s, released := true, drains := j.drains.filter (fun d => notChan d.fn), disabled := j.disabled.filter notChan, flown := 0, stepAt := c.dev.slow, stepStart := c.dev.slow })
    epochAll (admitAll (c5.updRes (fun r => { r with restore := 0, state := 0 })))

/-- SURVIVOR_READY: the coordinator takes READY from a survivor, and from the last one sends RESUME (step 8). -/
def survivorReadyOp (pkg : Nat) (c : Ctx) : Ctx :=
  if !inJob c || coordinator c ≠ c.dev.boot.pkg then c
  else
    let c1 := c.updRes (fun r => { r with readies := insNat pkg r.readies, awaiting := r.awaiting.filter (fun p => p.1 != pkg) })
    if allReady c1 && c1.res.restore = 2 then
      let m := resMsg c1
      let c2 := resumeTake m (sendTrays 5 m (memberTrays c1) c1)
      if c2.res.planned.isNone && c2.res.enable then
        planNextWith reportDone 1 c2.res.lastPoint (if c2.res.valid then c2.res.seq else noSeq) c2
      else c2
    else c1

/-- RESUME (step 9 of Table 13-6). -/
def resumeOp (m : ResMsg) (c : Ctx) : Ctx := if inJob c then resumeTake m c else c

/-- JOIN: the coordinator remembers a package of a returning tray (R481, R482). -/
def joinOp (m : ResMsg) (c : Ctx) : Ctx :=
  if inJob c && coordinator c == c.dev.boot.pkg then c.updRes (fun r => { r with joins := insNat m.sender r.joins }) else c

/-- A package that starts a job whose members run at another epoch zeroes what it holds and sends JOIN to the coordinator, the lowest-numbered
tray of its rosters but its own, which is no member yet (R461, R481). -/
def joinStart (c : Ctx) : Ctx :=
  let away := (List.range 36).any (fun p => (c.port p).state == 6 && (c.port p).heldEpoch && isMember c (c.port p).partner.pkg)
  if !away || !c.res.present then c
  else
    let c1 := (c.dev.job.areas.filter (fun x => x.sheaf)).foldl (fun a x =>
      (forAll (wordsOf x.base x.size) clearWord a).zero x.base x.size) c
    let slots (b : Nat) (a : Ctx) : Ctx := a.zero b (2 * c.res.slotPages * 65536)
    let c2 := slots c.res.wardBase (slots c.res.homeBase c1)
    let c3 := forAll (listedUnits c2) umZero c2
    let c4 := c3.updRes (fun r => { r with restore := 3, removed := [ownTray c3] })
    sendRes (coordinator c4) 6 { resMsg c4 with subject := ownTray c4 } c4

/-! ### Replica check (R478) -/

/-- Slot 0 compares the eight digests of its tray: a package that differs from the majority, or every one where there is none,
fails, and its tray is named in a notice. -/
def checkTake (pkg h : Nat) (c : Ctx) : Ctx :=
  let l := Tab.set c.res.checks pkg h
  let c1 := c.updRes (fun r => { r with checks := l })
  if l.length < 8 then c1
  else
    let major := l.find? (fun p => decide (4 < (l.filter (fun q => q.2 == p.2)).length))
    let bad (p : Nat × Nat) : Bool := match major with | some q => p.2 != q.2 | none => true
    let own := (l.find? (fun p => p.1 == c.dev.boot.pkg)).elim false bad
    let c2 := c1.updRes (fun r => { r with checks := [], checkResult := if own then 2 else 1 })
    if l.any bad then sendNotice (ownTray c2) 6 c2 else c2

/-- JOB_RESTORE_CHECK: a store of 1 to JOB_RESTORE.CHECK digests the check region and sends CHECK to slot 0 of the tray. -/
def jobRestoreCheckOp (c : Ctx) : Ctx :=
  if !inJob c || c.res.checkBytes = 0 then c
  else
    let c0 := eccRead c.res.checkBase c.res.checkBytes c
    let h := sha384Nat (c0.read c.res.checkBase c.res.checkBytes)
    let c1 := c0.updRes (fun r => { r with checkSent := true })
    if ownSlot c1 = 0 then checkTake c1.dev.boot.pkg h c1 else sendRes (8 * ownTray c1) 8 { resMsg c1 with digest := h } c1

/-- CHECK (R478). -/
def checkOp (m : ResMsg) (c : Ctx) : Ctx :=
  if inJob c && ownSlot c == 0 && m.sender / 8 == ownTray c then checkTake m.sender m.digest c else c

/-- RESILIENCE_MESSAGE_TIMEOUT: a member has not answered within RESP_TIMEOUT (cause 4 of Table 13-5). -/
def resilienceMessageTimeoutOp (pkg : Nat) (c : Ctx) : Ctx :=
  if inJob c && c.res.awaiting.any (fun p => p.1 == pkg && decide ((c.linkCfg 0).respTimeout ≤ c.since p.2)) then
    sendNotice (pkg / 8) 4 (c.updRes (fun r => { r with awaiting := r.awaiting.filter (fun p => p.1 != pkg) }))
  else c

/-! ### The commands -/

/-- SHEAF_START (R462). -/
def execSheafStart (s : State) : Host.Outcome State Fault Refusal := perform .sheafStart s sheafStartOp
/-- SHEAF_PAGE_SEND (R268). -/
def execSheafPageSend (s : State) : Host.Outcome State Fault Refusal := perform .sheafPageSend s sheafPageSendOp
/-- SHEAF_PAGE_RECEIVE (R465). -/
def execSheafPageReceive (src slot seq index addr : Nat) (page : PageData) (s : State) : Host.Outcome State Fault Refusal :=
  perform (.sheafPageReceive src slot seq index addr page) s (sheafPageReceiveOp src slot seq index addr page)
/-- SHEAF_COMPLETE (R465, R466). -/
def execSheafComplete (s : State) : Host.Outcome State Fault Refusal := perform .sheafComplete s sheafCompleteOp
/-- SHEAF_TIMEOUT (R467). -/
def execSheafTimeout (s : State) : Host.Outcome State Fault Refusal := perform .sheafTimeout s sheafTimeoutOp
/-- SHEAF_REFUSED (R467). -/
def execSheafRefused (s : State) : Host.Outcome State Fault Refusal := perform .sheafRefused s abandonSheaf
/-- PLAN (R468). -/
def execPlan (m : ResMsg) (s : State) : Host.Outcome State Fault Refusal := perform (.plan m) s (planOp m)
/-- DONE (R468–R470). -/
def execDone (m : ResMsg) (s : State) : Host.Outcome State Fault Refusal := perform (.done m) s (doneOp m)
/-- DIGEST (R465). -/
def execDigest (m : ResMsg) (s : State) : Host.Outcome State Fault Refusal := perform (.digest m) s (digestOp m)
/-- NOTICE (R472). -/
def execNotice (m : ResMsg) (s : State) : Host.Outcome State Fault Refusal := perform (.notice m) s (noticeOp m)
/-- NOTICE_WAIT (R473). -/
def execNoticeWait (s : State) : Host.Outcome State Fault Refusal := perform .noticeWait s noticeWaitOp
/-- REFORM_WAIT_TIMEOUT (R474). -/
def execReformWaitTimeout (s : State) : Host.Outcome State Fault Refusal := perform .reformWaitTimeout s reformWaitTimeoutOp
/-- REFORM (R475). -/
def execReform (m : ResMsg) (s : State) : Host.Outcome State Fault Refusal := perform (.reform m) s (reformOp m)
/-- RESTORE_DIGEST (R475, R477). -/
def execRestoreDigest (s : State) : Host.Outcome State Fault Refusal := perform .restoreDigest s restoreDigestOp
/-- SURVIVOR_READY (R475). -/
def execSurvivorReady (pkg : Nat) (s : State) : Host.Outcome State Fault Refusal := perform (.survivorReady pkg) s (survivorReadyOp pkg)
/-- RESUME (R475). -/
def execResume (m : ResMsg) (s : State) : Host.Outcome State Fault Refusal := perform (.resume m) s (resumeOp m)
/-- JOIN (R482). -/
def execJoin (m : ResMsg) (s : State) : Host.Outcome State Fault Refusal := perform (.join m) s (joinOp m)
/-- JOB_RESTORE_CHECK (R478). -/
def execJobRestoreCheck (s : State) : Host.Outcome State Fault Refusal := perform .jobRestoreCheck s jobRestoreCheckOp
/-- CHECK (R478). -/
def execCheck (m : ResMsg) (s : State) : Host.Outcome State Fault Refusal := perform (.check m) s (checkOp m)
/-- RESILIENCE_MESSAGE_TIMEOUT (R472). -/
def execResilienceMessageTimeout (pkg : Nat) (s : State) : Host.Outcome State Fault Refusal :=
  perform (.resilienceMessageTimeout pkg) s (resilienceMessageTimeoutOp pkg)

end Sys2Proof.Machine
end

