-- ==== Sys2Proof/Machine/Serving.lean ====
section
/-!
DEFINITION. The commands of a SERVE job (chapter 10): input records, steps, tier moves and timers, the hand-off between packages.
-/
namespace Sys2Proof.Machine

/-! ### Taking an input record (R375, R567, R568) -/

/-- Opcode and REQ_ID of a record. -/
def rOpcode (d : Desc) : Nat := fld d 0 0 8
def rId (d : Desc) : Nat := fld d 4 0 32

/-- The record at the HEAD of input queue `q`. -/
def recordAt (c : Ctx) (q : Nat) : Desc :=
  let p := c.pair q
  BitVec.ofNat 512 (c.readNat (queueRam + (p.qbase + 64 * (p.head % 2 ^ p.log2)) % queueRamSize) 64)

/-- Has the ring of a record's DEST room for the reserve of one more request, beside `own` bytes already spoken for there? -/
def destRoom (c : Ctx) (q : Nat) (d : Desc) : Bool :=
  let dest := fld d 9 0 4
  if rOpcode d ≠ 1 || 8 ≤ dest || !ringOpen c dest then true
  else 16 + (if dest = q then 16 else 0) ≤ ringFree c dest

/-- May the sequencer take the record at the head of queue `q`: the pair enabled, a record there, room for its reply (R568)? -/
def pairReady (c : Ctx) (q : Nat) : Bool :=
  let p := c.pair q
  p.enable && p.dead == 0 && p.head != p.tail && 16 ≤ ringFree c q && destRoom c q (recordAt c q)

/-- Number of a source in the round robin: the pairs first, then the front-end packages by ID (log entry 132). -/
def sourceNo (src : Source) : Nat := match src with | .pair q => q | .frontEnd pkg => 8 + pkg

/-- Does source `q` come after `t` and before `s` in the round? -/
def comesBetween (t s q : Nat) : Bool := if t < s then t < q && q < s else t < q || q < s

/-- Is it the source's turn: no pair between the last served and it has a record ready (R375)? -/
def sourceTurn (c : Ctx) (s : Nat) : Bool := (List.range 8).all (fun q => !(comesBetween c.srv.turn s q && pairReady c q))

/-- Take a record whose opcode satisfies `mine` and act on it. -/
def takeRecord (mine : Nat → Bool) (src : Source) (d : Desc) (act : Ctx → Ctx) (c : Ctx) : Ctx :=
  if !seqRuns c || !mine (rOpcode d) then c
  else match src with
    | .pair q =>
      if pairReady c q && recordAt c q == d && sourceTurn c q then
        act ((c.updPair q (fun p => { p with head := (p.head + 1) % 2 ^ 32 })).updSrv (fun s => { s with turn := q }))
      else c
    | .frontEnd _ => if sourceTurn c (sourceNo src) then act (c.updSrv (fun s => { s with turn := sourceNo src })) else c

/-- While the job ends a record is refused (step 2 of Table 11-4) with a status the spec states for SUBMIT and QUOTA only; the others
take a free one (log entry 138). -/
def refuseEnding (src : Source) (d : Desc) (status : Option Nat) (c : Ctx) : Ctx :=
  match status with
  | some st => actionEnd (reply src (rId d) (rOpcode d) st c)
  | none =>
    let (k, c1) := c.draw 1
    actionEnd (reply src (rId d) (rOpcode d) (Config.freeNat k % 256) c1)

/-- Answer a record and end the action. -/
def answerRecord (src : Source) (d : Desc) (status : Nat) (c : Ctx) : Ctx := schedule (reply src (rId d) (rOpcode d) status c)

/-! ### SUBMIT (Table 10-5, R376) -/

def sClass (d : Desc) : Nat := fld d 1 0 2
def sVariant (d : Desc) : Nat := fld d 2 0 10
def sTenant (d : Desc) : Nat := fld d 8 0 8
def rDest (d : Desc) : Nat := fld d 9 0 4
def sPromptAddr (d : Desc) : Nat := fld d 16 0 48
def sPromptLen (d : Desc) : Nat := fld d 24 0 32
def sMaxNew (d : Desc) : Nat := fld d 28 0 32
def sMaxLen (d : Desc) : Nat := fld d 32 0 32

/-- Prompt tokens lie in an area with HOST or REMOTE set. -/
def promptOk (c : Ctx) (a n : Nat) : Bool := 1 ≤ n && inAreas c (fun x => x.host || x.remote) a (4 * n)

/-- Reserved bits are zero and every field is in range. -/
def submitOk (c : Ctx) (d : Desc) : Bool :=
  rOpcode d == 1 && fld d 1 5 3 == 0 && fld d 2 10 6 == 0 && fld d 9 4 4 == 0 && rDest d ≤ 8 && zeroBytes d 10 11 && fld d 12 18 14 == 0 &&
  zeroBytes d 22 23 && fld d 36 18 13 == 0 && promptOk c (sPromptAddr d) (sPromptLen d) && 1 ≤ sMaxNew d

/-- The request of a SUBMIT. -/
def requestOf (c : Ctx) (d : Desc) (stamp : Nat) : Req :=
  { id := rId d, cls := sClass d, converse := fld d 1 2 1 == 1, spec := fld d 1 3 1 == 1, sample := fld d 1 4 1 == 1, variant := sVariant d,
    tenant := sTenant d, dest := rDest d, destPkg := fld d 12 0 18, promptAddr := sPromptAddr d, promptLen := sPromptLen d,
    maxNew := sMaxNew d, maxLen := sMaxLen d, decodePkg := fld d 36 0 18, isLocal := fld d 36 31 1 == 1, seed := fld d 40 0 64,
    stops := [fld d 48 0 32, fld d 52 0 32, fld d 56 0 32, fld d 60 0 32], promptLeft := sPromptLen d, dCur := c.srv.dMax, acceptedAt := stamp }

/-- Is the variant, or the ring of DEST, disabled (R401)? A ring whose pair is not enabled counts as disabled. -/
def submitDisabled (c : Ctx) (d : Desc) : Bool :=
  isDisabled c (.variant (sVariant d)) || (decide (rDest d < 8) && !(c.pair (rDest d)).enable)

/-- The first status that applies (R376); 0 accepts. -/
def submitStatus (c : Ctx) (d : Desc) : Nat :=
  if !submitOk c d then 1
  else if (c.req? (rId d)).isSome then 2
  else if !(variantOf c (sVariant d)).valid then 6
  else if submitDisabled c d then 7
  else if sMaxLen d < sPromptLen d + 1 || c.srv.maxLenLimit < sMaxLen d then 4
  else if !admits c false [] [] (requestOf c d 0) then 5
  else if 32768 ≤ c.srv.reqs.length then 3
  else 0

/-- SUBMIT: accepted as `QUEUED`, or refused (R376). A record of an unknown opcode is answered here, `SRV_BAD_RECORD`. -/
def submitAct (src : Source) (d : Desc) (c : Ctx) : Ctx :=
  if c.dev.job.ending then refuseEnding src d (some 3) c
  else
    let st := submitStatus c d
    if st = 0 then
      let (n, c1) := c.stamp
      answerRecord src d 0 (c1.updSrv (fun s => { s with reqs := s.reqs ++ [requestOf c d n] }))
    else answerRecord src d st c

/-- SUBMIT. -/
def submitOp (src : Source) (d : Desc) (c : Ctx) : Ctx :=
  takeRecord (fun op => op == 1 || op == 0 || decide (6 < op)) src d (submitAct src d) c

/-! ### INPUT and END -/

/-- A conversation that waits for its next turn. -/
def waits (r : Req) : Bool := r.converse && r.turnOver

/-- May an INPUT come for the request: a conversation paused, or waiting for its next turn (Table 10-8)? -/
def takesInput (r : Req) : Bool := r.converse && (r.state == 4 || (r.state == 3 && r.cause == 2))

/-- INPUT: resident, it begins its prompt; paused, it holds the input and becomes runnable (Table 10-8). -/
def inputAct (src : Source) (d : Desc) (c : Ctx) : Ctx :=
  if c.dev.job.ending then refuseEnding src d none c
  else if !(zeroBytes d 1 3 && zeroBytes d 8 15 && zeroBytes d 22 23 && zeroBytes d 28 63 && promptOk c (fld d 16 0 48) (fld d 24 0 32)) then
    answerRecord src d 1 c
  else match c.req? (rId d) with
    | none => answerRecord src d 8 c
    | some r =>
      let n := fld d 24 0 32
      if !takesInput r then answerRecord src d 8 c
      else if r.maxLen < r.length + r.promptLeft + (r.inputs.map (fun p => p.2)).sum + n then answerRecord src d 4 c
      else if r.state = 4 then
        answerRecord src d 0 (c.updReq r.id (fun x => { x with inputs := x.inputs ++ [(fld d 16 0 48, n)], runnable := true }))
      else
        answerRecord src d 0 (c.updReq r.id (fun x =>
          { x with state := 1, promptAddr := fld d 16 0 48, promptLeft := n, turnEmitted := 0, turnOver := false }))

/-- END: a conversation waiting in T0 is completed with `FIN_END`. -/
def endAct (src : Source) (d : Desc) (c : Ctx) : Ctx :=
  if c.dev.job.ending then refuseEnding src d none c
  else if !(zeroBytes d 1 3 && zeroBytes d 8 63) then answerRecord src d 1 c
  else match c.req? (rId d) with
    | none => answerRecord src d 8 c
    | some r => if waits r && r.state == 3 then answerRecord src d 0 (finalize r 5 4 c) else answerRecord src d 8 c

/-! ### CANCEL (R395, R396) -/

/-- CANCEL as R396 lays down. -/
def cancelAct (src : Source) (d : Desc) (c : Ctx) : Ctx :=
  if c.dev.job.ending then refuseEnding src d none c
  else if !(zeroBytes d 1 3 && zeroBytes d 8 63) then answerRecord src d 1 c
  else match c.req? (rId d) with
    | some r =>
      let c1 := if r.state = 3 && r.cause = 3 then c.send (.abandon r.decodePkg r.id) else c
      answerRecord src d 0x10 (finalize r 6 0x10 c1)
    | none =>
      let mine := c.srv.ledger.filter (fun e => e.id == rId d)
      match mine.reverse.findSome? (fun e => e.forward) with
      | some pkg => schedule (c.send (.cancel pkg (rId d)))
      | none => answerRecord src d (if mine.any (fun e => e.state == 5) then 0x11 else if mine.isEmpty then 0x13 else 0x12) c

/-! ### QUOTA (R398–R400) -/

/-- QUOTA: set a holder's T0 quota; cut below its use it is OVER_QUOTA and a reclaim starts (R398–R400). -/
def quotaAct (src : Source) (d : Desc) (c : Ctx) : Ctx :=
  if c.dev.job.ending then refuseEnding src d (some 0x15) c
  else
    let ix := fld d 2 0 16
    let kind := fld d 1 0 8
    if !(kind ≤ 1 && ix < (if kind = 0 then 1024 else 256) && zeroBytes d 4 7 && zeroBytes d 12 63) then answerRecord src d 1 c
    else
      let h : Holder := if kind = 0 then .variant ix else .tenant ix
      let n := fld d 8 0 32
      if !c.srv.quotaAdjust || holderImage c h < n then answerRecord src d 0x15 c
      else if n < holderUse c (ofHolder h) then
        answerRecord src d 0x14 (reclaim h (setHolder h n true (some (c.dev.slow + c.srv.reclaimLimit, false)) c))
      else answerRecord src d 0x14 (setHolder h n false none c)

/-- RECLAIM_LATE: a reclaim still incomplete at its limit (R400). -/
def reclaimLateOp (h : Holder) (c : Ctx) : Ctx :=
  match holderReclaim c h with
  | some (t, false) =>
    if seqRuns c && decide (t ≤ c.dev.slow) then
      mgmtEvent 0 33 ((setHolder h (holderQuota c h) (holderOver c h) (some (t, true)) c).updSrv (fun s => { s with reclaimLate := true }))
    else c
  | _ => c

/-! ### VARIANT_DISABLE (R401) -/

/-- VARIANT_DISABLE: SUBMITs of the variant are refused from here, its requests have until the drain limit (R401, R419). -/
def variantDisableAct (src : Source) (d : Desc) (c : Ctx) : Ctx :=
  if c.dev.job.ending then refuseEnding src d none c
  else
    let v := fld d 2 0 16
    if !(fld d 1 0 8 == 0 && v < 1024 && zeroBytes d 4 63) then answerRecord src d 1 c
    else if !(variantOf c v).valid then answerRecord src d 6 c
    else answerRecord src d 0 (disableFn (.variant v) c)

/-! ### Steps (R384, R385, R392–R394, R402) -/

/-- Requests blocked for want of room whose destination has room again become `READY` (Table 10-8). -/
def unblock (c : Ctx) : Ctx :=
  c.updSrv (fun s => { s with reqs := s.reqs.map (fun r =>
    if r.state = 3 && r.cause = 1 && !r.pauseDue && (r.dest == 8 || decide (32 + 16 * (3 + dMaxOf c r) ≤ ringFree c r.dest)) then { r with state := 2 } else r) })

/-- The READY requests of a class in scan order: behind the rotation point, then from its earliest (R384). -/
def scanOrder (c : Ctx) (k : Nat) : List Req :=
  let l := sortBy (fun r => r.admittedAt) (c.srv.reqs.filter (fun r => r.cls == k && r.state == 2 && r.admitted && !r.pauseDue))
  match c.srv.rotation.find? (fun p => p.1 == k) with
  | some (_, p) => l.filter (fun r => decide (p < r.admittedAt)) ++ l.filter (fun r => r.admittedAt ≤ p)
  | none => l

/-- What a step under construction has taken. -/
structure Building where
  decodes : List (Nat × Nat) := []
  lens : List (Nat × Nat) := []
  variants : List Nat := []
  /-- bytes spoken for in each ring -/
  rings : Tab Nat := []
  blocked : List Nat := []
  rotation : Tab Nat := []
  deriving DecidableEq, Repr

/-- Drafts of a request in the step. -/
def draftsOf (r : Req) : Nat :=
  if r.spec then min r.dCur (min (r.maxNew - r.turnEmitted - 1) (r.maxLen - r.length - 1)) else 0

/-- Consider one READY request. -/
def takeDecode (c : Ctx) (b : Building) (r : Req) : Building :=
  if b.decodes.length = 4096 then b
  else
    let used := Tab.get 32 b.rings r.dest
    let need := 16 * (3 + dMaxOf c r)
    if r.dest < 8 && decide (ringFree c r.dest < used + need) then { b with blocked := r.id :: b.blocked }
    else
      let d := draftsOf r
      { b with
        decodes := b.decodes ++ [(r.id, d)]
        lens := b.lens ++ [(d, r.length + d + 1)]
        variants := b.variants ++ [r.variant]
        rings := Tab.set b.rings r.dest (used + need)
        rotation := Tab.set b.rotation r.cls r.admittedAt }

/-- Worst case of the decode entries. -/
def decodePart (c : Ctx) (b : Building) : Nat :=
  c.srv.stepBase + c.srv.variantCost * distinct b.variants + (b.lens.map (fun e => decodeCost c e.1 e.2)).sum

/-- Cost of a chunk (R384). -/
def chunkCost (c : Ctx) (vs : List Nat) (r : Req) (n : Nat) : Nat :=
  n * prefillToken c (bucket (r.length + n)) + (if vs.contains r.variant then 0 else c.srv.variantCost)

/-- The chunk that fits: the largest n, cut to multiples of 16 below. -/
def fitChunk (c : Ctx) (vs : List Nat) (r : Req) (w lim : Nat) : Nat → Nat → Nat
  | 0, _ => 0
  | fuel + 1, n => if n = 0 then 0 else if w + chunkCost c vs r n ≤ lim then n else fitChunk c vs r w lim fuel ((n - 1) / 16 * 16)

/-- Add chunks in order (R384): those taken and the worst case. -/
def takeChunks (c : Ctx) (lim : Nat) : List Req → List Nat → Nat → List (Nat × Nat) × Nat
  | [], _, w => ([], w)
  | r :: t, vs, w =>
    let n := fitChunk c vs r w lim 4097 (min r.promptLeft c.srv.chunkMax)
    if n = 0 then ([], w)
    else
      let w1 := w + chunkCost c vs r n
      if n < r.promptLeft then ([(r.id, n)], w1)
      else
        let (l, w2) := takeChunks c lim t (r.variant :: vs) w1
        ((r.id, n) :: l, w2)

/-- May the package's role run chunks of the request (R368)? -/
def chunkRole (c : Ctx) (r : Req) : Bool := c.srv.role != 2 || decide (0 < r.emitted)

/-- BUILD_STEP (R384). -/
def buildStepOp (c : Ctx) : Ctx :=
  if !seqRuns c || c.dev.job.ending || c.srv.plan.isSome then c
  else
    let c0 := unblock c
    let ready := if c0.srv.role = 1 then [] else [0, 1, 2, 3].flatMap (scanOrder c0)
    let b := ready.foldl (takeDecode c0) {}
    let prefill := (sortBy (fun r => r.cls) (sortBy (fun r => r.admittedAt)
      (c0.srv.reqs.filter (fun r => r.state == 1 && r.admitted && !r.pauseDue && chunkRole c0 r))))
    let (chunks, w) := takeChunks c0 ((deadlineOf c0 (admittedSet c0)).getD 0) prefill b.variants (decodePart c0 b)
    let c1 := b.blocked.foldl (fun a id => a.updReq id (fun r => { r with state := 3, cause := 1 })) c0
    if b.decodes.isEmpty && chunks.isEmpty then c1
    else
      let (n, c2) := c1.stamp
      c2.updSrv (fun s =>
        { s with
          plan := some { decodes := b.decodes, chunks := chunks, worst := w, since := c2.dev.slow }
          rotation := b.rotation.foldl (fun t p => Tab.set t p.1 p.2) s.rotation
          reqs := s.reqs.map (fun r =>
            if b.decodes.any (fun e => e.1 == r.id) || chunks.any (fun e => e.1 == r.id) then { r with steppedAt := n } else r) })

/-- SRV_OVERRUN: the step in flight has run longer than its worst case (R372). -/
def srvOverrunOp (c : Ctx) : Ctx :=
  match c.srv.plan with
  | some p =>
    if !p.overran && decide (p.worst < c.since p.since) then
      mgmtEvent 0 32 (c.updSrv (fun s => { s with overrun := true, plan := some { p with overran := true } }))
    else c
  | none => c

/-- Drafts accepted: the leading ones that equal the main token at their position (R392). -/
def accepted : List Nat → List Nat → Nat
  | d :: ds, m :: ms => if d = m then accepted ds ms + 1 else 0
  | _, _ => 0

/-- Why a request's turn or output ends at the token just emitted: the first reason that holds (R393). -/
def stopReason (r : Req) (tok : Nat) (eos : Bool) : Option Nat :=
  if eos then some 0
  else if r.stops.contains tok && tok != 0xFFFFFFFF then some 1
  else if r.maxNew ≤ r.turnEmitted then some 2
  else if r.maxLen ≤ r.length then some 3
  else none

/-- Emit tokens in position order up to the first that stops (R393): the request after, the entries, the reason. -/
def emitTokens : List (Nat × Bool) → Req → List (List Byte) × Req × Option Nat
  | [], r => ([], r, none)
  | (tok, eos) :: t, r =>
    let e := recordEntry r.id tok 0 0 0 r.emitted
    let r1 := { r with emitted := r.emitted + 1, turnEmitted := r.turnEmitted + 1, length := r.length + 1 }
    match stopReason r1 tok eos with
    | some why => ([e], r1, some why)
    | none =>
      let (l, r2, why) := emitTokens t r1
      (e :: l, r2, why)

/-- Draft length and streaks after a step with `d` drafts of which `k` were accepted (R394). -/
def streaks (dMax : Nat) (r : Req) (d k : Nat) : Req :=
  if d = 0 || d ≠ r.dCur then r
  else if k = 0 then
    if r.zeroStreak + 1 = 4 then { r with dCur := max 1 (r.dCur / 2), zeroStreak := 0, fullStreak := 0 }
    else { r with zeroStreak := r.zeroStreak + 1, fullStreak := 0 }
  else if k = d then
    if r.fullStreak + 1 = 4 then { r with dCur := min dMax (2 * r.dCur), zeroStreak := 0, fullStreak := 0 }
    else { r with fullStreak := r.fullStreak + 1, zeroStreak := 0 }
  else { r with zeroStreak := 0, fullStreak := 0 }

/-- Put a request back in the books. -/
def putReq (r : Req) (c : Ctx) : Ctx := c.updReq r.id (fun _ => r)

/-- The next turn of a conversation: with an input held its prompt begins, else it waits for one. -/
def nextTurn (r : Req) (now : Nat) : Req :=
  match r.inputs with
  | (a, n) :: t => { r with state := 1, promptAddr := a, promptLeft := n, turnEmitted := 0, turnOver := false, inputs := t }
  | [] => { r with state := 3, cause := 2, turnOver := true, since := now }

/-- A turn ends for a reason: FINAL, or TURN_END and `AWAIT_INPUT` (Table 10-8). An input held since a pause is then its next turn. -/
def turnEnds (r : Req) (why : Nat) (c : Ctx) : Ctx :=
  if r.converse && decide (r.length < r.maxLen) then
    putReq (nextTurn r c.dev.slow)
      (emit r.dest r.destPkg (recordEntry r.id 0xFFFFFFFF 2 3 0 r.emitted) c)
  else finalize r 5 why (putReq r c)

/-- The entries of a request's tokens join its batch. -/
def emitAll (r : Req) (l : List (List Byte)) (c : Ctx) : Ctx := l.foldl (fun a e => emit r.dest r.destPkg e a) c

/-- Commit one decode entry (R385, R392–R394). -/
def commitDecode (results : List StepResult) (c : Ctx) (e : Nat × Nat) : Ctx :=
  match c.req? e.1, results.find? (fun x => x.req == e.1) with
  | some r, some x =>
    let k := accepted x.drafts x.mains
    let (l, r1, why) := emitTokens ((x.mains.zip x.eos).take (k + 1)) r
    let r2 := streaks c.srv.dMax r1 e.2 k
    let c1 := emitAll r l c
    match why with
    | some w => turnEnds r2 w c1
    | none => putReq { r2 with state := 2 } c1
  | _, _ => c

/-- The last chunk of a prompt has committed with its first token: `READY`, or `SHIP` when another package decodes; one that has left the
membership cannot take the cache (R386). -/
def promptDone (r : Req) (c : Ctx) : Ctx :=
  if decodesAway c r && c.dev.res.removed.contains (r.decodePkg / 8) then finalize r 8 0x20 (putReq r c)
  else if decodesAway c r then
    (putReq { r with state := 3, cause := 3, hand := 4, handAt := c.dev.slow, via := viaPort c r.decodePkg } c).send (.move r.id 4)
  else putReq { r with state := 2 } c

/-- Commit one prompt chunk. -/
def commitChunk (results : List StepResult) (c : Ctx) (e : Nat × Nat) : Ctx :=
  match c.req? e.1 with
  | none => c
  | some r =>
    let r1 := { r with length := r.length + e.2, promptLeft := r.promptLeft - e.2 }
    if r1.promptLeft ≠ 0 then putReq r1 c
    else match results.find? (fun x => x.req == e.1) with
      | none => putReq r1 c
      | some x =>
        let (l, r2, why) := emitTokens ((x.mains.zip x.eos).take 1) r1
        let c1 := emitAll r l c
        match why with
        | some w => turnEnds r2 w c1
        | none => promptDone r2 c1

/-- Every entry of the step that emits has its result, of its length (R385). -/
def resultsOk (c : Ctx) (p : StepPlan) (results : List StepResult) : Bool :=
  let fits (id d : Nat) : Bool := results.any (fun x => x.req == id && x.drafts.length == d && x.mains.length == d + 1 && x.eos.length == d + 1) &&
    (match results.find? (fun x => x.req == id) with | some x => x.drafts.length == d && x.mains.length == d + 1 && x.eos.length == d + 1 | none => false)
  p.decodes.all (fun e => fits e.1 e.2) &&
  p.chunks.all (fun e => match c.req? e.1 with | some r => decide (e.2 < r.promptLeft) || fits e.1 0 | none => true)

/-- Pauses that waited for the step (R400). -/
def duePauses (c : Ctx) : Ctx :=
  (c.srv.reqs.filter (fun r => r.pauseDue)).foldl (fun a r =>
    match a.req? r.id with
    | some x => if x.state = 3 && (x.cause = 0 || x.cause = 3) then putReq { x with pauseDue := false } a else pauseNow x true a
    | none => a) c

/-- Disable the variants named, those that exist (R401). -/
def weightsPoisoned (l : List Nat) (c : Ctx) : Ctx :=
  l.foldl (fun a v => if (variantOf a v).valid then disableFn (.variant v) a else a) c

/-- The step in flight is over: nothing reads the caches of final requests any more (R395). -/
def planOver (c : Ctx) : Ctx := duePauses (c.updSrv (fun s => { s with plan := none, leaving := [] }))

/-- KIND 4 entries of a step (Table 10-6): where a request of it that is not final stands then, with its blocked cause. R568 keeps room for
one a request, but no rule says when one is written: for each request that is free (log entry 77). -/
def stateEntries (p : StepPlan) (c : Ctx) : Ctx :=
  (p.decodes ++ p.chunks).foldl (fun a e =>
    match a.req? e.1 with
    | none => a
    | some r =>
      let (k, a1) := a.draw 1
      if Config.freeBool k then emit r.dest r.destPkg (recordEntry r.id 0xFFFFFFFF 4 r.state (if r.state = 3 then r.cause else 0) 0) a1 else a1) c

/-- STEP_COMMIT: the step commits whole (R385, R409), or cannot and fails the requests named, the others running again (R402). A variant
whose private expert weights a read of the step found poisoned is disabled (R401). -/
def stepCommitOp (results : List StepResult) (failed : StepFaults) (c : Ctx) : Ctx :=
  match c.srv.plan with
  | none => c
  | some p =>
    if !seqRuns c then c
    else if p.lost || !failed.reqs.isEmpty then
      let c1 := failed.reqs.foldl (fun a f =>
        match a.req? f.1 with
        | some r => if inPlan a r.id then finalize r 8 (if f.2 = 0x21 then 0x21 else 0x20) a else a
        | none => a) (weightsPoisoned failed.weights c)
      schedule (planOver (c1.updJob (fun j => { j with flown := j.flown + c.since p.since })))
    else if !resultsOk c p results then c
    else
      let c1 := p.chunks.foldl (commitChunk results) (p.decodes.foldl (commitDecode results) (weightsPoisoned failed.weights c))
      flushBatch false (stateEntries p (consider (planOver (stepRise c1))))

/-! ### Pauses, tier moves and time to live (R274–R276, R387–R389) -/

/-- PAUSE_IDLE: a conversation has waited in T0 for its class's PAUSE_IDLE (Table 10-8). -/
def pauseIdleOp (id : Nat) (c : Ctx) : Ctx :=
  match c.req? id with
  | some r =>
    if seqRuns c && r.state == 3 && r.cause == 2 && decide ((classOf c r.cls).idle ≤ c.since r.since) then schedule (pauseNow r false c) else c
  | none => c

/-- Does the cache fit in T1 now (R389)? -/
def fitsT1 (c : Ctx) (r : Req) : Bool :=
  ((c.srv.reqs.filter (fun x => x.tier == 1)).map (fun x => x.blocks)).sum + r.blocks ≤ c.srv.t1Blocks

/-- A cache has arrived in T0: the request goes on (Table 10-8). -/
def arriveT0 (r : Req) (c : Ctx) : Ctx :=
  let r1 := { r with tier := 0, moving := none, t2 := [], crcs := [], urgent := false, via := none }
  let r2 := if r.turnOver && !r.inputs.isEmpty then nextTurn r1 c.dev.slow else r1
  quotaCheck (putReq { r2 with state := if r2.promptLeft ≠ 0 then 1 else 2 } (t2Release r c))

/-- A cache has arrived in T1 or T2: it leaves T0 for good, or is freed if its time ran out on the way (R274). -/
def arriveTier (r : Req) (t : Nat) (c : Ctx) : Ctx :=
  let r1 := { r with tier := t, moving := none, admitted := false, urgent := false, via := none }
  if r.expired then finalize r1 7 0x11 (putReq r1 c) else quotaCheck (putReq r1 c)

/-- May a cache block lie at `a` in T0: general unit memory of a unit in service (Table 06-7)? -/
def t0Place (c : Ctx) (a : Nat) : Bool :=
  let n := c.srv.blockBytes
  lpSize ≤ a && dmaByteOk c a n && (match place a with
    | .um u _ =>
      let g := (c.unit u).region
      !overlaps a n (seedbed c u).1 (seedbed c u).2 && !overlaps a n (wabRegion c u).1 (wabRegion c u).2 &&
        !overlaps a n (umBase u + g.stashBase * 65536) (g.stashSize * 65536)
    | _ => false)

/-- May a cache block lie at `a` in T1: local LPDDR5X in an area with WRITE set? -/
def t1Place (c : Ctx) (a : Nat) : Bool :=
  let n := c.srv.blockBytes
  a % 64 == 0 && a + n ≤ lpSize && inAreas c (fun x => x.write && !x.staging) a n

/-- One place for each of `n` blocks, apart from one another. -/
def placesApart (bytes n : Nat) (l : List Nat) : Bool :=
  l.length == n && (List.range n).all (fun i => (l.drop (i + 1)).all (fun b => !overlaps (l.getD i 0) bytes b bytes))

/-- `l` can be where the cache of `r` lies in tier `t`: what moves have placed is there. -/
def sourcePlaces (c : Ctx) (r : Req) (t : Nat) (l : List Nat) : Bool :=
  placesApart c.srv.blockBytes r.blocks l && l.all (if t = 0 then t0Place c else t1Place c) && l.take r.addrs.length == r.addrs

/-- `l` can take the cache of `r` in tier `t`: free of every other request's blocks. -/
def freshPlaces (c : Ctx) (r : Req) (t : Nat) (l : List Nat) : Bool :=
  let n := c.srv.blockBytes
  placesApart n r.blocks l && l.all (if t = 0 then t0Place c else t1Place c) &&
  l.all (fun a => c.srv.reqs.all (fun x => x.id == r.id || x.addrs.all (fun b => !overlaps a n b n)))

/-- Copy blocks one for one by local DMA, poison with them (Table 06-5). -/
def copyBlocks (n : Nat) (src dst : List Nat) (c : Ctx) : Ctx := (src.zip dst).foldl (fun a p => copyLines p.1 p.2 n a) c

/-- The contents of blocks. -/
def blockData (c : Ctx) (src : List Nat) : List (List Byte) := src.map (fun a => c.read a c.srv.blockBytes)

/-- Write blocks to another package or to the host, each with its CRC-32C (R275). -/
def sendBlocks (id : Nat) (pkg : Option Nat) (dst : List Nat) (data : List (List Byte)) (c : Ctx) : Ctx :=
  (dst.zip data).foldl (fun a p => a.send (.block id pkg p.1 p.2 (crc32c p.2))) c

/-- Blocks leave by remote DMA: a poisoned one ends the request with `FIN_POISON` (Tables 06-5 and 10-8). -/
def remoteBlocks (r : Req) (src : List Nat) (go : Ctx → Ctx) (c : Ctx) : Ctx :=
  let n := c.srv.blockBytes
  let c1 := src.foldl (fun a s => eccRead s n a) c
  if src.any (fun s => poisonAt c1 s n) then schedule (finalize r 8 0x21 c1) else go c1

/-- Is it the move's turn: no move of a reclaim, started before it, still runs (R400)? -/
def moveTurn (c : Ctx) (r : Req) : Bool :=
  r.urgent || !c.srv.reqs.any (fun x => x.urgent && x.moving.isSome && decide (x.movedAt < r.movedAt))

/-- TIER_MOVE_COMPLETE: the destination has acknowledged the last byte of a request's cache, its blocks at `src` now at `dst` (R273, R274);
a cache that returns from T2 comes as `data`, checked against the CRC-32C of each block (R275). Where in T0 and T1 its blocks lie the spec
leaves to the sequencer: the command says it (log entry 131). For a request in `SHIP` the TRANSFER follows (R386). -/
def tierMoveCompleteOp (id : Nat) (m : MoveEnd) (c : Ctx) : Ctx :=
  let src := m.src
  let dst := m.dst
  let data := m.data
  match c.req? id with
  | none => c
  | some r =>
    let n := c.srv.blockBytes
    if !seqRuns c || !moveTurn c r then c
    else if r.hand = 4 then
      if !(sourcePlaces c r 0 src && placesApart n r.blocks dst) then c
      else remoteBlocks r src (fun c =>
        let t : Transfer := { req := r.id, emitted := r.emitted, turnEmitted := r.turnEmitted, length := r.length, dCur := r.dCur,
                              zeroStreak := r.zeroStreak, fullStreak := r.fullStreak, seed := r.seed, dest := r.dest, destPkg := r.destPkg }
        actionEnd ((putReq { r with hand := 5, handAt := c.dev.slow } (sendBlocks r.id (some r.decodePkg) dst (blockData c src) c)).send
          (.transfer r.decodePkg t))) c
    else match r.moving with
      | none => c
      | some 0 =>
        if !freshPlaces c r 0 dst then c
        else if r.tier = 2 then
          if data.length ≠ r.blocks || data.any (fun b => b.length != n) then c
          else if data.map crc32c ≠ r.crcs then schedule (finalize r 8 0x20 c)
          else schedule (arriveT0 { r with addrs := dst } ((dst.zip data).foldl (fun a p => store p.1 p.2 a) c))
        else if sourcePlaces c r 1 src then schedule (arriveT0 { r with addrs := dst } (copyBlocks n src dst c))
        else c
      | some 1 =>
        if fitsT1 c r && sourcePlaces c r 0 src && freshPlaces c r 1 dst then
          schedule (arriveTier { r with addrs := dst } 1 (copyBlocks n src dst c))
        else c
      | some _ =>
        if !sourcePlaces c r r.tier src then c
        else remoteBlocks r src (fun c =>
          let blocks := blockData c src
          schedule (arriveTier { r with addrs := [], crcs := blocks.map crc32c } 2
            (sendBlocks r.id (t2Pkg c) (r.t2.map (t2Addr c)) blocks c))) c

/-- TTL_EXPIRY: a paused cache's time to live in its tier is over (R388); during a move it waits for the move's end (R274). -/
def ttlExpiryOp (id : Nat) (c : Ctx) : Ctx :=
  match c.req? id with
  | none => c
  | some r =>
    let k := classOf c r.cls
    let at1 := r.moving.getD r.tier == 1
    let ttl := if at1 then k.ttl1 else k.ttl2
    if !seqRuns c || r.state ≠ 4 || !(r.moving.getD r.tier == 1 || r.moving.getD r.tier == 2) || c.since r.since < ttl then c
    else if r.moving.isSome then putReq { r with expired := true } c
    else if r.tier = 1 && k.ttl2 ≠ 0 then
      schedule (if t2Room c r.blocks then startMove r.id 2 c else finalize r 7 0x12 c)
    else schedule (finalize r 7 0x11 c)

/-- T2_FREE_REQUEST: the owner frees a block it holds here (R276). -/
def t2FreeRequestOp (owner block : Nat) (c : Ctx) : Ctx :=
  if refusesFrom c owner then c.send (.refused owner) else
  quotaCheck (c.updSrv (fun s => { s with t2Held := s.t2Held.filter (fun p => !(p.1 == owner && p.2 == block)) }))

/-! ### Hand-off (R386, Table 10-9) -/

/-- RESERVE: GRANT, holding a queued record with its reservation, when R380 admits it; else DEFER. -/
def reserveOp (pkg : Nat) (m : Reserve) (c : Ctx) : Ctx :=
  if !seqRuns c then c
  else if refusesFrom c pkg then c.send (.refused pkg)
  else
    let (n, c1) := c.stamp
    let r : Req :=
      { id := m.req, cls := m.cls, converse := m.converse, spec := m.spec, sample := m.sample, variant := m.variant, tenant := m.tenant,
        dest := m.dest, destPkg := m.destPkg, maxNew := m.maxNew, maxLen := m.maxLen, stops := m.stops, dCur := c.srv.dMax,
        admitted := true, admittedAt := n, acceptedAt := n, hand := 6, handAt := c.dev.slow, handPkg := pkg }
    if c.dev.job.ending || (c.req? m.req).isSome || !(variantOf c m.variant).valid || isDisabled c (.variant m.variant) ||
        32768 ≤ c.srv.reqs.length || !admits c true c.srv.leaving (admittedSet c) r then
      schedule (c.send (.defer pkg m.req))
    else schedule ((c1.updSrv (fun s => { s with reqs := s.reqs ++ [r] })).send (.grant pkg m.req))

/-- GRANT: the prefill package admits the request (R386). -/
def grantOp (id : Nat) (c : Ctx) : Ctx :=
  match c.req? id with
  | some r => if seqRuns c && r.hand == 1 then schedule (putReq { r with hand := 2 } c) else c
  | none => c

/-- DEFER: the request stays queued until RETRY_CYCLES have passed. -/
def deferOp (id : Nat) (c : Ctx) : Ctx :=
  match c.req? id with
  | some r => if seqRuns c && r.hand == 1 then actionEnd (putReq { r with hand := 3, handAt := c.dev.slow } c) else c
  | none => c

/-- RETRY_CYCLES: the RESERVE is sent again. -/
def retryCyclesOp (id : Nat) (c : Ctx) : Ctx :=
  match c.req? id with
  | some r => if seqRuns c && r.hand == 3 && decide (c.srv.retryCycles ≤ c.since r.handAt) then schedule (putReq { r with hand := 0 } c) else c
  | none => c

/-- TRANSFER: this package becomes the owner and moves the cache from T1 into T0 (steps 8 and 10 of Table 10-9). -/
def transferOp (t : Transfer) (c : Ctx) : Ctx :=
  match c.req? t.req with
  | none => c
  | some r =>
    if !seqRuns c || r.hand ≠ 6 then c
    else if refusesFrom c r.handPkg then c.send (.refused r.handPkg)
    else
      let r1 := { r with
        emitted := t.emitted, turnEmitted := t.turnEmitted, length := t.length, dCur := t.dCur, zeroStreak := t.zeroStreak,
        fullStreak := t.fullStreak, seed := t.seed, dest := t.dest, destPkg := t.destPkg, hand := 7, tier := 1, since := c.dev.slow }
      let c1 := c.send (.transferAck r.handPkg r.id)
      if r.admitted then schedule (quotaCheck (startMove r.id 0 (putReq { r1 with state := 3, cause := 0 } c1)))
      else schedule (quotaCheck (putReq r1 c1))

/-- TRANSFER_ACKNOWLEDGE: the prefill package frees the request and keeps a forwarding entry (step 9). -/
def transferAcknowledgeOp (id : Nat) (c : Ctx) : Ctx :=
  match c.req? id with
  | some r =>
    if seqRuns c && r.hand == 5 then
      schedule (dropReq r (ledgerAdd { id := r.id, state := r.state, forward := some r.decodePkg } c))
    else c
  | none => c

/-- HANDOFF_TIMEOUT: no TRANSFER came in time; the reservation is freed (R386). -/
def handoffTimeoutOp (id : Nat) (c : Ctx) : Ctx :=
  match c.req? id with
  | some r =>
    if seqRuns c && r.hand == 6 && decide (c.srv.handoffTimeout ≤ c.since r.handAt) then schedule (dropReq r c) else c
  | none => c

/-- ABANDON: the decode package frees the reservation and blocks (R396). -/
def abandonOp (id : Nat) (c : Ctx) : Ctx :=
  match c.req? id with
  | some r => if seqRuns c && (r.hand == 6 || r.hand == 7) then schedule (dropReq r c) else c
  | none => c

/-! ### Requests that end together -/

/-- End every request that satisfies `p` as `FAILED` with a reason. -/
def failAll (p : Req → Bool) (reason : Nat) (c : Ctx) : Ctx := (c.srv.reqs.filter p).foldl (fun a r => finalize r 8 reason a) c

/-! ### The commands -/

/-- SUBMIT (R376). -/
def execSubmit (src : Source) (record : Desc) (s : State) : Host.Outcome State Fault Refusal :=
  perform (.submit src record) s (submitOp src record)
/-- CANCEL (R395–R397). -/
def execCancel (src : Source) (record : Desc) (s : State) : Host.Outcome State Fault Refusal :=
  perform (.cancel src record) s (takeRecord (fun op => op == 2) src record (cancelAct src record))
/-- INPUT (R379). -/
def execInput (src : Source) (record : Desc) (s : State) : Host.Outcome State Fault Refusal :=
  perform (.input src record) s (takeRecord (fun op => op == 3) src record (inputAct src record))
/-- END (R379). -/
def execEndTurn (src : Source) (record : Desc) (s : State) : Host.Outcome State Fault Refusal :=
  perform (.endTurn src record) s (takeRecord (fun op => op == 4) src record (endAct src record))
/-- QUOTA (R398–R400). -/
def execQuota (src : Source) (record : Desc) (s : State) : Host.Outcome State Fault Refusal :=
  perform (.quota src record) s (takeRecord (fun op => op == 5) src record (quotaAct src record))
/-- VARIANT_DISABLE (R401). -/
def execVariantDisable (src : Source) (record : Desc) (s : State) : Host.Outcome State Fault Refusal :=
  perform (.variantDisable src record) s (takeRecord (fun op => op == 6) src record (variantDisableAct src record))
/-- BUILD_STEP (R384). -/
def execBuildStep (s : State) : Host.Outcome State Fault Refusal := perform .buildStep s buildStepOp
/-- STEP_COMMIT (R385, R402). -/
def execStepCommit (results : List StepResult) (failed : StepFaults) (s : State) : Host.Outcome State Fault Refusal :=
  perform (.stepCommit results failed) s (stepCommitOp results failed)
/-- SRV_OVERRUN (R372). -/
def execSrvOverrun (s : State) : Host.Outcome State Fault Refusal := perform .srvOverrun s srvOverrunOp
/-- PAUSE_IDLE (R379). -/
def execPauseIdle (req : Nat) (s : State) : Host.Outcome State Fault Refusal := perform (.pauseIdle req) s (pauseIdleOp req)
/-- RECLAIM_LATE (R400). -/
def execReclaimLate (h : Holder) (s : State) : Host.Outcome State Fault Refusal := perform (.reclaimLate h) s (reclaimLateOp h)
/-- RESERVE (R386). -/
def execReserve (pkg : Nat) (r : Reserve) (s : State) : Host.Outcome State Fault Refusal := perform (.reserve pkg r) s (reserveOp pkg r)
/-- GRANT (R386). -/
def execGrant (req : Nat) (s : State) : Host.Outcome State Fault Refusal := perform (.grant req) s (grantOp req)
/-- DEFER (R386). -/
def execDefer (req : Nat) (s : State) : Host.Outcome State Fault Refusal := perform (.defer req) s (deferOp req)
/-- RETRY_CYCLES (R386). -/
def execRetryCycles (req : Nat) (s : State) : Host.Outcome State Fault Refusal := perform (.retryCycles req) s (retryCyclesOp req)
/-- TRANSFER (R386). -/
def execTransfer (t : Transfer) (s : State) : Host.Outcome State Fault Refusal := perform (.transfer t) s (transferOp t)
/-- TRANSFER_ACKNOWLEDGE (R386). -/
def execTransferAcknowledge (req : Nat) (s : State) : Host.Outcome State Fault Refusal :=
  perform (.transferAcknowledge req) s (transferAcknowledgeOp req)
/-- HANDOFF_TIMEOUT (R386). -/
def execHandoffTimeout (req : Nat) (s : State) : Host.Outcome State Fault Refusal := perform (.handoffTimeout req) s (handoffTimeoutOp req)
/-- ABANDON (R396). -/
def execAbandon (req : Nat) (s : State) : Host.Outcome State Fault Refusal := perform (.abandon req) s (abandonOp req)
/-- TIER_MOVE_COMPLETE (R274). -/
def execTierMoveComplete (req : Nat) (move : MoveEnd) (s : State) : Host.Outcome State Fault Refusal :=
  perform (.tierMoveComplete req move) s (tierMoveCompleteOp req move)
/-- T2_FREE_REQUEST (R276). -/
def execT2FreeRequest (owner block : Nat) (s : State) : Host.Outcome State Fault Refusal :=
  perform (.t2FreeRequest owner block) s (t2FreeRequestOp owner block)
/-- TTL_EXPIRY (R388). -/
def execTtlExpiry (req : Nat) (s : State) : Host.Outcome State Fault Refusal := perform (.ttlExpiry req) s (ttlExpiryOp req)

end Sys2Proof.Machine
end

