-- ==== Sys2Proof/Machine/Jobs.lean ====
section
/-!
DEFINITION. The job controller (chapter 11): starts and their refusals, the job mailbox (R564), release, the limits, the steps of
Table 11-4, and the end of a drain under R419.
-/
namespace Sys2Proof.Machine

/-! ### Starting a job (R406–R408) -/

/-- Is the job controller at work: the die management core of die 0 loaded (R405)? -/
def ctlRuns (c : Ctx) : Bool := (c.core 2064).load == .loaded

/-- The first refusal of Table 11-2 that applies to job `i`; 0 for none. `request`: the start comes through the mailbox. A topology
check not yet run gates starts like one that failed (log entry 70). -/
def startRefusal (request : Bool) (i : Nat) (c : Ctx) : Nat :=
  let a := jobEntry c (imgBase c) i
  let t := c.dev.topo.outcome
  if 63 < i || !jeValid c a || (request && jeStart c a != 0) then 1
  else if c.dev.safe.safe then 7
  else if c.dev.job.running then 2
  else if !(t == 1 || (t == 2 && jeDegraded c a)) then 3
  else if jeVariant c a ≠ c.dev.boot.variant then 4
  else if ofBytesBE (c.read (a + 48) 48) ≠ c.dev.boot.digest then 5
  else if c.dev.epochStuck then 6
  else 0

/-- The job block of an accepted start, from the entry at `a`. -/
def jobOf (c : Ctx) (i a : Nat) : JobSt :=
  let b := imgBase c
  { index := i, running := true, endCode := c.dev.job.endCode, refusal := c.dev.job.refusal
    quota := c.readNat (a + 32) 4, memQuota := c.readNat (a + 32) 4, kind := jeKind c a, maxSteps := c.readNat (a + 8) 6
    drainLimit := c.readNat (a + 16) 4, stallLimit := c.readNat (a + 20) 4, timeLimit := c.readNat (a + 24) 6
    stepWcet := if jeKind c a = 2 then 0 else c.readNat (a + 36) 4
    areas := (jeOff c b a 96).elim [] (parseAreas c), releasedAt := c.dev.slow, stepAt := c.dev.slow, stepStart := c.dev.slow }

/-- The registers of the unit section, an emptied allocator, and the unit reset (R236, R303, R309, R408). -/
def loadUnit (sec : Option Nat) (u : Nat) (c : Ctx) : Ctx :=
  let at8 (o : Nat) : Nat := sec.elim 0 (fun p => c.readNat (p + 16 * u + o) 8)
  unitResetStart u (c.updUnit u (fun x =>
    { x with region := parseRegion (at8 0), stash := { spillBase := bits (at8 8) 0 32, spillSize := bits (at8 8) 32 24 } }))

/-- A die part of the furrow section at `p`: its registers, and its group table and programs copied to LPDDR5X (R517, R325, R328). -/
def loadFurrow (d p : Nat) (c : Ctx) : Ctx :=
  let cfg := c.readNat p 8
  let groups := bits cfg 33 7
  let gb := c.readNat (p + 8) 8 % 2 ^ 48
  let prog (k : Nat) : Nat × Nat := let v := c.readNat (p + 8 + 8 * k) 8; (v % 2 ^ 48, v / 2 ^ 48)
  let chan (k : Nat) : FurChan := { base := (prog k).1, len := (prog k).2 }
  let st : FurSt := { timeout := bits cfg 0 32, nanPolicy := bit cfg 32, groups := groups, groupBase := gb,
                      chans := [1, 2, 3, 4].map (fun k => (k, chan k)) }
  let c1 := copyLines (p + 64) gb (64 * groups) (c.updFur d (fun _ => st))
  ([1, 2, 3, 4].foldl (fun (x : Nat × Ctx) k =>
    let n := 64 * (prog k).2
    (x.1 + n, copyLines x.1 (prog k).1 n x.2)) (p + 64 + 64 * groups, c1)).2

/-- Offsets of the four die parts of the furrow section at `f`, and of the resilience block behind them. -/
def furrowParts (c : Ctx) (f : Nat) : List Nat :=
  (List.range 4).foldl (fun l _ => l ++ [l.getLastD f + c.readNat (l.getLastD f + 48) 4]) [f]

/-- The resilience block at `r` (Table 13-2). -/
def parseRes (c : Ctx) (r prog : Nat) : ResSt :=
  let roster (n o : Nat) : List Nat := (List.range (min n 256)).map (fun i => c.readNat (r + o + 2 * i) 2)
  { present := true, enable := bit (c.readNat r 1) 0, buddy := c.readNat (r + 4) 4 % 2 ^ 18, witness := c.readNat (r + 8) 4 % 2 ^ 18
    ward := c.readNat (r + 12) 4 % 2 ^ 18, witnessed := c.readNat (r + 16) 4 % 2 ^ 18, homeBase := c.readNat (r + 20) 6
    wardBase := c.readNat (r + 26) 6, slotPages := c.readNat (r + 32) 4, tauMin := c.readNat (r + 36) 2
    tauMax := c.readNat (r + 38) 2, kLog2 := c.readNat (r + 40) 1, planLead := c.readNat (r + 41) 1
    sheafTimeout := c.readNat (r + 44) 4, noticeWait := c.readNat (r + 48) 4, cursorAddr := c.readNat (r + 52) 6
    restartAddr := c.readNat (r + 58) 6, checkBase := c.readNat (r + 64) 6, checkBytes := c.readNat (r + 72) 6
    skipPorts := [c.readNat (r + 80) 2, c.readNat (r + 82) 2, c.readNat (r + 84) 2, c.readNat (r + 86) 2]
    roster2 := roster (c.readNat (r + 88) 2) 128, roster3 := roster (c.readNat (r + 90) 2) 640, programDigest := prog }

/-- Digest of the program section of the entry at `a`: its load plan and segments. -/
def programDigestOf (c : Ctx) (a : Nat) : Nat :=
  match programPlan c (imgBase c) a with
  | some (p, s) => sha384Nat (c.read p (s - p + 4128 * c.readNat (p + 4) 4))
  | none => 0

/-- The sequencer's parameters from the serving section at `s` (Table 15-9). -/
def parseServing (c : Ctx) (s : Nat) : SrvSt :=
  let b0 := c.readNat s 1
  let row (o : Nat) : List Nat := (List.range 10).map (fun i => c.readNat (s + o + 4 * i) 4)
  let cls (k : Nat) : ClassSt :=
    let e := s + 192 + 16 * k
    { deadline := c.readNat e 4, ttl1 := c.readNat (e + 4) 4, ttl2 := c.readNat (e + 8) 4, idle := c.readNat (e + 12) 4 }
  let variant (v : Nat) : VariantSt :=
    let e := s + 2304 + 64 * v
    let n := c.readNat (e + 1) 1 % 32
    { valid := bit (c.readNat e 1) 0, priv := n, experts := (List.range (min n 16)).map (fun i => c.readNat (e + 2 + 2 * i) 2)
      image := c.readNat (e + 34) 4, quota := c.readNat (e + 34) 4 }
  let tenant (t : Nat) : TenantSt := { image := c.readNat (s + 256 + 8 * t) 4, quota := c.readNat (s + 256 + 8 * t) 4 }
  { role := bits b0 0 2, t2Form := bits b0 2 1, quotaAdjust := bit b0 3, dMax := bits b0 4 4, chunkMax := c.readNat (s + 2) 2
    t0Blocks := c.readNat (s + 4) 4 % 2 ^ 24, t1Blocks := c.readNat (s + 8) 4, blockBytes := c.readNat (s + 12) 4
    t2Target := c.readNat (s + 16) 8, maxLenLimit := c.readNat (s + 24) 4, prefillReserve := c.readNat (s + 28) 4
    stepBase := c.readNat (s + 32) 4, variantCost := c.readNat (s + 36) 4, decodeToken := row 40, draftToken := row 80
    prefillToken := row 120, reclaimLimit := c.readNat (s + 160) 4, retryCycles := c.readNat (s + 164) 4
    handoffTimeout := c.readNat (s + 168) 4, t2Blocks := c.readNat (s + 172) 4, sharedExperts := c.readNat (s + 178) 2
    classes := (List.range 4).map cls
    variants := (List.range (min 1024 (c.readNat (s + 176) 2))).map (fun v => (v, variant v))
    tenants := (List.range 256).map (fun t => (t, tenant t)) }

/-- An accepted start (R408): every register of the job entry, the counters and sticky fields, the unit resets; a returning package
sends JOIN (R481). -/
def startAccept (i : Nat) (c : Ctx) : Ctx :=
  let b := imgBase c
  let a := jobEntry c b i
  let c1 := c.updJob (fun _ => jobOf c i a)
  let c2 := forAll (List.range 512) (loadUnit (jeOff c b a 108)) c1
  let c3 := match jeOff c b a 104 with
    | some f =>
      let l := furrowParts c f
      let c4 := (List.range 4).foldl (fun x d => loadFurrow d (l.getD d 0) x) c2
      { c4 with dev := { c4.dev with res := parseRes c (l.getD 4 0) (programDigestOf c a) } }
    | none => { c2 with dev := { c2.dev with furrows := [], res := {} } }
  let srv : SrvSt := match jeOff c b a 112 with
    | some s => if jeKind c a = 2 then parseServing c s else {}
    | none => {}
  let c5 := { c3 with dev := { c3.dev with srv := { srv with t2Held := c.dev.srv.t2Held } } }
  joinStart (quotaCheck (if jeKind c a = 2 then forAll (List.range 8) (fun q x => x.updPair q QPair.skip) c5 else c5))

/-- Try to start job `i`: the code answered, and the context after. A refusal shows in JOB_STATUS.REFUSAL and changes nothing else. -/
def startJob (request : Bool) (i : Nat) (c : Ctx) : Nat × Ctx :=
  let code := startRefusal request i c
  if code = 0 then (0, startAccept i c) else (code, c.updJob (fun j => { j with refusal := code }))

/-- An automatic start: the lowest-numbered valid entry with START as given, and for START = 2 with PREV naming `prev` (R406). -/
def autoStart (start prev : Nat) (c : Ctx) : Ctx :=
  let e (i : Nat) : Nat := jobEntry c (imgBase c) i
  match (List.range 64).find? (fun i => jeValid c (e i) && jeStart c (e i) == start && (start != 2 || jePrev c (e i) == prev)) with
  | some i => (startJob false i c).2
  | none => c

/-! ### The job mailbox (R564, Tables 17-3 and 17-4) -/

/-- A write to STW_MBOX_CMD: taken unless BUSY, else lost (R564). -/
def mboxWrite (v : Nat) (c : Ctx) : Ctx :=
  c.updStw (fun s =>
    if s.busy then { s with cmdLost := true, lostBefore := false }
    else { s with mboxCmd := v, mboxPending := some v, busy := true, lostBefore := s.cmdLost })

/-- The reply: BUSY clears, the loss before this command is forgotten, the reply's events go out (Tables 17-6, 17-10). -/
def mboxReply (op code : Nat) (c : Ctx) : Ctx :=
  msix 0 0 (irqRaise 8 (c.updStw (fun s =>
    { s with
      replyCode := code, replyOp := op, busy := false, mboxPending := none
      cmdLost := if s.lostBefore then false else s.cmdLost
      lostBefore := false })))

/-- The mailbox command of a value: 1 START, 2 STOP, 3 QUOTA with no reserved bit set; 0 anything else. -/
def mboxKind (v : Nat) : Nat :=
  if v % 256 = 1 && v / 2 ^ 14 = 0 then 1 else if v = 2 then 2 else if v % 2 ^ 32 = 3 then 3 else 0

/-- The controller takes the waiting command if it is of kind `k`. -/
def mboxTake (k : Nat) (act : Nat → Ctx → Nat × Ctx) (c : Ctx) : Ctx :=
  match c.dev.stw.mboxPending with
  | some v =>
    if ctlRuns c && mboxKind v == k then
      let (code, c1) := act v c
      mboxReply (v % 256) code c1
    else c
  | none => c

/-- START. -/
def mboxStartOp : Ctx → Ctx := mboxTake 1 (fun v c => startJob true (bits v 8 6) c)

/-- STOP: an end cause, or `STOP_IGNORED` (R418). -/
def mboxStopOp : Ctx → Ctx :=
  mboxTake 2 (fun _ c => if c.dev.job.running && !c.dev.job.ending then (0, endCause 1 c) else (0x20, c))

/-- QUOTA: the job memory quota, up to MEM_QUOTA (R424). -/
def mboxQuotaOp : Ctx → Ctx :=
  mboxTake 3 (fun v c =>
    if c.dev.job.running && !c.dev.job.ending && bits v 32 32 ≤ c.dev.job.memQuota then
      (0, quotaCheck (c.updJob (fun j => { j with quota := bits v 32 32 })))
    else (0x21, c))

/-- An unknown OP or reserved bits set. -/
def mboxBadCommandOp : Ctx → Ctx := mboxTake 0 (fun _ c => (0x22, c))

/-! ### Release and limits -/

/-- A channel with a program waits for its first trigger (Table 09-7). -/
def chansWait (d : Nat) (c : Ctx) : Ctx :=
  c.updFur d (fun x => { x with
    skipCount := 0, skipSticky := false, latch := false, commits := 0
    chans := x.chans.map (fun p => (p.1, { p.2 with pc := 0, iter := 0, iterSticky := false, run := none, state := if p.2.len = 0 then 0 else 1 })) })

/-- JOB_RELEASE: every load has ended, the control cores are released in one cycle and the job runs (R408). The coordinator plans the
first sheaf (R470). -/
def jobReleaseOp (c : Ctx) : Ctx :=
  let j := c.dev.job
  if !j.running || j.released || j.ending || c.dev.safe.safe || c.res.restore ≠ 0 || !loadsEnded c ||
      c.dev.units.any (fun p => p.2.resetting) then c
  else
    let c1 := forAll (List.range 4) chansWait (epochAll (admitAll c))
    let c2 := c1.updJob (fun j => { j with released := true, releasedAt := c.dev.slow, stepAt := c.dev.slow, stepStart := c.dev.slow })
    if c2.res.present && c2.res.enable && j.kind ≤ 1 && coordinator c2 = c2.dev.boot.pkg then planNextWith reportDone 1 0 noSeq c2 else c2

/-- The job has been released and neither ends nor is stopped: its limits count. -/
def limitsCount (c : Ctx) : Bool := c.dev.job.running && !c.dev.job.ending && (c.dev.job.released || c.res.restore != 0)

/-- TIME_LIMIT (Table 11-3). -/
def timeLimitOp (c : Ctx) : Ctx :=
  let j := c.dev.job
  if limitsCount c && j.timeLimit ≠ 0 && decide (j.timeLimit ≤ c.since j.releasedAt) then endCause 2 c else c

/-- Cycles without a rise of the step counter (R414): in a SERVE job only those of steps in flight. -/
def stalledFor (c : Ctx) : Nat :=
  if c.dev.job.kind = 2 then c.dev.job.flown + (c.srv.plan.elim 0 (fun p => c.since p.since)) else c.since c.dev.job.stepAt

/-- JOB_STALLED (R414). -/
def jobStalledOp (c : Ctx) : Ctx :=
  if limitsCount c && c.dev.job.stallLimit ≠ 0 && decide (c.dev.job.stallLimit ≤ stalledFor c) then endCause 0x13 c else c

/-! ### Ending a job (R416, Table 11-4) -/

/-- Does an end code drain (Table 11-3)? -/
def drainsCode (code : Nat) : Bool := decide (code < 0x10)

/-- Has the work in flight drained (step 3): commands, reductions, DMA, tier moves, the step in flight? -/
def workDrained (c : Ctx) : Bool :=
  c.dev.units.all (fun p => p.2.me.entries.isEmpty && p.2.ve.entries.isEmpty && p.2.dma.entries.isEmpty) &&
  (List.range 4).all (fun d => (c.fur d).held.isNone && (c.fur d).chans.all (fun p => p.2.run.isNone)) &&
  c.srv.reqs.all (fun r => r.moving.isNone && r.hand != 4) && c.srv.plan.isNone

/-- Control cores halt until a unit reset; a frozen one is released into the halt (Table 14-6). -/
def coresHalt (c : Ctx) : Ctx :=
  forAll ((c.dev.cores.filter (fun p => p.1 < 2048)).map (fun p => p.1))
    (fun n a => a.updCore n (fun k => { k with halted := true, frozen := false, stall := .no })) c

/-- The drains of R419 end with the job (R422): a unit being retired is taken out, the rest stay disabled. -/
def drainsEnd (c : Ctx) : Ctx :=
  let l := c.dev.job.drains.map (fun d => d.fn)
  let c1 := c.updJob (fun j => { j with drains := [], disabled := j.disabled ++ l })
  l.foldl (fun a f => match f with | .unit u => unitGone u a | _ => a) c1

/-- A sheaf in progress is abandoned with the job; writes that waited for a page are dropped with their masters. -/
def sheafDrop (c : Ctx) : Ctx :=
  match c.res.run with
  | none => c
  | some r => (setHome r.slot {} (cowAbandon (c.updCow (fun w => { w with waiting := [] })))).updRes (fun x => { x with run := none, state := 0 })

/-- Step 6: every request that is not final gets its FINAL entry, and the books empty (R378). Blocks held for other packages stay until
their owner frees them (R276). -/
def requestsEnd (c : Ctx) : Ctx :=
  if c.dev.job.kind ≠ 2 then c
  else
    flushBatch true (failAll (fun _ => true) 0x22
      (c.updSrv (fun s => { s with plan := none, leaving := [] })))

/-- Steps 4 to 6. -/
def jobStop (c : Ctx) : Ctx :=
  let c1 := coresHalt (sheafDrop (stopWork c))
  let c2 := { c1 with dev := { c1.dev with clusters := c1.dev.clusters.map (fun p => (p.1, { p.2 with frozen := false })) } }
  let c3 := zeroSeedbeds (c.dev.job.kind == 0) c2
  let c4 := forAll (listedUnits c3) (fun u a => a.updUnit u (fun x => { x with region := {} })) c3
  drainsEnd (requestsEnd (c4.updJob (fun j => { j with released := false, stopped := true, zeroed := true })))

/-- The same for a job that ends in service: an end that does not drain is a notice of cause 5 (R472). -/
def jobStopNotice (c : Ctx) : Ctx :=
  let c1 := jobStop c
  if drainsCode c.dev.job.endCode then c1 else sendNotice (ownTray c1) 5 c1

/-- JOB_DRAIN_COMPLETE: the work has drained, or the end code drains nothing. -/
def jobDrainCompleteOp (c : Ctx) : Ctx :=
  let j := c.dev.job
  if j.ending && !j.stopped && !c.dev.safe.safe && (!drainsCode j.endCode || workDrained c) then jobStopNotice c else c

/-- JOB_DRAIN_LIMIT: DRAIN_LIMIT has passed; a completion in its last cycle still counts (R420). -/
def jobDrainLimitOp (c : Ctx) : Ctx :=
  let j := c.dev.job
  if j.ending && !j.stopped && !c.dev.safe.safe && drainsCode j.endCode && decide (j.drainLimit < c.since j.endedAt) then jobStopNotice c
  else c

/-- Episodes whose highest action is L2 close when the frozen master's job has reported its end (R495). -/
def episodesAfterJob (c : Ctx) : Ctx :=
  updAlert (forAll (List.range 5) (fun k a => a.updColl k (fun x =>
    { x with episodes := x.episodes.filter (fun p => !(p.2.froze && p.2.done == 2)) })) c)

/-- Step 7: the end is reported (R565), masters frozen until the job's end are released (Table 14-6); input records not taken by now never
are (R378). -/
def jobReport (c : Ctx) : Ctx :=
  let j := c.dev.job
  let c1 := c.updJob (fun j => { j with running := false, ending := false, overQuota := false, areas := [] })
  let c2 := { c1 with dev := { c1.dev with frozenRemotes := [] } }
  let c3 := (if j.kind = 2 then forAll (List.range 8) (fun q x => x.updPair q QPair.leave) c2 else c2).updStw (fun s => { s with endIndex := j.index, endCode := j.endCode, endStep := j.step })
  episodesAfterJob (msix 0 1 (irqRaise 9 c3))

/-- JOB_END_REPORT: step 7, once every FINAL entry has been written (R378), and step 8 for an end with `JOB_DONE` (R406). -/
def jobEndReportOp (c : Ctx) : Ctx :=
  let j := c.dev.job
  if !j.ending || !j.stopped || c.dev.safe.safe then c
  else
    let c0 := flushBatch true c
    if !c0.srv.batch.isEmpty then c0 else
    let c1 := jobReport c0
    if j.endCode = 0 then autoStart 2 j.index c1 else c1

/-! ### Disabling with work in flight (R419–R422, Table 11-5) -/

/-- Does a DMA command wait for an answer to a request that left by port `p`? -/
def dmaThrough (p : Nat) (e : Entry) : Bool := e.ended.isNone && e.via.contains p

/-- Requests of a pair or a function's pairs. -/
def destsOf (c : Ctx) (fn : DisFn) : List Nat :=
  match fn with
  | .pair q => [q]
  | .pcie f => (List.range 8).filter (fun q => (ownerOf c q).1 == f)
  | _ => []

/-- Is work of the function still in flight? -/
def workLeft (c : Ctx) (fn : DisFn) : Bool :=
  match fn with
  | .unit u => [0, 1, 2].any (fun q => ((c.unit u).queue q).entries.any (fun e => e.ended.isNone))
  | .furrow d k => (c.chan d k).run.isSome
  | .linkPort p =>
    !(c.port p).link.replay.isEmpty || !(c.port p).link.txq.isEmpty || !(chansThrough c p).isEmpty ||
      c.dev.units.any (fun x => x.2.dma.entries.any (dmaThrough p)) || c.srv.reqs.any (fun r => r.via == some p)
  | .variant v => c.srv.reqs.any (fun r => r.variant == v)
  | .pair _ | .pcie _ => c.srv.reqs.any (fun r => (destsOf c fn).contains r.dest || (fn == .pcie 0 && hostMoves c r))

/-- End every command of queue `q` that satisfies `p` with `ABORTED_BY_DISABLE`; its record follows (R167, R227). -/
def abortQueue (u q : Nat) (p : Entry → Bool) (c : Ctx) : Ctx :=
  let n := ((c.unit u).queue q).entries.length
  (List.range n).reverse.foldl (fun a i => match ((a.unit u).queue q).entries[i]? with
    | some e => if e.ended.isNone && p e then finish u q i 5 0 a else a
    | none => a) c

/-- What remains of the function's work ends with `ABORTED_BY_DISABLE`, records delivered (Table 11-5). -/
def abortWork (fn : DisFn) (c : Ctx) : Ctx :=
  match fn with
  | .unit u =>
    let c1 := [0, 1, 2].foldl (fun a q => abortQueue u q (fun _ => true) a) c
    unitGone u (if c.dev.job.kind = 0 then tileZero u (seedbedZero u c1) else c1)
  | .furrow d k => furAbortRun d k 5 c
  | .linkPort p =>
    let c1 := (chansThrough c p).foldl (fun a k => furAbortRun (p / 9) k 5 a) c
    let c2 := forAll (listedUnits c1) (fun u a => abortQueue u 2 (dmaThrough p) a) c1
    let c3 := if c2.srv.reqs.any (fun r => r.via == some p) then schedule (failAll (fun r => r.via == some p) 0x05 c2) else c2
    c3.updPort p (fun x => { x with link := { x.link with replay := [], resend := [], txq := [] } })
  | .variant v => schedule (failAll (fun r => r.variant == v) 0x05 c)
  | .pair _ | .pcie _ =>
    let c1 := failAll (fun r => (destsOf c fn).contains r.dest || (fn == .pcie 0 && hostMoves c r)) 0x05 c
    schedule (flushRings (fun q => (destsOf c fn).contains q) c1)

/-- DISABLE_DRAIN_LIMIT: the drain of a function ends, its work done or its limit past (R419–R421). -/
def disableDrainLimitOp (fn : DisFn) (c : Ctx) : Ctx :=
  match c.dev.job.drains.find? (fun d => d.fn == fn) with
  | none => c
  | some d =>
    if c.dev.safe.safe || c.dev.job.ending || (workLeft c fn && decide (c.since d.since ≤ d.limit)) then c
    else
      let c1 := abortWork fn c
      c1.updJob (fun j => { j with drains := j.drains.filter (fun x => x.fn != fn), disabled := j.disabled ++ [fn] })

/-! ### The commands -/

/-- MBOX_START (R406–R408, R564). -/
def execMboxStart (s : State) : Host.Outcome State Fault Refusal := perform .mboxStart s mboxStartOp
/-- MBOX_STOP (R418, R564). -/
def execMboxStop (s : State) : Host.Outcome State Fault Refusal := perform .mboxStop s mboxStopOp
/-- MBOX_QUOTA (R424, R564). -/
def execMboxQuota (s : State) : Host.Outcome State Fault Refusal := perform .mboxQuota s mboxQuotaOp
/-- MBOX_BAD_COMMAND (R564). -/
def execMboxBadCommand (s : State) : Host.Outcome State Fault Refusal := perform .mboxBadCommand s mboxBadCommandOp
/-- JOB_RELEASE (R408). -/
def execJobRelease (s : State) : Host.Outcome State Fault Refusal := perform .jobRelease s jobReleaseOp
/-- TIME_LIMIT (R415). -/
def execTimeLimit (s : State) : Host.Outcome State Fault Refusal := perform .timeLimit s timeLimitOp
/-- JOB_STALLED (R414). -/
def execJobStalled (s : State) : Host.Outcome State Fault Refusal := perform .jobStalled s jobStalledOp
/-- JOB_DRAIN_COMPLETE (R416). -/
def execJobDrainComplete (s : State) : Host.Outcome State Fault Refusal := perform .jobDrainComplete s jobDrainCompleteOp
/-- JOB_DRAIN_LIMIT (R416, R420). -/
def execJobDrainLimit (s : State) : Host.Outcome State Fault Refusal := perform .jobDrainLimit s jobDrainLimitOp
/-- JOB_END_REPORT (R416, R565). -/
def execJobEndReport (s : State) : Host.Outcome State Fault Refusal := perform .jobEndReport s jobEndReportOp
/-- DISABLE_DRAIN_LIMIT (R419–R421). -/
def execDisableDrainLimit (fn : DisFn) (s : State) : Host.Outcome State Fault Refusal :=
  perform (.disableDrainLimit fn) s (disableDrainLimitOp fn)

end Sys2Proof.Machine
end

