-- ==== Sys2Proof/Machine/Certs.lean ====
section
/-!
DEFINITION. Certificates, the identity area, image signatures and the device key as shared operations (R536–R546).
-/
namespace Sys2Proof.Machine

/-- Base of the identity area of the NVM (R537). -/
def identityBase (c : Ctx) : Nat := nvmBase + dirField c 28 4

/-- The vendor root public key as the identity area holds it. -/
def rootKey (c : Ctx) : Nat × Nat := (ofBytesBE (c.read (identityBase c + 16) 48), ofBytesBE (c.read (identityBase c + 64) 48))

/-- Does a signature verify under the vendor root key? None does while ROOT_KEY does not match the boot ROM (R538). -/
def rootVerify (c : Ctx) (h r s : Nat) : Bool := c.dev.sec.rootOk && ecdsaVerify (rootKey c).1 (rootKey c).2 h r s

/-- A field of certificate bytes as a little-endian number, or a 48-byte value most significant byte first (R8, R536). -/
def cert48 (b : List Byte) (o : Nat) : Nat := ofBytesBE ((b.drop o).take 48)
def certNat (b : List Byte) (o n : Nat) : Nat := ofBytes ((b.drop o).take n)

/-- Is a certificate of a type valid (R542)? -/
def certValid (c : Ctx) (ty : Nat) (b : List Byte) : Bool :=
  b.length == 288 && certNat b 0 4 == 0x43455231 && certNat b 4 1 == ty && certNat b 5 1 == 1 &&
  certNat b 6 2 == 0 && certNat b 161 31 == 0 && rootVerify c (sha384Nat (b.take 192)) (cert48 b 192) (cert48 b 240)

def certSerial (b : List Byte) : Nat := certNat b 8 4
def certMinVersion (b : List Byte) : Nat := certNat b 12 4
def certDevice (b : List Byte) : Nat := cert48 b 16
def certKey (b : List Byte) : Nat × Nat := (cert48 b 64, cert48 b 112)
def certVariant (b : List Byte) : Nat := certNat b 160 1

/-- The installed identity and variant certificates. -/
def identityCert (c : Ctx) : List Byte := c.read (identityBase c + 2208) 288
def variantCert (c : Ctx) : List Byte := c.read (identityBase c + 2496) 288

/-- Does a certificate name this device (R543)? Without a device key none does (R540). -/
def namesDevice (c : Ctx) (b : List Byte) : Bool := c.dev.sec.pufOk && certDevice b == c.dev.sec.deviceId
/-- Does an owner certificate apply to this device (R543)? -/
def appliesHere (c : Ctx) (b : List Byte) : Bool := certDevice b == 0 || namesDevice c b

/-- The installed variant certificate is valid and names this device (R529). -/
def variantCertOk (c : Ctx) : Bool := certValid c 3 (variantCert c) && namesDevice c (variantCert c) && decide (certVariant (variantCert c) ≤ 2)

/-- vmin of R545. -/
def vmin (c : Ctx) : Nat :=
  if certValid c 3 (variantCert c) && namesDevice c (variantCert c) then certMinVersion (variantCert c) else 0

/-- The OWNER_CERT section of the image at `b`: empty where it is absent. -/
def ownerCertOf (c : Ctx) (b : Nat) : List Byte := match findSection c b 0x0E with | some (o, n) => c.read (b + o) n | none => []

/-- The signature check of an image header (R545): the floor, or none where the check fails. -/
def checkSignature (c : Ctx) (b : Nat) : Option Nat :=
  let h := sha384Nat (c.read b 4000)
  let r := ofBytesBE (c.read (b + 4000) 48)
  let s := ofBytesBE (c.read (b + 4048) 48)
  let version := imgField c b 8 4
  if imgField c b 20 1 = 0 then
    if rootVerify c h r s && vmin c ≤ version then some (vmin c) else none
  else
    let o := ownerCertOf c b
    let floor := max (vmin c) (certMinVersion o)
    if certValid c 2 o && appliesHere c o && keyDigest (certKey o).1 (certKey o).2 == ofBytesBE (c.read (b + 24) 48) &&
        ecdsaVerify (certKey o).1 (certKey o).2 h r s && floor ≤ version
    then some floor else none

end Sys2Proof.Machine
end

