-- ==== Sys2Proof/Machine/Links.lean ====
section
/-!
DEFINITION. The link ports (chapter 12) and their admission exchange (R550, R551): flits, replay and credits, training and retraining,
capability records, and the topology check.
-/
namespace Sys2Proof.Machine

/-! ### The link layer (R434–R438) -/

/-- May the port carry flits: UP, DEGRADED or HELD? A HELD port, and every port in the safe state or after a stop of start-up, carries VC0
only (R446, R447, R509). -/
def vcOpen (c : Ctx) (p vc : Nat) : Bool :=
  (c.port p).trained && (vc == 0 || ((c.port p).state != 6 && !c.dev.safe.safe && !c.dev.boot.stopped))

/-- The 256 bytes of a data flit (Tables 12-2 and 12-3): header with KIND 0, payload, link word, and the CRC-32 of bytes 0 to 251 (R431).
Payload bytes past LEN go out as 0. -/
def flitBytes (f : Flit) : List Byte :=
  let header := f.vc + 2 ^ 3 * f.cls + 2 ^ 6 * f.hops + 2 ^ 11 * f.dst + 2 ^ 29 * f.src + 2 ^ 47 * f.payload.length + 2 ^ 55 * b2n f.last +
    2 ^ 56 * b2n f.poison
  let link := f.seq + 2 ^ 12 * f.ack + 2 ^ 24 * f.creditVc + 2 ^ 27 * f.credit + 2 ^ 30 * f.creditCls + 2 ^ 31 * b2n f.nak
  let body := toBytes 8 header ++ (f.payload ++ List.replicate 240 0).take 240 ++ toBytes 4 link
  body ++ toBytes 4 (crc32 body)

/-- The data flit that 256 bytes hold; none where KIND names no data flit. -/
def flitOf (raw : List Byte) : Option Flit :=
  let h := ofBytes (raw.take 8)
  let w := ofBytes ((raw.drop 248).take 4)
  if bits h 4 2 ≠ 0 then none
  else some
    { vc := bits h 0 3, cls := bits h 3 1, hops := bits h 6 5, dst := bits h 11 18, src := bits h 29 18, last := bit h 55, poison := bit h 56
      payload := (raw.drop 8).take (min 240 (bits h 47 8)), seq := bits w 0 12, ack := bits w 12 12, creditVc := bits w 24 3
      credit := bits w 27 3, creditCls := bits w 30 1, nak := bit w 31 }

/-- Is the CRC-32 of a flit good (R431)? -/
def crcGood (raw : List Byte) : Bool := crc32 (raw.take 252) == ofBytes ((raw.drop 252).take 4)

/-- Index of a (VC, class) pair. -/
def vcIdx (vc cls : Nat) : Nat := 2 * vc + cls

/-- Change the link layer of a port. -/
def Ctx.updLink (c : Ctx) (p : Nat) (f : LinkLayer → LinkLayer) : Ctx := c.updPort p (fun x => { x with link := f x.link })

/-- Count an error of LNK_ERRp: 0 CRC, 1 REPLAY, 2 RETRAIN, 3 MISROUTED. It sticks at 255, and pulses the port's pin (Table 12-14). -/
def linkErr (p k : Nat) (c : Ctx) : Ctx :=
  let x := c.port p
  let n := match k with | 0 => x.errCrc | 1 => x.errReplay | 2 => x.errRetrain | _ => x.errMisrouted
  let (m, s) := stick 255 n 1
  let y := if s then { x with errSticky := x.errSticky ||| 2 ^ k } else x
  let z := match k with
    | 0 => { y with errCrc := m }
    | 1 => { y with errReplay := m }
    | 2 => { y with errRetrain := m }
    | _ => { y with errMisrouted := m }
  linkEvent p (match k with | 0 | 1 => 0 | 2 => 1 | _ => 3) (c.updPort p (fun _ => z))

/-- The highest rate code at most `top` that `rates` lists (R652). -/
def bestRate (top rates : Nat) : Option Nat := ((List.range (top + 1)).reverse).find? (fun k => bit rates k)

/-- The rate codes this side supports, its RATES (Table 12-5). -/
def ownRates : Nat := 7

/-- Begin an attempt at a code: this side's proposal and RATES go out at code 0 (step 2 of Table 12-4). -/
def attempt (p code : Nat) (c : Ctx) : Ctx :=
  (c.updPort p (fun x => { x with step := 2, code := code, agreed := false, since := c.dev.slow })).send (.rateProposal p code ownRates)

/-- The first proposal of a training (R652): the partner's RATES are those it last exchanged, every rate before it has. -/
def firstCode (x : Port) : Nat := (bestRate x.expRate (if x.partner.heard then x.partner.rates else 7)).getD 0

/-- Begin the attempts of a training or retrain. -/
def trainStart (p : Nat) (again : Bool) (c : Ctx) : Ctx :=
  attempt p (firstCode (c.port p)) (c.updPort p (fun x => { x with attempts := 0, again := again }))

/-- A trained port retrains (R445): traffic held, credits frozen. -/
def retrain (p : Nat) (c : Ctx) : Ctx :=
  let c1 := linkErr p 2 (c.updPort p (fun x => { x with wasHeld := x.state == 6, state := 4, retrainAt := c.dev.slow, lost := !x.signal }))
  if (c1.port p).state = 4 then trainStart p false c1 else c1

/-- The flits of a replay buffer still unacknowledged at ACK. -/
def unacked (l : List Flit) (ack : Nat) : List Flit :=
  if l.any (fun f => f.seq == ack) then (l.dropWhile (fun f => f.seq != ack)).drop 1 else l

/-- A NAK: resend every stored flit after ACK; after eight replays of the same flit the port retrains (R435, R436). -/
def replay (p : Nat) (c : Ctx) : Ctx :=
  let l := (c.port p).link
  if l.replay.isEmpty then linkErr p 1 c
  else if l.replayFails = 8 then retrain p (c.updLink p (fun l => { l with replayFails := 0 }))
  else linkErr p 1 (c.updLink p (fun l => { l with resend := l.replay, replayFails := l.replayFails + 1 }))

/-- What every good flit carries in its link word: ACK, returned credits, NAK. -/
def linkWordTake (p : Nat) (w : LinkWord) (c : Ctx) : Ctx :=
  let l := (c.port p).link
  let rest := unacked l.replay w.ack
  let k := vcIdx w.creditVc w.creditCls
  let l1 : LinkLayer := { l with
    replay := rest
    resend := unacked l.resend w.ack
    replayFails := if rest.length < l.replay.length then 0 else l.replayFails
    used := Tab.set l.used k (Tab.get 0 l.used k - w.credit) }
  let c1 := c.updLink p (fun _ => l1)
  if w.nak then replay p c1 else c1

/-- The pair whose buffers are returned next, in round-robin order (R437): its index and how many, at most 7. -/
def creditNext (l : LinkLayer) : Nat × Nat :=
  match ((List.range 16).map (fun i => (l.owedTurn + 1 + i) % 16)).find? (fun k => decide (0 < Tab.get 0 l.owed k)) with
  | some k => (k, min 7 (Tab.get 0 l.owed k))
  | none => (l.owedTurn, 0)

/-- The link word this port sends now, and the link layer after. -/
def linkWordMake (l : LinkLayer) : LinkWord × LinkLayer :=
  let (k, n) := creditNext l
  ({ ack := (l.rxNext + 4095) % 4096, creditVc := k / 2, creditCls := k % 2, credit := n, nak := l.nakDue },
   { l with owed := Tab.set l.owed k (Tab.get 0 l.owed k - n), owedTurn := if n = 0 then l.owedTurn else k, nakDue := false })

/-- Has the pair of a flit a credit (R437)? -/
def credited (l : LinkLayer) (f : Flit) : Bool := decide (Tab.get 0 l.used (vcIdx f.vc f.cls) < 32)

/-- Weight of VC v (R438). -/
def vcWeight (c : Ctx) (p v : Nat) : Nat := max 1 (Tab.get 0 (c.linkCfg (p / 9)).vcWeight v)

/-- The next waiting flit: VC0 first, then VCs 1 to 7 by weighted round robin (R438). In the safe state no transit flit leaves (R447). The
second result is the turn after. -/
def nextFlit (c : Ctx) (p : Nat) : Option (TxFlit × Nat × Nat) :=
  let l := (c.port p).link
  let ready (v : Nat) : Option TxFlit := (l.txq.find? (fun t => t.flit.vc == v && !(c.dev.safe.safe && t.origin.isSome))).filter
    (fun t => vcOpen c p v && credited l t.flit)
  match ready 0 with
  | some t => some (t, l.turn, l.turnSent)
  | none =>
    match (if l.turnSent < vcWeight c p l.turn then ready l.turn else none) with
    | some t => some (t, l.turn, l.turnSent + 1)
    | none =>
      match ((List.range 7).map (fun i => (l.turn + i) % 7 + 1)).find? (fun v => (ready v).isSome) with
      | some v => (ready v).map (fun t => (t, v, 1))
      | none => none

/-- Does a flit that a master of die `d` sends leave by port `p`: by a ring port of its die on VCs 1 to 4 (R329), by the routing of its die's
tables otherwise (R452, R453)? The class it leaves with. -/
def ownRoute (c : Ctx) (p d : Nat) (f : Flit) : Option Nat :=
  if 1 ≤ f.vc && f.vc ≤ 4 then (if p / 9 = d then some f.cls else none)
  else match routeVc c d f.vc f.dst c.dev.boot.pkg with
    | some (q, dateline) => if q = p then some (b2n dateline) else none
    | none => none

/-- Flits of this package's own messages, each with the die of the master that sends it, join the port's queue, HOPS at 31 (Table 12-3). -/
def ownFlits (p : Nat) (own : List (Nat × Flit)) (c : Ctx) : Ctx :=
  c.updLink p (fun l => { l with txq := l.txq ++ own.filterMap (fun m =>
    (ownRoute c p m.1 m.2).map (fun k => { flit := { m.2 with hops := 31, cls := k, src := c.dev.boot.pkg } })) })

/-- FLIT_SEND: a replayed flit, else the next data flit against a credit, else a null flit (R433–R438). -/
def flitSendOp (p : Nat) (own : List (Nat × Flit)) (c : Ctx) : Ctx :=
  if !(c.port p).trained then c
  else
    let c1 := ownFlits p own c
    let l := (c1.port p).link
    let (w, l1) := linkWordMake l
    let stamp (f : Flit) (seq : Nat) : Flit :=
      { f with seq := seq, ack := w.ack, creditVc := w.creditVc, creditCls := w.creditCls, credit := w.credit, nak := w.nak }
    match l.resend with
    | f :: rest => (c1.updLink p (fun _ => { l1 with resend := rest })).send (.flit p (stamp f f.seq))
    | [] =>
      match (if l.replay.length < 4095 then nextFlit c1 p else none) with
      | none => (c1.updLink p (fun _ => l1)).send (.nullFlit p w)
      | some (t, turn, sent) =>
        let f := stamp t.flit l.txSeq
        let k := vcIdx f.vc f.cls
        let l2 : LinkLayer := { l1 with
          txq := l1.txq.erase t, replay := l1.replay ++ [f], txSeq := (l.txSeq + 1) % 4096
          used := Tab.set l1.used k (Tab.get 0 l1.used k + 1), turn := turn, turnSent := sent }
        let c2 := (c1.updLink p (fun _ => l2)).send (.flit p f)
        match t.origin with
        | some (q, k) => c2.updLink q (fun x => { x with owed := Tab.set x.owed k (Tab.get 0 x.owed k + 1) })
        | none => c2

/-! ### Receiving (R435, R447, R453–R455) -/

/-- Phase of a flit for `dst` at package `pkg`: 0 row, 1 tray, 2 slot (R453). -/
def phaseAt (pkg dst : Nat) : Nat := if pkg / 8 = dst / 8 then 2 else if pkg / 2048 = dst / 2048 then 1 else 0

/-- Return the receive buffer of an accepted flit. -/
def bufferFree (p k : Nat) (c : Ctx) : Ctx := c.updLink p (fun l => { l with owed := Tab.set l.owed k (Tab.get 0 l.owed k + 1) })

/-- A flit is for this package: a ring neighbour's on VCs 1 to 4, or addressed to it. -/
def forUs (c : Ctx) (f : Flit) : Bool := (1 ≤ f.vc && f.vc ≤ 4) || f.dst == c.dev.boot.pkg

/-- Pass a transit flit on: one hop less, routed with the arrival die's tables, its class by R454; or discard it (R455). -/
def forward (p : Nat) (f : Flit) (c : Ctx) : Ctx :=
  let k := vcIdx f.vc f.cls
  let hops := f.hops - 1
  match (if hops = 0 then none else routeVc c (p / 9) f.vc f.dst f.src) with
  | none => linkErr p 3 (bufferFree p k c)
  | some (q, dateline) =>
    let later := decide (phaseAt (c.port p).partner.pkg f.dst < phaseAt c.dev.boot.pkg f.dst)
    let cls := if dateline then 1 else if later then 0 else f.cls
    c.updLink q (fun l => { l with txq := l.txq ++ [{ flit := { f with hops := hops, cls := cls }, origin := some (p, k) }] })

/-- A flit accepted in order: delivered, passed on, or discarded where the port carries VC0 only. -/
def flitAccept (p : Nat) (f : Flit) (c : Ctx) : Ctx :=
  let k := vcIdx f.vc f.cls
  if !vcOpen c p f.vc then bufferFree p k c
  else if forUs c f then (bufferFree p k c).send (.delivered p f)
  else if c.dev.safe.safe then bufferFree p k c
  else forward p f c

/-- A flit with a bad CRC or an uncorrectable FEC codeword (R435): it opens a discard episode, with one NAK and one count. One that comes
while an episode is open and its NAK has left belongs to it, or to a replay that fails again and opens the next: its SEQ cannot be read,
so which is free (log entry 127). -/
def badFlit (p : Nat) (c : Ctx) : Ctx :=
  let l := (c.port p).link
  let (k, c1) := if l.discarding && !l.nakDue then c.draw 1 else (0, c)
  if l.discarding && (l.nakDue || !Config.freeBool k) then c1
  else linkErr p 0 (c1.updLink p (fun l => { l with discarding := true, nakDue := true }))

/-- DATA_FLIT_RECEIVE: a bad flit opens a discard episode; of the good ones the flit next in order is accepted (R431, R435). -/
def dataFlitReceiveOp (p : Nat) (raw : List Byte) (fecGood : Bool) (c : Ctx) : Ctx :=
  if !(c.port p).trained then c
  else if !fecGood || !crcGood raw then badFlit p c
  else match flitOf raw with
    | none => c
    | some f =>
      let c1 := linkWordTake p { ack := f.ack, creditVc := f.creditVc, creditCls := f.creditCls, credit := f.credit, nak := f.nak } c
      let l := (c1.port p).link
      if !(c1.port p).trained || f.seq ≠ l.rxNext then c1
      else flitAccept p f (c1.updLink p (fun l => { l with rxNext := (l.rxNext + 1) % 4096, discarding := false }))

/-- NULL_FLIT (R433). -/
def nullFlitOp (p : Nat) (w : LinkWord) (c : Ctx) : Ctx := if (c.port p).trained then linkWordTake p w c else c

/-- NAK (R435, R436). -/
def nakOp (p : Nat) (w : LinkWord) (c : Ctx) : Ctx := if (c.port p).trained then linkWordTake p { w with nak := true } c else c

/-! ### The end of a training (R443) -/

/-- A port goes DOWN with a cause; a repeated training leaves cause and event as they were (R444). An untrained port without signal
raises no event (log entry 71). -/
def portDown (p cause : Nat) (c : Ctx) : Ctx :=
  let x := c.port p
  let old := if x.again && (cause == 2 || cause == 6) then x.downCause else cause
  let c1 := c.updPort p (fun y => { y with state := 5, downCause := old, step := if cause = 1 then 1 else 0, lastEnd := c.dev.slow,
                                           rate := 0, lanes := 0 })
  if x.again || cause = 1 then c1 else linkEvent p 2 c1

/-- Does the port differ from its expected rate, width, length? -/
def degrades (x : Port) : Bool × Bool × Bool :=
  let off := if x.length ≤ x.expLength then x.expLength - x.length else x.length - x.expLength
  (decide (x.rate < x.expRate), decide (laneCount x.lanes < x.expLanes), x.lengthTol != 255 && decide (x.lengthTol < off))

/-- The state of a port at step 9 of Table 12-4: the first of R443 that applies. -/
def portSettle (p : Nat) (c : Ctx) : Ctx :=
  let x := c.port p
  if x.expPkg ≠ 0x3FFFF && (x.partner.pkg ≠ x.expPkg || x.partner.port ≠ x.expPort) then portDown p 3 c
  else if x.admission.failed then portDown p 4 c
  else if x.partner.adders ≠ 31 then portDown p 5 c
  else
    let (dr, dw, dl) := degrades x
    let he := x.partner.epoch != c.dev.epoch
    let late := decide (c.dev.topo.outcome ≠ 0) && !x.beforeCheck
    let held := he || x.partner.unavailable || x.wasHeld || late || (x.dup && decide (c.dev.topo.outcome ≠ 0))
    let c1 := c.updPort p (fun y => { y with
      state := if held then 6 else if dr || dw || dl then 3 else 2
      degRate := dr, degWidth := dw, degLength := dl, heldEpoch := he, heldUnavail := y.partner.unavailable, heldLate := late
      downCause := 0, step := 0, again := false, wasHeld := false, beforeCheck := y.beforeCheck || decide (c.dev.topo.outcome = 0)
      lastEnd := c.dev.slow })
    c1.updJob (fun j => { j with drains := j.drains.filter (fun d => d.fn != .linkPort p), disabled := j.disabled.filter (fun f => f != .linkPort p) })

/-- Three attempts have failed at code 0: a first training ends with `TRAIN_FAILED`, a retrain with `RETRAIN_FAILED`, which disables the
port (R419) and is a notice about its partner's tray (R472). -/
def trainFailed (p : Nat) (c : Ctx) : Ctx :=
  if (c.port p).state = 4 then
    let c1 := disableThrough p (portDown p 6 c)
    let c2 := if c1.dev.job.running then disableFn (.linkPort p) c1 else c1
    sendNotice ((c.port p).partner.pkg / 8) 1 c2
  else portDown p 2 c

/-! ### Stages 5 to 7 of start-up -/

/-- Ports in use. -/
def usedPorts (c : Ctx) : List Nat := (List.range 36).filter (fun p => decide ((c.port p).use ≠ 0))

/-- Has the link stage ended: every port in use has left TRAINING, or the discovery window is over (R450)? -/
def linksSettled (c : Ctx) : Bool :=
  c.dev.topo.started && ((usedPorts c).all (fun p => (c.port p).state != 1) || decide ((c.linkCfg 0).discoveryWindow ≤ c.since c.dev.topo.since))

/-- Begin stage 6: region and die management cores from LOAD_PLAN, application cores from APP_BOOT (R520, R555). A listed die management
core stops start-up (Table 15-10). -/
def loadStage (c : Ctx) : Ctx :=
  let b := imgBase c
  let c1 := c.updBoot (fun x => { x with stage := 6 })
  if (c.dev.boot.inForce ++ c.dev.boot.heldOut).any (fun e => e.kind == 4 && 2064 ≤ e.index && e.index < 2068) then bootStop 7 c1 else
  let c2 := forAll ((List.range 20).map (fun i => 2048 + i)) (loadStart (sectionAt c b 9) (sectionAt c b 0x0A) false) c1
  let c3 := match findSection c b 0x0D with
    | some (o, _) => forAll ((List.range 24).map (fun i => 2070 + i)) (loadStart (b + o) (b + o + planSize c (b + o)) false) c2
    | none => c2
  loadStageEnd c3

/-- Once the discovery window is over, a port without signal is DOWN, `NO_SIGNAL` (Table 12-6). -/
def windowEnd (c : Ctx) : Ctx :=
  if c.dev.topo.started && decide ((c.linkCfg 0).discoveryWindow ≤ c.since c.dev.topo.since) then
    forAll (usedPorts c) (fun p a => if (a.port p).state = 1 && (a.port p).step = 1 then portDown p 1 a else a) c
  else c

/-- Go on from stage 5 when the links have settled. -/
def stageStep (c : Ctx) : Ctx := if c.dev.boot.stage = 5 && !c.dev.boot.stopped && linksSettled c then loadStage (windowEnd c) else c

/-- Is the port in the defect list (kind 7)? -/
def portListed (c : Ctx) (p : Nat) : Bool := (c.dev.boot.inForce ++ c.dev.boot.heldOut).any (fun e => e.kind == 7 && e.index == p)

/-- The link stage begins: every port in use trains, all in parallel (R439); a listed port stays DOWN, `DISABLED`. -/
def linkStage (c : Ctx) : Ctx :=
  let c1 := (c.updTopo (fun t => { t with started := true, since := c.dev.slow })).updBoot (fun x => { x with stage := 5, sub := 0 })
  let c2 := forAll (usedPorts c1) (fun p a =>
    if portListed a p then a.updPort p (fun x => { x with state := 5, downCause := 7, step := 0 }) else
    let b := a.updPort p (fun x => { x with state := 1, step := 1, attempts := 0, again := false, wasHeld := false, beforeCheck := false })
    if (b.port p).signal then trainStart p false b else b) c1
  stageStep c2

/-! ### Training commands (Table 12-4) -/

/-- LINK_SIGNAL_DETECT: signal appears; a training or retrain begins (R439, R444). -/
def linkSignalDetectOp (p : Nat) (c : Ctx) : Ctx :=
  let x := c.port p
  if x.signal then c
  else
    let c1 := c.updPort p (fun y => { y with signal := true })
    if x.state = 1 && x.step = 1 then trainStart p false c1
    else if x.state = 5 && (x.downCause = 1 || x.downCause = 2 || x.downCause = 6) && x.step ≤ 1 then trainStart p true c1
    else c1

/-- LINK_SIGNAL_LOSS: a trained port enters RETRAINING (R444, Table 12-6). -/
def linkSignalLossOp (p : Nat) (c : Ctx) : Ctx :=
  let c1 := c.updPort p (fun y => { y with signal := false })
  if (c.port p).trained then retrain p c1
  else if (c.port p).state = 4 then c1.updPort p (fun y => { y with lost := true })
  else c1

/-- A proposal comes to a port under training: the attempt runs at the lower of the two (R652). At the first attempt the RATES that come with
it decide this side's own, later ones can only lower it. -/
def rateTake (p proposed rates : Nat) (c0 : Ctx) : Ctx :=
  let x := c0.port p
  if x.step ≠ 2 || !x.signal then c0
  else
    let c1 := c0.updPort p (fun y => { y with partner := { y.partner with rates := rates, heard := true } })
    let top := if x.attempts = 0 && x.code = firstCode x then x.expRate else x.code
    match bestRate top rates with
    | none => c1
    | some own =>
      let code := min own proposed
      let c2 := c1.updPort p (fun y => { y with code := code, agreed := true, attempts := if code = y.code then y.attempts else 0 })
      if own = x.code then c2 else c2.send (.rateProposal p own ownRates)

/-- RATE_PROPOSAL (R652). A proposal to a trained port says that its partner retrains, and so does the port. -/
def rateProposalOp (p proposed rates : Nat) (c : Ctx) : Ctx :=
  rateTake p proposed rates (if (c.port p).trained then retrain p c else c)

/-- The lane set of R429 among the lanes that pass: none where no lane does. -/
def laneSet (l : Nat) : Option Nat :=
  if l = 15 then some 15
  else if bits l 0 2 = 3 then some 3
  else if bits l 2 2 = 3 then some 12
  else ([0, 1, 2, 3].find? (fun i => bit l i)).map (fun i => 2 ^ i)

/-- Lanes of a port that the defect list holds out (R523). -/
def lanesHeld (c : Ctx) (p : Nat) : Nat :=
  maskOf 4 (fun i => (c.dev.boot.inForce ++ c.dev.boot.heldOut).any (fun e => e.kind == 3 && e.index == p && e.sub == i))

/-- EQUALISATION_COMPLETE: lane set, loss and length (R429, R440); `delay` is the round-trip reflection delay in steps of 10 ps.
SEQ and ACK start at 0, what a retrain left unacknowledged is renumbered and resent (R436, log entry 72), and the capability
record goes out. -/
def equalisationCompleteOp (p lanes loss delay : Nat) (c : Ctx) : Ctx :=
  let x := c.port p
  if x.step ≠ 2 || !x.agreed || !x.signal then c
  else
    let pass := maskOf 4 (fun i => bit lanes i && !bit (lanesHeld c p) i)
    match laneSet pass with
    | none => c
    | some set =>
      let kept := (List.range x.link.replay.length).zipWith (fun i f => { f with seq := i }) x.link.replay
      let link : LinkLayer := if x.state = 4 then
          { x.link with replay := kept, resend := kept, txSeq := kept.length % 4096, rxNext := 0, discarding := false, nakDue := false, replayFails := 0 }
        else {}
      let c1 := c.updPort p (fun y => { y with
        step := 7, rate := x.code, lanes := set, lanesOk := pass, loss := loss, length := min 255 ((2 * delay + 94) / 188), link := link })
      c1.send (.capability p (capOf c1 p pass c1.dev.boot.deviceId8))

/-- A port that lost signal and has not retrained within 9 · TRAIN_TIMEOUT is a notice about its partner's tray (cause 1 of Table 13-5). -/
def overdue (p : Nat) (c : Ctx) : Ctx :=
  let x := c.port p
  if x.state = 4 && x.lost && decide (9 * (c.linkCfg (p / 9)).trainTimeout ≤ c.since x.retrainAt) then
    sendNotice (x.partner.pkg / 8) 1 (c.updPort p (fun y => { y with lost := false }))
  else c

/-- An attempt has failed: after three at one code the next lower one is proposed, after three at code 0 the port goes DOWN (Table 12-4). -/
def attemptFailed (p : Nat) (c : Ctx) : Ctx :=
  let x := c.port p
  if x.step ≠ 2 || decide (c.since x.since < (c.linkCfg (p / 9)).trainTimeout) then c
  else if x.attempts + 1 < 3 then attempt p x.code (c.updPort p (fun y => { y with attempts := y.attempts + 1 }))
  else if x.code = 0 then stageStep (trainFailed p c)
  else attempt p (x.code - 1) (c.updPort p (fun y => { y with attempts := 0 }))

/-- TRAIN_TIMEOUT: a retrain may be overdue, an attempt may have failed. -/
def trainTimeoutOp (p : Nat) (c : Ctx) : Ctx := attemptFailed p (overdue p c)

/-- DISCOVERY_WINDOW: it ends, leaving untrained ports without signal DOWN (Table 12-6); or a port that failed with signal present
trains again (R444). -/
def discoveryWindowOp (which : Option Nat) (c : Ctx) : Ctx :=
  match which with
  | none => stageStep (windowEnd c)
  | some p =>
    let x := c.port p
    if x.state = 5 && (x.downCause = 2 || x.downCause = 6) && x.signal && x.step ≤ 1 &&
        decide ((c.linkCfg (p / 9)).discoveryWindow ≤ c.since x.lastEnd) then trainStart p true c
    else c

/-! ### Admission (R442, R550, R551) -/

/-- Step 8 begins: a nonce from the entropy source, the own certificates. -/
def admissionStart (p : Nat) (c : Ctx) : Ctx :=
  let (k, c1) := c.draw 12
  let nonce := (List.range 12).foldl (fun n i => 2 ^ 32 * n + Config.freeNat (k + i) % 2 ^ 32) 0
  let c2 := c1.updPort p (fun x => { x with step := 8, since := c.dev.slow, admission := { ownNonce := nonce } })
  ((c2.send (.admNonce p nonce)).send (.admIdentity p (identityCert c2))).send (.admOwner p (ownerCertOf c2 (imgBase c2)))

/-- The bytes ADM_PROOF signs. -/
def proofDigest (nonce digest pkg port : Nat) : Nat := sha384Nat (toBytesBE 48 nonce ++ toBytesBE 48 digest ++ toBytes 4 pkg ++ toBytes 1 port)

/-- A signature of the key engine (R536): none without a device key. -/
def deviceSign (c : Ctx) (h : Nat) : Nat × Nat := if c.dev.sec.pufOk then ecdsaSign c.dev.sec.key h else (0, 0)

/-- ADM_NONCE: the partner's nonce comes, the proof goes out (R550). -/
def admNonceOp (p nonce : Nat) (c : Ctx) : Ctx :=
  let x := c.port p
  if x.step ≠ 8 || x.admission.haveNonce then c
  else
    let digest := c.dev.sec.ownerDigest
    let pkg := c.dev.boot.pkg
    let (r, s) := deviceSign c (proofDigest nonce digest pkg p)
    (c.updPort p (fun y => { y with admission := { y.admission with peerNonce := nonce, haveNonce := true } })).send
      (.admProof p { ownerDigest := digest, pkg := pkg, port := p, r := r, s := s })

/-- ADM_IDENTITY. -/
def admIdentityOp (p : Nat) (cert : List Byte) (c : Ctx) : Ctx :=
  if (c.port p).step ≠ 8 then c
  else
    let (qx, qy) := certKey cert
    c.updPort p (fun y => { y with admission := { y.admission with devX := qx, devY := qy, idOk := certValid c 1 cert, haveId := true } })

/-- ADM_OWNER. -/
def admOwnerOp (p : Nat) (cert : List Byte) (c : Ctx) : Ctx :=
  if (c.port p).step ≠ 8 then c
  else
    let (qx, qy) := certKey cert
    c.updPort p (fun y => { y with admission := { y.admission with
      ownerOk := certValid c 2 cert, ownerDigest := keyDigest qx qy, haveOwner := true } })

/-- Does a side with ADMIT set admit the partner (R551)? -/
def admitOk (c : Ctx) (x : Port) (m : AdmProof) : Bool :=
  let a := x.admission
  a.haveId && a.idOk && a.haveOwner &&
  ecdsaVerify a.devX a.devY (proofDigest a.ownNonce m.ownerDigest m.pkg m.port) m.r m.s &&
  m.pkg == x.partner.pkg && m.port == x.partner.port && m.ownerDigest == c.dev.sec.ownerDigest &&
  (m.ownerDigest == 0 || (a.ownerOk && a.ownerDigest == m.ownerDigest))

/-- ADM_PROOF: admission is decided, and the port's state set (R551, R443). A side with ADMIT clear admits any partner. -/
def admProofOp (p : Nat) (m : AdmProof) (c : Ctx) : Ctx :=
  let x := c.port p
  if x.step ≠ 8 then c
  else
    let ok := !(c.linkCfg (p / 9)).admOn || admitOk c x m
    stageStep (portSettle p (c.updPort p (fun y => { y with
      admitted := ok, admission := { y.admission with proofOk := ok, haveProof := true, failed := !ok } })))

/-- ADMIT_TIMEOUT (Table 12-4, R443). -/
def admitTimeoutOp (p : Nat) (c : Ctx) : Ctx :=
  let x := c.port p
  if x.step = 8 && decide ((c.linkCfg (p / 9)).admitTimeout ≤ c.since x.since) then
    stageStep (portSettle p (c.updPort p (fun y => { y with admission := { y.admission with failed := true } })))
  else c

/-! ### Capability records (R441, R446, R449) -/

/-- What a record tells of the partner. -/
def partnerOf (r : CapRecord) : Partner :=
  { pkg := r.pkg, port := r.port, adders := r.adders, firmware := r.firmware, epoch := r.epoch, deviceId := r.deviceId, rates := r.rates,
    admOn := r.admOn, unavailable := r.unavailable, heard := true, seen := true }

/-- The package ID that a record on port `p` shows duplicated (R449): its own, another partner's, or one the partner found to be this
package's. -/
def duplicate (c : Ctx) (p : Nat) (r : CapRecord) : Option Nat :=
  let own := c.dev.boot.pkg
  let clash (x : Partner) : Bool := x.seen && x.pkg == r.pkg && x.deviceId != r.deviceId
  if r.pkg = own && r.deviceId ≠ c.dev.boot.deviceId8 then some own
  else if (List.range 36).any (fun q => q != p && clash (c.port q).partner) then some r.pkg
  else if r.dup && r.dupId = own then some own
  else none

/-- A duplicate is found: DUP and DUP_ID go to every partner; after the check the port is HELD and its pin pulsed. -/
def dupFound (p id : Nat) (c : Ctx) : Ctx :=
  let ran := decide (c.dev.topo.outcome ≠ 0)
  let news := !c.dev.topo.dup.isSome
  let c1 := c.updTopo (fun t => { t with dup := some (t.dup.getD id), dupSeen := t.dupSeen || !ran })
  let c2 := c1.updPort p (fun x => { x with dup := true, state := if ran && x.trained then 6 else x.state })
  let c3 := if ran && !(c.port p).dup then linkEvent p 4 c2 else c2
  if news then sendCaps c3 else c3

/-- A trained port follows its partner's record (Table 12-6): HELD, or back. -/
def followPartner (p : Nat) (c : Ctx) : Ctx :=
  let x := c.port p
  let he := x.partner.epoch != c.dev.epoch
  let hu := x.partner.unavailable
  if x.state = 2 || x.state = 3 then
    c.updPort p (fun y => { y with heldEpoch := he, heldUnavail := hu, state := if he || hu then 6 else y.state })
  else if x.state = 6 then
    c.updPort p (fun y => { y with
      heldEpoch := he, heldUnavail := hu
      state := if !he && !hu && y.beforeCheck && !y.dup then (if y.degRate || y.degWidth || y.degLength then 3 else 2) else 6 })
  else c

/-- CAPABILITY_RECORD: step 7 of a training ends, or the partner reports a change, to a trained port or in the admission exchange (R441). A
member that reports UNAVAILABLE is a notice (cause 2 of Table 13-5). -/
def capabilityRecordOp (p : Nat) (r : CapRecord) (c : Ctx) : Ctx :=
  let x := c.port p
  if x.step < 7 && !x.trained then c
  else
    let c1 := c.updPort p (fun y => { y with partner := partnerOf r, busy := r.busy })
    let c2 := match duplicate c1 p r with | some id => dupFound p id c1 | none => c1
    let c3 := if r.unavailable && !x.partner.unavailable then sendNotice (r.pkg / 8) 2 c2 else c2
    if x.step = 7 then
      if x.state ≠ 4 && ((c.linkCfg (p / 9)).admOn || r.admOn) then admissionStart p c3 else stageStep (portSettle p c3)
    else if x.step = 8 then c3
    else followPartner p c3

/-! ### The topology check (R450, R456) -/

/-- Routing tables from the image's ROUTES section: 1,568 bytes a die (R456). -/
def loadRoutes (c : Ctx) : Ctx :=
  let r := sectionAt c (imgBase c) 8
  (List.range 4).foldl (fun a d =>
    let l := (List.range 392).map (fun i => (i, c.readNat (r + 1568 * d + 4 * i) 4))
    { a with dev := { a.dev with linkCfg := Tab.set a.dev.linkCfg d { a.linkCfg d with routes := l.filter (fun x => x.2 != 0) } } }) c

/-- The outcome of R450 for counts of ports down and degraded: 1 READY, 2 READY_DEGRADED, 3 NOT_READY. -/
def topologyOutcome (c : Ctx) : Nat :=
  let used := usedPorts c
  let down := (used.filter (fun p => (c.port p).state == 5)).length
  let deg := (used.filter (fun p => (c.port p).state == 3)).length
  if c.dev.topo.dup.isSome then 3
  else if used.any (fun p => (c.port p).use == 2 && (c.port p).state == 5) then 3
  else if c.dev.topo.maxDown < down || c.dev.topo.maxDegraded < deg then 3
  else if down + deg > 0 then 2 else 1

/-- TOPOLOGY_CHECK at stage 7: outcome and counts, the routing tables, then stage 8, or the stop of Table 15-2. -/
def topologyCheckOp (c : Ctx) : Ctx :=
  if c.dev.boot.stage ≠ 7 || c.dev.boot.stopped || c.dev.topo.outcome ≠ 0 || !linksSettled c then c
  else
    let c0 := windowEnd c
    let n (s : Nat) : Nat := ((usedPorts c0).filter (fun p => (c0.port p).state == s)).length
    let out := topologyOutcome c0
    let c1 := loadRoutes (c0.updTopo (fun t => { t with outcome := out, down := n 5, degraded := n 3, held := n 6 }))
    if out = 3 then bootStop 8 c1 else c1.updBoot (fun b => { b with stage := 8 })

/-! ### The commands -/

/-- FLIT_SEND (R437). -/
def execFlitSend (p : Nat) (own : List (Nat × Flit)) (s : State) : Host.Outcome State Fault Refusal := perform (.flitSend p own) s (flitSendOp p own)
/-- DATA_FLIT_RECEIVE (R435). -/
def execDataFlitReceive (p : Nat) (raw : List Byte) (fecGood : Bool) (s : State) : Host.Outcome State Fault Refusal :=
  perform (.dataFlitReceive p raw fecGood) s (dataFlitReceiveOp p raw fecGood)
/-- NULL_FLIT (R433). -/
def execNullFlit (p : Nat) (w : LinkWord) (s : State) : Host.Outcome State Fault Refusal := perform (.nullFlit p w) s (nullFlitOp p w)
/-- NAK (R435). -/
def execNak (p : Nat) (w : LinkWord) (s : State) : Host.Outcome State Fault Refusal := perform (.nak p w) s (nakOp p w)
/-- LINK_SIGNAL_DETECT (R444). -/
def execLinkSignalDetect (p : Nat) (s : State) : Host.Outcome State Fault Refusal := perform (.linkSignalDetect p) s (linkSignalDetectOp p)
/-- LINK_SIGNAL_LOSS (R444). -/
def execLinkSignalLoss (p : Nat) (s : State) : Host.Outcome State Fault Refusal := perform (.linkSignalLoss p) s (linkSignalLossOp p)
/-- RATE_PROPOSAL (R652). -/
def execRateProposal (p proposed rates : Nat) (s : State) : Host.Outcome State Fault Refusal :=
  perform (.rateProposal p proposed rates) s (rateProposalOp p proposed rates)
/-- EQUALISATION_COMPLETE (R439). -/
def execEqualisationComplete (p lanes loss delay : Nat) (s : State) : Host.Outcome State Fault Refusal :=
  perform (.equalisationComplete p lanes loss delay) s (equalisationCompleteOp p lanes loss delay)
/-- TRAIN_TIMEOUT (R439). -/
def execTrainTimeout (p : Nat) (s : State) : Host.Outcome State Fault Refusal := perform (.trainTimeout p) s (trainTimeoutOp p)
/-- CAPABILITY_RECORD (R441). -/
def execCapabilityRecord (p : Nat) (rec : CapRecord) (s : State) : Host.Outcome State Fault Refusal :=
  perform (.capabilityRecord p rec) s (capabilityRecordOp p rec)
/-- ADM_NONCE (R550). -/
def execAdmNonce (p nonce : Nat) (s : State) : Host.Outcome State Fault Refusal := perform (.admNonce p nonce) s (admNonceOp p nonce)
/-- ADM_IDENTITY (R550). -/
def execAdmIdentity (p : Nat) (cert : List Byte) (s : State) : Host.Outcome State Fault Refusal :=
  perform (.admIdentity p cert) s (admIdentityOp p cert)
/-- ADM_OWNER (R550). -/
def execAdmOwner (p : Nat) (cert : List Byte) (s : State) : Host.Outcome State Fault Refusal := perform (.admOwner p cert) s (admOwnerOp p cert)
/-- ADM_PROOF (R551). -/
def execAdmProof (p : Nat) (proof : AdmProof) (s : State) : Host.Outcome State Fault Refusal := perform (.admProof p proof) s (admProofOp p proof)
/-- ADMIT_TIMEOUT (R439). -/
def execAdmitTimeout (p : Nat) (s : State) : Host.Outcome State Fault Refusal := perform (.admitTimeout p) s (admitTimeoutOp p)
/-- DISCOVERY_WINDOW (R444). -/
def execDiscoveryWindow (p : Option Nat) (s : State) : Host.Outcome State Fault Refusal := perform (.discoveryWindow p) s (discoveryWindowOp p)
/-- TOPOLOGY_CHECK (R450). -/
def execTopologyCheck (s : State) : Host.Outcome State Fault Refusal := perform .topologyCheck s topologyCheckOp

end Sys2Proof.Machine
end

