-- ==== Sys2Proof/Machine/MatrixEngine.lean ====
section
/-!
DEFINITION. The matrix engine (chapter 4): loads, the feeder, streams, drains and fences, the rings, and the governor's count of a row.
-/
namespace Sys2Proof.Machine

/-! ### Formats and modes -/

/-- K elements per cell (Table 04-1); 0 where the table has no row (R159). -/
def meMult (mode fmt : Nat) : Nat :=
  if mode = 0 then (match fmt with | 1 => 1 | 2 => 2 | 3 => 2 | 5 => 2 | 4 => 4 | _ => 0)
  else if mode ≤ 4 then (if fmt = 1 then 1 else 0)
  else if mode = 5 then (if fmt = 5 then 1 else 0)
  else 0

/-- Is the mode's output INT32 (Table 04-2)? -/
def meInt (mode fmt : Nat) : Bool := mode == 5 || fmt == 5

/-- Bytes of a K slice of `rows` array rows. -/
def sliceBytes (mode fmt rows : Nat) : Nat := rowBytes fmt (rows * meMult mode fmt)

/-! ### ME_LOAD (Table 04-6) -/

def lSrc (d : Desc) : Nat := fld d 8 0 48
def lStride (d : Desc) : Nat := fld d 16 0 32
def lRows (d : Desc) : Nat := fld d 20 0 8
def lCols (d : Desc) : Nat := fld d 21 0 8
def lFmt (d : Desc) : Nat := fld d 22 0 4
def lTransposed (d : Desc) : Bool := fld d 22 4 1 == 1
def lFromTr (d : Desc) : Bool := fld d 22 5 1 == 1
def lTr (d : Desc) : Nat := fld d 22 6 2
def lTrRow (d : Desc) : Nat := fld d 24 0 16
def lMode (d : Desc) : Nat := fld d 26 0 3

/-- The load's descriptor obeys R147, R148, R157 and R159, its width apart. -/
def loadOk (d : Desc) : Bool :=
  let k := lRows d * meMult (lMode d) (lFmt d)
  headerOk d && zeroBytes d 14 15 && zeroBytes d 23 23 && fld d 26 3 5 == 0 && zeroBytes d 27 63 &&
  1 ≤ lRows d && lRows d ≤ 128 && 1 ≤ lCols d && lCols d ≤ 128 && lStride d % 4 == 0 &&
  meMult (lMode d) (lFmt d) != 0 &&
  (lFmt d != 4 || (lRows d % 32 == 0 && !lTransposed d)) &&
  (if lFromTr d then !lTransposed d && 1 ≤ lFmt d && lFmt d ≤ 3 && lTrRow d ≤ 511 && lTrRow d + k ≤ 512
   else lSrc d % 4 == 0)

/-- The records a load reads from unit memory, as (address, bytes) (R146). -/
def loadRecords (d : Desc) : List (Nat × Nat) :=
  let k := lRows d * meMult (lMode d) (lFmt d)
  if lFromTr d then []
  else if lTransposed d then (List.range k).map (fun r => (lSrc d + r * lStride d, elemBytes (lFmt d) (lCols d)))
  else (List.range (lCols d)).map (fun r => (lSrc d + r * lStride d, sliceBytes (lMode d) (lFmt d) (lRows d)))

/-- The tile a load reads (R109, R146–R148). -/
def loadTile (c : Ctx) (u : Nat) (d : Desc) : Tile :=
  let f := lFmt d
  let k := lRows d * meMult (lMode d) f
  let cols := List.range (lCols d)
  let base : Tile := { mode := lMode d, fmt := f, rows := lRows d, cols := lCols d }
  if lFromTr d then
    { base with
      elems := cols.map (fun j => (List.range k).map (fun i =>
        convert 0 f false false (c.readNat (trAddr u (lTr d) (lTrRow d + i) j) 4))) }
  else if f = 4 then
    let recs := cols.map (fun j => readMx c (lSrc d + j * lStride d) (lRows d / 32))
    { base with elems := recs.map (fun p => p.1), scales := recs.map (fun p => p.2) }
  else if lTransposed d then
    { base with
      elems := cols.map (fun j => (List.range k).map (fun i =>
        c.readNat (lSrc d + i * lStride d + j * elemBytes f 1) (elemBytes f 1))) }
  else { base with elems := cols.map (fun j => readElems c f (lSrc d + j * lStride d) k) }

/-- A stream that still has rows to enter, or a load, holds the array path (R134, R135). -/
def arrayBusy (c : Ctx) (u : Nat) : Bool :=
  (c.unit u).me.entries.any (fun e => e.active &&
    (hOpcode e.desc == 0x10 || (hOpcode e.desc == 0x11 && decide (e.pos < fld e.desc 20 0 21))))

/-- Is an earlier stream to tile register `t` not done (R168)? -/
def streamTo (y : Queue) (i t : Nat) : Bool :=
  (y.entries.take i).any (fun e => e.ended.isNone && hOpcode e.desc == 0x11 && fld e.desc 24 0 2 ≤ 1 && fld e.desc 24 2 2 == t)

/-- Is an earlier drain of tile register `t` not done (R168)? -/
def drainOf (y : Queue) (i t : Nat) : Bool :=
  (y.entries.take i).any (fun e => e.ended.isNone && hOpcode e.desc == 0x12 && fld e.desc 20 0 2 == t)

/-! ### ME_STREAM (Table 04-7) -/

def sSrc (d : Desc) : Nat := fld d 8 0 48
def sStride (d : Desc) : Nat := fld d 16 0 32
def sN (d : Desc) : Nat := fld d 20 0 21
def sFmt (d : Desc) : Nat := fld d 23 0 4
def sAcc (d : Desc) : Bool := fld d 23 4 1 == 1
def sDest (d : Desc) : Nat := fld d 24 0 2
def sTr (d : Desc) : Nat := fld d 24 2 2
def sDestRow (d : Desc) : Nat := fld d 26 0 16
def sRingLen (d : Desc) : Nat := fld d 28 0 16
def sWabAddr (d : Desc) : Nat := fld d 32 0 48
def sWabStride (d : Desc) : Nat := fld d 40 0 32
def sMaskKind (d : Desc) : Nat := fld d 44 0 2
def sMaskCol (d : Desc) : Nat := fld d 46 0 16
def sMaskAddr (d : Desc) : Nat := fld d 48 0 48
def sMaskPitch (d : Desc) : Nat := fld d 54 0 16
def sMaskRow0 (d : Desc) : Nat := fld d 56 0 32

/-- The stream's descriptor obeys R119, R120, R131 and R157. WAB_ADDR, WAB_STRIDE, MASK_COL and the mask's other fields are looked at only
where DEST and MASK_KIND use them: for WAB_STRIDE, whose row of Table 04-7 does not say so, the model's choice (log entry 112). -/
def streamOk (d : Desc) : Bool :=
  headerOk d && zeroBytes d 14 15 && fld d 22 5 3 == 0 && fld d 23 5 3 == 0 && fld d 24 4 4 == 0 && zeroBytes d 25 25 &&
  zeroBytes d 30 31 && zeroBytes d 38 39 && fld d 44 2 6 == 0 && zeroBytes d 45 45 && zeroBytes d 60 63 &&
  1 ≤ sN d && sN d ≤ 1048576 && sSrc d % 4 == 0 && sStride d % 4 == 0 && sFmt d ≤ 7 && sDestRow d ≤ 511 &&
  sMaskKind d ≤ 2 && (sMaskKind d != 2 || sMaskPitch d != 0) &&
  (match sDest d with
   | 0 => sDestRow d + sN d ≤ 512 && sRingLen d == 0
   | 1 => 1 ≤ sRingLen d && sRingLen d ≤ 512 && sDestRow d + sRingLen d ≤ 512 && !sAcc d && sMaskKind d == 0
   | 2 => sRingLen d == 0 && sWabAddr d % 4 == 0 && sWabStride d % 4 == 0
   | _ => false)

/-- The streamed format pairs with the tile, and a WAB stream is allowed against it (R126, R160). -/
def pairs (t : Tile) (d : Desc) : Bool :=
  (sFmt d == t.fmt || (t.mode == 0 && (t.fmt == 2 || t.fmt == 3) && (sFmt d == 2 || sFmt d == 3))) &&
  (sDest d != 2 || (t.mode == 0 && t.fmt != 5 && decide (4 * t.cols ≤ sWabStride d)))

/-- The mask bit of row `n` (R129). -/
def maskBit (d : Desc) (n : Nat) : Nat :=
  let m := sMaskRow0 d + n
  if sMaskKind d = 2 then m / 128 * sMaskPitch d + sMaskCol d else m

/-- Is row `n` streamed (R128)? -/
def unmasked (c : Ctx) (d : Desc) (n : Nat) : Bool :=
  sMaskKind d == 0 || (c.byte (sMaskAddr d + maskBit d n / 8)).toNat.testBit (maskBit d n % 8)

/-- Bytes of a streamed row against a tile (R110). -/
def streamRowBytes (t : Tile) (d : Desc) : Nat := rowBytes (sFmt d) (t.rows * meMult t.mode t.fmt)

/-- Every byte the descriptor places lies where R166 allows: source rows, mask bits, and WAB rows within the WAB region (R126). -/
def streamWindow (c : Ctx) (u : Nat) (t : Tile) (d : Desc) : Option Nat :=
  let rows := List.range (sN d)
  match rows.find? (fun n => !ownUm c u (sSrc d + n * sStride d) (streamRowBytes t d) false) with
  | some n => some (sSrc d + n * sStride d)
  | none =>
    match (if sMaskKind d = 0 then none else rows.find? (fun n => !ownUm c u (sMaskAddr d + maskBit d n / 8) 1 false)) with
    | some n => some (sMaskAddr d + maskBit d n / 8)
    | none =>
      if sDest d = 2 then
        match rows.find? (fun n => !within (sWabAddr d + n * sWabStride d) (4 * t.cols) (wabRegion c u).1 (wabRegion c u).2 ||
            !ownUm c u (sWabAddr d + n * sWabStride d) (4 * t.cols) false) with
        | some n => some (sWabAddr d + n * sWabStride d)
        | none => none
      else none

/-- The exact value of element `k` of a K slice: an MXFP4 element under the scale of its block (R113). -/
def sliceValue (f : Nat) (elems scales : List Nat) (k : Nat) : Ext :=
  if f = 4 then mxValue (scales.getD (k / 32) 0) (elems.getD k 0) else decodeAny f (elems.getD k 0)

/-- One output element before rounding: the combination of Table 04-2 over the column's K slice (R111–R115). -/
def combine (mode : Nat) (xs ws : List Ext) (xc wc : List Nat) : Ext :=
  let both := List.zip xs ws
  match mode with
  | 0 => extSum (both.map (fun p => extMul p.1 p.2))
  | 1 => extSum (both.map (fun p => extAbs (extAdd p.1 (extNeg p.2))))
  | 2 => extSum (both.map (fun p => let x := extAdd p.1 (extNeg p.2); extMul x x))
  | 3 => (both.map (fun p => extAdd p.1 p.2)).foldl extMax (.inf true)
  | 4 => (both.map (fun p => extAdd p.1 p.2)).foldl extMin (.inf false)
  | _ => ofInt (((List.zip xc wc).filter (fun p => p.1 == p.2)).length : Nat)

/-- Is an operand zero for the data gates (R150)? -/
def gateZero (f code : Nat) : Bool := if f = 5 then code == 0 else bits code 0 (fmtWidth f - 1) == 0

/-- The column is issued: some multiplier is not gated (R150, R152). -/
def issued (t : Tile) (wf : Nat) (xc wc : List Nat) : Bool :=
  t.mode != 0 || (List.zip xc wc).any (fun p => !gateZero t.fmt p.1 && !gateZero wf p.2)

/-- The governor's weight of a mode and format (R594). -/
def govWeight (mode fmt : Nat) : Nat :=
  if mode = 0 then (if fmt = 4 then 8 else if fmt = 1 then 4 else 6) else 4

/-- The budget of the variant (Table 18-6). -/
def govBudget : Nat → Nat
  | 0 => 9109504 | 1 => 8912896 | _ => 8126464

/-- Does the region hold issue (R595)? -/
def govHolds (c : Ctx) (u : Nat) : Bool := (Tab.get {} c.dev.gov (regionOf u)).hold

/-- Raise a region's count, holding issue from the next cycle once it reaches the budget (R594, R595). -/
def govCount (u k : Nat) (c : Ctx) : Ctx :=
  let g : Gov := Tab.get {} c.dev.gov (regionOf u)
  let n := g.count + k
  let g' : Gov := { count := n, hold := g.hold || decide (govBudget c.dev.boot.variant ≤ n) }
  { c with dev := { c.dev with gov := Tab.set c.dev.gov (regionOf u) g' } }

/-- The codes of a streamed row at `a` and, in MXFP4, its block scales (R110, R113). -/
def rowOperands (c : Ctx) (t : Tile) (d : Desc) (a : Nat) : List Nat × List Nat :=
  if sFmt d = 4 then readMx c a (t.rows / 32) else (readElems c (sFmt d) a (t.rows * meMult t.mode t.fmt), [])

/-- The exact column combinations of a row of codes and block scales with the tile (R111–R115). -/
def rowSums (t : Tile) (d : Desc) (wc ws : List Nat) : List Ext :=
  let k := t.rows * meMult t.mode t.fmt
  let wv := (List.range k).map (sliceValue (sFmt d) wc ws)
  (List.range t.cols).map (fun j =>
    let xc := t.elems.getD j []
    combine t.mode ((List.range k).map (sliceValue t.fmt xc (t.scales.getD j []))) wv xc wc)

/-- Columns that a row of codes issues (R152). -/
def rowLive (t : Tile) (d : Desc) (wc : List Nat) : Nat :=
  ((List.range t.cols).filter (fun j => issued t (sFmt d) (t.elems.getD j []) wc)).length

/-! ### The feeder (R130, R137, R140, R141) -/

/-- Address of the byte that holds the mask bit of row `n` (R128). -/
def maskAddr (d : Desc) (n : Nat) : Nat := sMaskAddr d + maskBit d n / 8

/-- The next streamed row from `n` on, or N, at most `k` rows on: the mask bits are read on the way, and whether one was poisoned. -/
def scanMask (d : Desc) : Nat → Nat → Ctx → Bool → Nat × Ctx × Bool
  | 0, n, c, b => (n, c, b)
  | k + 1, n, c, b =>
    if sMaskKind d = 0 then (n, c, b)
    else
      let c1 := eccRead (maskAddr d n) 1 c
      let b1 := b || poisonAt c1 (maskAddr d n) 1
      if unmasked c1 d n then (n, c1, b1) else scanMask d k (n + 1) c1 b1

/-- The feeder of entry `i` goes on to the next row from `n` on that is not masked; with its queues empty that row is the next to enter. -/
def feedFrom (u i n : Nat) (c : Ctx) : Ctx :=
  match (c.unit u).me.entries[i]? with
  | none => c
  | some e =>
    let (m, c1, bad) := scanMask e.desc (sN e.desc - n) n c false
    c1.updEntry u 0 i (fun x =>
      { x with fetchNext := some m, pos := if x.feed.isEmpty then m else x.pos, poison := x.poison || bad })

/-- The feeder reads the next row of the stream at place `i`, in the shape of tile `t`, into its queues (R140). -/
def fetchRow (u i : Nat) (t : Tile) (c : Ctx) : Ctx :=
  let c0 := match (c.unit u).me.entries[i]? with
    | some e => if e.fetchNext.isNone then feedFrom u i 0 c else c
    | none => c
  match (c0.unit u).me.entries[i]? with
  | none => c0
  | some e =>
    let d := e.desc
    let n := e.fetchNext.getD 0
    if sN d ≤ n then c0
    else
      let a := sSrc d + n * sStride d
      let c1 := eccRead a (streamRowBytes t d) c0
      let bad := poisonAt c1 a (streamRowBytes t d)
      let row := rowOperands c1 t d a
      feedFrom u i (n + 1) (c1.updEntry u 0 i (fun x =>
        { x with feed := x.feed ++ [{ n := n, codes := row.1, scales := row.2 }], poison := x.poison || bad }))

/-- The stream whose rows the feeder fetches, and the shape of its tile: the one that occupies the array path while it has rows to fetch;
else the next command on the array path, if that is a stream and would start (R141). It fetches past a drain, which is not on the array
path, but not past an open fence, which holds every command behind it (R133, R161), nor before the descriptor's checks (log entry 110). -/
def feedTarget (c : Ctx) (u : Nat) : Option (Nat × Tile) :=
  let x := c.unit u
  let y := x.me
  match findActive c u 0 0x11 (fun e => decide (e.fetchNext.getD 0 < sN e.desc)), x.tile with
  | some (i, _), some t => some (i, t)
  | some _, none => none
  | none, _ =>
    match y.entries.findIdx? (fun e => !e.started && hOpcode e.desc != 0x12) with
    | none => none
    | some i =>
      match y.entries[i]? with
      | none => none
      | some e =>
        let fence := (y.entries.take i).any (fun a => hOpcode a.desc == 0x13)
        let tile := match findActive c u 0 0x10 (fun _ => true) with
          | some (_, l) => if l.poison then none else l.tile
          | none => x.tile
        match tile with
        | none => none
        | some t =>
          if hOpcode e.desc == 0x11 && !fence && !y.halted && decide (e.fetchNext.getD 0 < sN e.desc) && streamOk e.desc && pairs t e.desc &&
            (streamWindow c u t e.desc).isNone then some (i, t) else none

/-- The feeder fetches `k` rows, as far as there are rows to fetch. -/
def feedRows (u : Nat) : Nat → Ctx → Ctx
  | 0, c => c
  | k + 1, c =>
    match feedTarget c u with
    | none => c
    | some (i, t) => feedRows u k (fetchRow u i t c)

/-- Rows in the feeder queues. -/
def feedCount (c : Ctx) (u : Nat) : Nat := ((c.unit u).me.entries.map (fun e => e.feed.length)).sum

/-- The feeder goes on: it fetches `least` rows or more, within its 32 entries; how many arrive by then is a matter of time, which the model
leaves free (R140, log entry 110). -/
def feedOn (u least : Nat) (c : Ctx) : Ctx :=
  let room := 32 - feedCount c u
  let (k, c1) := c.draw 1
  feedRows u (min room (least + Config.freeNat k % (room + 1))) c1

/-! ### ME_LOAD and ME_STREAM start -/

/-- ME_LOAD starts (R134, R146–R149, R155, R166, R650): the tile is read and takes the array's place when the load completes. The feeder
begins with the rows of a stream behind it (R141). -/
def meLoadOp (u : Nat) (c : Ctx) : Ctx :=
  match startable c u 0 0x10 with
  | none => c
  | some (i, e) =>
    let d := e.desc
    let gone : Ctx → Ctx := fun a => a.updUnit u (fun x => { x with tile := none })
    if hOpcode d != 0x10 then finish u 0 i 1 0 c
    else if arrayBusy c u then c
    else if !loadOk d then finish u 0 i 1 0 c
    else if lCols d > (c.unit u).width then finish u 0 i 3 0 c
    else
      match (loadRecords d).find? (fun p => !ownUm c u p.1 p.2 false) with
      | some p => refuseWindow u 0 e p.1 c
      | none =>
        if lFromTr d && streamTo (c.unit u).me i (lTr d) then c
        else
          let c1 := forAll' (loadRecords d) c
          let bad := (loadRecords d).any (fun p => poisonAt c1 p.1 p.2)
          feedOn u 0 (gone (markStarted u 0 i (fun x => { x with tile := some (loadTile c1 u d), poison := bad }) c1))
where
  /-- the codewords of the records are read -/
  forAll' (l : List (Nat × Nat)) (c : Ctx) : Ctx := l.foldl (fun a p => eccRead p.1 p.2 a) c

/-- ME_LOAD completes (R138): the tile is loaded, or the load ends with `ME_POISON` and nothing is (R149). -/
def meLoadCompleteOp (u : Nat) (c : Ctx) : Ctx :=
  match findActive c u 0 0x10 (fun _ => true) with
  | none => c
  | some (i, e) =>
    if !unitLive c u then c
    else if e.poison then finish u 0 i 4 0 c
    else finish u 0 i 0 0 (c.updUnit u (fun x => { x with tile := e.tile }))

/-- A ring stream's start clears the counts of its tile register (R122): its consumers take its rows from row 0. -/
def ringStart (u t base len : Nat) (c : Ctx) : Ctx :=
  let anew (y : Queue) : Queue := { y with entries := y.entries.map (fun e => if ringConsumer t e then { e with ringNext := 0 } else e) }
  c.updUnit u (fun x =>
    { x with rings := Tab.set x.rings t { active := true, base := base, len := len }, me := anew x.me, ve := anew x.ve })

/-- ME_STREAM starts (R126, R133, R135, R160, R166, R168, R650); a ring stream clears its counts (R122). -/
def meStreamOp (u : Nat) (c : Ctx) : Ctx :=
  match startable c u 0 0x11 with
  | none => c
  | some (i, e) =>
    let d := e.desc
    if arrayBusy c u then c
    else if !streamOk d then finish u 0 i 1 0 c
    else
      match (c.unit u).tile with
      | none => finish u 0 i 2 0 c
      | some t =>
        if !pairs t d then finish u 0 i 2 0 c
        else
          match streamWindow c u t d with
          | some a => refuseWindow u 0 e a c
          | none =>
            if sDest d ≤ 1 && drainOf (c.unit u).me i (sTr d) then c
            else
              let c1 := if sDest d = 1 then ringStart u (sTr d) (sDestRow d) (sRingLen d) c else c
              let c2 := if e.fetchNext.isNone then feedFrom u i 0 c1 else c1
              feedOn u 0 (markStarted u 0 i (fun x => { x with tile := some { t with elems := [], scales := [] } }) c2)

/-- One row enters the array (R110–R115, R123, R130, R137, R152). A bubble instead while a ring is full or the governor holds, with
nothing changed, or while the row is not in the feeder queues, where it arrives meanwhile. -/
def meStreamRowEntryOp (u : Nat) (c : Ctx) : Ctx :=
  match findActive c u 0 0x11 (fun e => decide (e.pos < sN e.desc)) with
  | none => c
  | some (i, e) =>
    match (c.unit u).tile with
    | none => c
    | some t =>
      let d := e.desc
      let n := e.pos
      let ring := Tab.get {} (c.unit u).rings (sTr d)
      if !unitLive c u || govHolds c u || (sDest d == 1 && decide (ring.len ≤ n) && decide (ring.released ≤ n - ring.len)) then c
      else
        match e.feed with
        | [] => feedOn u 1 c
        | r :: rest =>
          let c1 := govCount u (rowLive t d r.codes * govWeight t.mode t.fmt) c
          feedOn u 0 (c1.updEntry u 0 i (fun x =>
            { x with
              feed := rest
              pos := match rest with | q :: _ => q.n | [] => x.fetchNext.getD (sN d)
              flight := x.flight ++ [{ n := r.n, sums := rowSums t d r.codes r.scales }] }))

/-- Where output row `n` begins (R119). -/
def outAddr (u : Nat) (d : Desc) (n : Nat) : Nat :=
  match sDest d with
  | 0 => trAddr u (sTr d) (sDestRow d + n) 0
  | 1 => trAddr u (sTr d) (sDestRow d + n % sRingLen d) 0
  | _ => sWabAddr d + n * sWabStride d

/-- One output element's new code, from the exact combination and the destination's old code (R98, R112, R120, R127, R87). -/
def outCode (mode fmt : Nat) (acc wab : Bool) (x : Ext) (old : Nat) : Nat :=
  if meInt mode fmt then
    let v : Int := match x with | .fin s m _ => if s then -(m : Int) else m | _ => 0
    encodeInt 32 (if acc then clampInt 32 v + decodeInt 32 old else v)
  else if !acc then rf32 x
  else if wab then addF32 (rf32 x) old
  else match mode with
    | 3 => rf32 (extMax x (f32 old))
    | 4 => rf32 (extMin x (f32 old))
    | _ => rf32 (extAdd x (f32 old))

/-- The codes of an output row at `a` (R112, R120, R127). -/
def outCodes (c : Ctx) (e : Entry) (a : Nat) (sums : List Ext) : List Nat :=
  (List.range sums.length).map (fun j =>
    outCode (e.tile.elim 0 (fun t => t.mode)) (e.tile.elim 0 (fun t => t.fmt)) (sAcc e.desc) (sDest e.desc == 2) (sums.getD j .nan)
      (c.readNat (a + 4 * j) 4))

/-- The oldest output row leaves the array and is written (R111, R112, R121, R127, R136). -/
def meOutputRowWriteOp (u : Nat) (c : Ctx) : Ctx :=
  match findActive c u 0 0x11 (fun e => !e.flight.isEmpty) with
  | none => c
  | some (i, e) =>
    match e.flight, unitLive c u with
    | r :: rest, true =>
      let d := e.desc
      let a := outAddr u d r.n
      let n := 4 * r.sums.length
      let wab := sDest d == 2
      let c1 := if wab && sAcc d then eccRead a n c else c
      let bad := wab && sAcc d && poisonAt c1 a n
      let codes := outCodes c1 e a r.sums
      let c2 := store a (elemRowBytes 0 codes) c1
      let c3 := if sDest d = 1 then
          c2.updUnit u (fun x => { x with rings := Tab.upd {} x.rings (sTr d) (fun g => { g with written := g.written + 1 }) })
        else c2
      c3.updEntry u 0 i (fun x => { x with flight := rest, poison := x.poison || bad })
    | _, _ => c

/-- The whole destination of a stream is left undefined (R164): the rows its mask lets through, and those whose mask bit is poisoned. -/
def streamUndef (u cols : Nat) (d : Desc) (c : Ctx) : Ctx :=
  ((List.range (sN d)).filter (fun n => unmasked c d n || poisonAt c (maskAddr d n) 1)).foldl (fun a n => a.undef (outAddr u d n) (4 * cols)) c

/-- A stream completes once its last output row has been written (R138). -/
def meStreamCompleteOp (u : Nat) (c : Ctx) : Ctx :=
  match findActive c u 0 0x11 (fun e => decide (sN e.desc ≤ e.pos) && e.flight.isEmpty) with
  | none => c
  | some (i, e) =>
    if !unitLive c u then c
    else
      let d := e.desc
      let c1 := if sDest d = 1 then
          c.updUnit u (fun x => { x with rings := Tab.upd {} x.rings (sTr d) (fun g => { g with active := false }) })
        else c
      if e.poison then finish u 0 i 4 0 (streamUndef u (e.tile.elim 0 (fun t => t.cols)) d c1) else finish u 0 i 0 0 c1

/-! ### ME_DRAIN (Table 04-8) -/

def dDst (d : Desc) : Nat := fld d 8 0 48
def dStride (d : Desc) : Nat := fld d 16 0 32
def dTr (d : Desc) : Nat := fld d 20 0 2
def dInt (d : Desc) : Bool := fld d 20 2 1 == 1
def dTransposed (d : Desc) : Bool := fld d 20 3 1 == 1
def dRelease (d : Desc) : Bool := fld d 20 4 1 == 1
def dFmt (d : Desc) : Nat := fld d 21 0 4
def dFirst (d : Desc) : Nat := fld d 22 0 16
def dCount (d : Desc) : Nat := fld d 24 0 16
def dCols (d : Desc) : Nat := fld d 26 0 8

/-- Bytes of one record. -/
def drainBytes (d : Desc) : Nat := rowBytes (dFmt d) (if dTransposed d then dCount d else dCols d)
/-- Number of records (R143). -/
def drainRecords (d : Desc) : Nat := if dTransposed d then dCols d else dCount d

/-- The drain's descriptor obeys R143–R145 and R157. -/
def drainOk (d : Desc) : Bool :=
  headerOk d && zeroBytes d 14 15 && fld d 20 5 3 == 0 && fld d 21 4 4 == 0 && zeroBytes d 27 63 &&
  dDst d % 4 == 0 && dStride d % 4 == 0 && dFmt d ≤ 7 && (!dInt d || [0, 1, 5, 6, 7].contains (dFmt d)) &&
  dFirst d ≤ 511 && 1 ≤ dCount d && dCount d ≤ 512 && 1 ≤ dCols d && dCols d ≤ 128 &&
  (if dRelease d then dFirst d == 0 else decide (dFirst d + dCount d ≤ 512)) && decide (drainBytes d ≤ dStride d)

/-- The bytes of one record of 32-bit source codes (R144). -/
def drainRecord (d : Desc) (codes : List Nat) : List Byte :=
  let src := if dInt d then 7 else 0
  if dFmt d = 4 then mxRowBytes false (codes.map (decodeAny src))
  else elemRowBytes (dFmt d) (codes.map (convert src (dFmt d) false false))

/-- Write the records of the rows read (R143). -/
def drainWrite (d : Desc) (rows : List (List Nat)) (c : Ctx) : Ctx :=
  let recs := if dTransposed d then (List.range (dCols d)).map (fun j => rows.map (fun r => r.getD j 0)) else rows
  (List.range recs.length).foldl (fun a r => store (dDst d + r * dStride d) (drainRecord d (recs.getD r [])) a) c

/-- Row `i` of tile register `t`, `n` columns. -/
def trRow (c : Ctx) (u t i n : Nat) : List Nat := (List.range n).map (fun j => c.readNat (trAddr u t i j) 4)

/-- ME_DRAIN starts (R133, R142–R145, R166, R168). Without RELEASE its rows stand still and its records are written; with
RELEASE it takes ring rows one by one. -/
def meDrainOp (u : Nat) (c : Ctx) : Ctx :=
  match startable c u 0 0x12 with
  | none => c
  | some (i, e) =>
    let d := e.desc
    if (c.unit u).me.entries.any (fun x => x.active && hOpcode x.desc == 0x12) then c
    else if !drainOk d then finish u 0 i 1 0 c
    else
      match (List.range (drainRecords d)).find? (fun r => !ownUm c u (dDst d + r * dStride d) (drainBytes d) false) with
      | some r => refuseWindow u 0 e (dDst d + r * dStride d) c
      | none =>
        if dRelease d then markStarted u 0 i (fun x => { x with ringNext := (Tab.get {} (c.unit u).rings (dTr d)).released }) c
        else if streamTo (c.unit u).me i (dTr d) then c
        else
          let rows := (List.range (dCount d)).map (fun k => trRow c u (dTr d) (dFirst d + k) (dCols d))
          markStarted u 0 i (fun x => { x with pos := dCount d }) (drainWrite d rows c)

/-- ME_DRAIN completes when its last record is written (R138). -/
def meDrainCompleteOp (u : Nat) (c : Ctx) : Ctx :=
  match findActive c u 0 0x12 (fun e => decide (dCount e.desc ≤ e.pos)) with
  | none => c
  | some (i, e) =>
    if !unitLive c u then c
    else finish u 0 i 0 0 (if dRelease e.desc then drainWrite e.desc e.rows c else c)

/-! ### The commands -/

/-- ME_LOAD (R134). -/
def execMeLoad (u : Nat) (s : State) : Host.Outcome State Fault Refusal :=
  perform (.meLoad u) s (meLoadOp u)

/-- ME_LOAD_COMPLETE (R138). -/
def execMeLoadComplete (u : Nat) (s : State) : Host.Outcome State Fault Refusal :=
  perform (.meLoadComplete u) s (meLoadCompleteOp u)

/-- ME_STREAM (R135). -/
def execMeStream (u : Nat) (s : State) : Host.Outcome State Fault Refusal :=
  perform (.meStream u) s (meStreamOp u)

/-- ME_STREAM_ROW_ENTRY (R137). -/
def execMeStreamRowEntry (u : Nat) (s : State) : Host.Outcome State Fault Refusal :=
  perform (.meStreamRowEntry u) s (meStreamRowEntryOp u)

/-- ME_OUTPUT_ROW_WRITE (R136). -/
def execMeOutputRowWrite (u : Nat) (s : State) : Host.Outcome State Fault Refusal :=
  perform (.meOutputRowWrite u) s (meOutputRowWriteOp u)

/-- ME_STREAM_COMPLETE (R138). -/
def execMeStreamComplete (u : Nat) (s : State) : Host.Outcome State Fault Refusal :=
  perform (.meStreamComplete u) s (meStreamCompleteOp u)

/-- ME_DRAIN (R143). -/
def execMeDrain (u : Nat) (s : State) : Host.Outcome State Fault Refusal :=
  perform (.meDrain u) s (meDrainOp u)

/-- ME_DRAIN_COMPLETE (R138). -/
def execMeDrainComplete (u : Nat) (s : State) : Host.Outcome State Fault Refusal :=
  perform (.meDrainComplete u) s (meDrainCompleteOp u)

/-- ME_FENCE (R161). -/
def execMeFence (u : Nat) (s : State) : Host.Outcome State Fault Refusal :=
  perform (.meFence u) s (fenceStart 0 0x13 u)

/-- ME_FENCE_COMPLETE (R161). -/
def execMeFenceComplete (u : Nat) (s : State) : Host.Outcome State Fault Refusal :=
  perform (.meFenceComplete u) s (fenceComplete 0 0x13 u)

/-- COMPLETION_RECORD_WRITE (R219, R220). -/
def execCompletionRecordWrite (u : Nat) (q : Nat) (s : State) : Host.Outcome State Fault Refusal :=
  perform (.completionRecordWrite u q) s (completionRecordWriteOp u q)

end Sys2Proof.Machine
end

