-- ==== Sys2Proof/Machine/Memory.lean ====
section
/-!
DEFINITION. What the memories do by themselves: patrol scrub (R234, R260, R261) and copy-on-write pages (R267–R270).
-/
namespace Sys2Proof.Machine

/-- UM_PATROL_SCRUB: the unit's scrubber reads its next word (R260); 786,432 words make a pass. -/
def umPatrolScrubOp (u : Nat) (c : Ctx) : Ctx :=
  let x := c.unit u
  if x.resetting then c
  else
    (checkWord (umBase u + 64 * x.scrub) c).updUnit u (fun y =>
      { y with scrub := (x.scrub + 1) % 786432, scrubJoins := false })

/-- The usable address of a channel-local data offset, inverse to R252; none above the channel's 30 GiB. -/
def lpEncode (zoneGib ch o : Nat) : Option Nat :=
  let z := zoneGib * 2 ^ 30
  if 30 * 2 ^ 30 ≤ o then none
  else if o < z / 128 then some (((o / 4096) * 128 + (ch % 32) * 4 + ch / 32) * 4096 + o % 4096)
  else
    let q := (3840 * 2 ^ 30 - z) / 4
    let o1 := o - z / 128
    some (z + (ch / 32) * q + ((o1 / 4096) * 32 + ch % 32) * 4096 + o1 % 4096)

/-- The check line of a code page (Table 06-4): of each of its 15 data lines the six check symbols and the two metadata bytes as stored, then
eight bytes of 0. -/
def checkLine (c : Ctx) (ch page : Nat) : List Nat :=
  (List.range 15).flatMap (fun i =>
    match lpEncode (c.die (ch / 32)).zoneGib ch ((15 * page + i) * 128) with
    | some a => let w := storedWord c a; w.drop 130 ++ (w.drop 128).take 2
    | none => List.replicate 8 0) ++ List.replicate 8 0

/-- Line `i` of a code page of a channel's device space as it is stored (R253): a data line, or the check line. -/
def deviceLine (c : Ctx) (ch page i : Nat) : List Nat :=
  if i = 15 then checkLine c ch page
  else match lpEncode (c.die (ch / 32)).zoneGib ch ((15 * page + i) * 128) with
    | some a => (storedWord c a).take 128
    | none => List.replicate 128 0

/-- LP_PATROL_SCRUB: a channel's scrubber reads the data lines of its next code page (R253, R260). -/
def lpPatrolScrubOp (ch : Nat) (c : Ctx) : Ctx :=
  let d := ch / 32
  let x := c.die d
  let page := Tab.get 0 x.scrub (ch % 32)
  if !x.trained then c
  else
    let lines := (List.range 15).filterMap (fun i => lpEncode x.zoneGib ch ((15 * page + i) * 128))
    (forAll lines checkWord c).updDie d (fun y => { y with scrub := Tab.set y.scrub (ch % 32) ((page + 1) % 2 ^ 24) })

/-- SCRUB_STARVATION: a scrub request that has waited joins the round robin for one access (R234). -/
def scrubStarvationOp (u : Nat) (c : Ctx) : Ctx := c.updUnit u (fun y => { y with scrubJoins := true })

/-- COW_FIRST_WRITE: a master's write reaches a page (R267): it waits while a page it touches is protected, else it lands. -/
def cowFirstWriteOp (a : Nat) (data : List Byte) (c : Ctx) : Ctx :=
  if lpSize < a + data.length then c
  else match firstProtected c a data.length with
  | some _ => cowWait a data c
  | none => store a data c

/-- COW_PAGE_COPIED: a page that a write waits for has its copy in staging and its mark, and the write proceeds (R267). With the
staging area full the streamer sends the page instead (R270). In the safe state the write's master stands frozen (R503). -/
def cowPageCopiedOp (page : Nat) (c : Ctx) : Ctx :=
  let awaited := c.dev.cow.waiting.any (fun w => (pagesOf w.1 (max 1 w.2.length)).contains page)
  if !protectedPage c page || !awaited || c.dev.safe.safe then c
  else match stagingFree c with
  | none => c
  | some dst =>
    let c1 := copyPage (page * 65536) dst c
    quotaCheck (releaseWrites (markPage page (c1.updCow (fun w => { w with staged := Tab.set w.staged page dst }))))

/-! ### The commands -/

/-- UM_PATROL_SCRUB (R260). -/
def execUmPatrolScrub (u : Nat) (s : State) : Host.Outcome State Fault Refusal := perform (.umPatrolScrub u) s (umPatrolScrubOp u)

/-- LP_PATROL_SCRUB (R260). -/
def execLpPatrolScrub (ch : Nat) (s : State) : Host.Outcome State Fault Refusal := perform (.lpPatrolScrub ch) s (lpPatrolScrubOp ch)

/-- SCRUB_STARVATION (R234). -/
def execScrubStarvation (u : Nat) (s : State) : Host.Outcome State Fault Refusal :=
  perform (.scrubStarvation u) s (scrubStarvationOp u)

/-- COW_FIRST_WRITE (R267). -/
def execCowFirstWrite (addr : Nat) (data : List Byte) (s : State) : Host.Outcome State Fault Refusal :=
  perform (.cowFirstWrite addr data) s (cowFirstWriteOp addr data)

/-- COW_PAGE_COPIED (R267). -/
def execCowPageCopied (page : Nat) (s : State) : Host.Outcome State Fault Refusal :=
  perform (.cowPageCopied page) s (cowPageCopiedOp page)

end Sys2Proof.Machine
end

