-- ==== Sys2Proof/Machine/VectorEngine.lean ====
section
/-!
DEFINITION. The vector engine (chapter 5): chains and their operations, reductions, the online log-sum-exp, the winnower, and
the consumers of a ring (R124, R177).
-/
namespace Sys2Proof.Machine

/-! ### Descriptor fields (Tables 05-1, 05-5) -/

/-- An operand slot at byte `b`. -/
structure Slot where
  off : Nat
  fmt : Nat
  kind : Nat
  stride : Nat
  ring : Bool
  res : Nat
  deriving DecidableEq, Repr

def slotAt (d : Desc) (b : Nat) : Slot :=
  { off := fld d b 0 26, fmt := fld d b 26 4, kind := fld d b 30 2, stride := fld d b 32 16, ring := fld d b 48 1 == 1,
    res := fld d b 49 15 }

def vRows (d : Desc) : Nat := fld d 8 0 21
def vCols (d : Desc) : Nat := fld d 11 0 13
def vType (d : Desc) : Nat := fld d 13 0 4
def vRtz (d : Desc) : Bool := fld d 13 4 1 == 1
def vNonsat (d : Desc) : Bool := fld d 13 5 1 == 1
def vAcc (d : Desc) : Bool := fld d 13 6 1 == 1
def vAxis (d : Desc) : Nat := fld d 14 2 1
def vNops (d : Desc) : Nat := fld d 15 0 3
def vSlot (d : Desc) (i : Nat) : Slot := slotAt d (16 + 8 * i)
def vD (d : Desc) : Slot := slotAt d 40
def vS0 (d : Desc) : Nat := fld d 56 0 32
def vS1 (d : Desc) : Nat := fld d 60 0 32

/-- One operation word (R181). -/
structure ChainOp where
  op : Nat
  ins : List Nat
  res : Bool
  deriving DecidableEq, Repr

/-- Operation `i` of the chain. -/
def vOp (d : Desc) (i : Nat) : ChainOp :=
  let w := fld d (48 + 2 * i) 0 16
  { op := bits w 0 6, ins := [bits w 6 3, bits w 9 3, bits w 12 3], res := bit w 15 }

/-- The operations of the chain. -/
def vOps (d : Desc) : List ChainOp := (List.range (vNops d)).map (vOp d)

/-- Inputs an operation takes; 0 for a reserved code (Table 05-3). -/
def opArity (op : Nat) : Nat :=
  if op = 0x04 || op = 0x0A then 3
  else if op = 0x00 || op = 0x13 || (0x20 ≤ op && op ≤ 0x23) || (0x30 ≤ op && op ≤ 0x34) then 1
  else if op ≤ 0x09 || (0x10 ≤ op && op ≤ 0x14) || (0x18 ≤ op && op ≤ 0x1C) then 2
  else 0

/-- Is the code a reduction? -/
def isReduction (op : Nat) : Bool := 0x30 ≤ op && op ≤ 0x34

/-- Is the operation defined in the chain type (Table 05-3)? -/
def opInType (op ct : Nat) : Bool :=
  if op = 0x04 then ct == 0 || ct == 1
  else if 0x18 ≤ op && op ≤ 0x1C then fmtIsInt ct
  else if (0x20 ≤ op && op ≤ 0x23) || op = 0x34 then ct == 0
  else true

/-- The selectors an operation uses. Those in input fields it does not take (IN2 and IN3 of PASS, say) are ignored, whatever they name: the
model's choice (log entry 113). -/
def ChainOp.used (o : ChainOp) : List Nat := o.ins.take (opArity o.op)

/-- Is slot `i` selected by some operation? -/
def slotUsed (d : Desc) (i : Nat) : Bool := (vOps d).any (fun o => o.used.contains i)

/-- Lane-cycles of an operation (Table 05-3). -/
def opCost (op : Nat) : Nat := if op = 0x34 then 3 else if 0x20 ≤ op && op ≤ 0x23 then 2 else 1

/-- The chain cost (R186). -/
def chainCost (d : Desc) : Nat :=
  ((vOps d).map (fun o => opCost o.op)).sum +
    ((List.range 3).filter (fun i => slotUsed d i && ((vSlot d i).fmt == 4 || (vSlot d i).fmt == 8))).length +
    b2n ((vD d).fmt == 4 || (vD d).fmt == 8)

/-- Alignment and place of a slot (R175, R178). -/
def slotOk (s : Slot) (cols : Nat) (isA : Bool) : Bool :=
  s.res == 0 && s.fmt ≤ 8 && (!s.ring || (isA && s.kind == 1 && bits s.off 9 9 == 0)) &&
  (match s.fmt with
   | 0 => s.off % 4 == 0 | 7 => s.off % 4 == 0 | 1 => s.off % 2 == 0 | 6 => s.off % 2 == 0
   | 4 => s.kind == 0 && cols % 128 == 0
   | 8 => s.kind == 0 && cols % 32 == 0
   | _ => true) &&
  (s.kind ≥ 2 || s.stride % 4 == 0)

/-- The last operation. -/
def lastOp (d : Desc) : Nat := (vOp d (vNops d - 1)).op
/-- Lines of a reduction: results it gives (R190). -/
def lineCount (d : Desc) : Nat := if vAxis d = 0 then vRows d else vCols d

/-- The chain's descriptor obeys R172–R194 and R208. -/
def chainOk (d : Desc) : Bool :=
  let ct := vType d
  let D := vD d
  let red := isReduction (lastOp d)
  hOpcode d == 0x20 && headerOk d && fld d 10 5 3 == 0 && fld d 12 5 3 == 0 && fld d 13 7 1 == 0 && fld d 14 3 5 == 0 && fld d 15 3 5 == 0 &&
  1 ≤ vRows d && vRows d ≤ 1048576 && 1 ≤ vCols d && vCols d ≤ 4096 && (ct == 0 || ct == 1 || fmtIsInt ct) &&
  1 ≤ vNops d && vNops d ≤ 4 &&
  (List.range (vNops d)).all (fun i =>
    let o := vOp d i
    !o.res && opArity o.op != 0 && opInType o.op ct && o.used.all (fun x => x != 7 && (x != 3 || i != 0)) &&
    (!isReduction o.op || i + 1 == vNops d)) &&
  (!vAcc d || red) &&
  (List.range 3).all (fun i => !slotUsed d i || slotOk (vSlot d i) (vCols d) (i == 0)) &&
  D.kind == 0 && !D.ring && D.res == 0 && D.fmt ≤ 8 && (red || D.stride % 4 == 0) &&
  (match D.fmt with
   | 0 => D.off % 4 == 0 | 7 => D.off % 4 == 0 | 1 => D.off % 2 == 0 | 6 => D.off % 2 == 0
   | 8 => !fmtIsInt ct && vS1 d % 256 != 255 && (if red then lineCount d else vCols d) % 32 == 0
   | _ => true) &&
  (lastOp d != 0x33 || (if fmtIsInt ct then D.fmt == 7 else D.fmt == 0)) &&
  (lastOp d != 0x34 || D.fmt == 0)

/-! ### Bytes of a chain (R174, R176) -/

/-- Where a slot lies: unit memory, or the tile registers. -/
def slotBase (u : Nat) (s : Slot) : Nat := if s.kind = 1 then trBase u else umBase u

/-- Byte ranges a slot reads, as (offset, bytes) in its window. Where the ring's rows lie is its stream's affair, and that stream may start
later: the range is that of the register's last row, beyond which no ring reaches (R119, log entry 115). -/
def slotRanges (s : Slot) (rows cols : Nat) : List (Nat × Nat) :=
  if s.ring then
    [(2 ^ 18 * (s.off / 2 ^ 18) + 512 * 511 + s.off % 512, rowBytes s.fmt cols)]
  else if s.kind = 2 then [(s.off, rowBytes s.fmt cols)]
  else if s.kind = 3 then [(s.off, rowBytes s.fmt rows)]
  else (List.range rows).map (fun i => (s.off + i * s.stride, rowBytes s.fmt cols))

/-- Bytes of one result record of a reduction. -/
def recordSize (d : Desc) : Nat := if lastOp d = 0x33 || lastOp d = 0x34 then 8 else elemBytes (vD d).fmt 1

/-- Byte ranges a chain writes (R190). -/
def destRanges (d : Desc) : List (Nat × Nat) :=
  let D := vD d
  if isReduction (lastOp d) then
    [(D.off, if D.fmt = 4 || D.fmt = 8 then rowBytes D.fmt (lineCount d) else lineCount d * recordSize d)]
  else (List.range (vRows d)).map (fun i => (D.off + i * D.stride, rowBytes D.fmt (vCols d)))

/-- The first range of a window that leaves it. -/
def outside (size : Nat) (l : List (Nat × Nat)) : Option Nat := (l.find? (fun p => decide (size < p.1 + p.2))).map (fun p => p.1)

/-- The first address of the chain outside the unit's windows (R174). -/
def chainWindow (u : Nat) (d : Desc) : Option Nat :=
  let ins := ((List.range 3).filter (slotUsed d)).filterMap (fun i =>
    let s := vSlot d i
    (outside (if s.kind = 1 then 2 ^ 20 else umSize) (slotRanges s (vRows d) (vCols d))).map (fun o => slotBase u s + o))
  match ins with
  | a :: _ => some a
  | [] => (outside umSize (destRanges d)).map (fun o => umBase u + o)

/-! ### Reading operands -/

/-- One row of a slot as codes of the chain type (R178, R180). -/
def rowCodes (c : Ctx) (s : Slot) (ct : Nat) (rtz nonsat : Bool) (a n : Nat) : List Nat :=
  if s.fmt = 4 then
    let (es, ss) := readMx c a (n / 128)
    (List.range n).map (fun i => convert 0 ct rtz nonsat (mxUnpack (ss.getD (i / 32) 0) (es.getD i 0)))
  else if s.fmt = 8 then
    (List.range (n / 32)).flatMap (fun k =>
      let b := bsxOfBytes ((c.read (a + 66 * k) 66).map (fun x => x.toNat))
      b.mant.map (fun m => convert 0 ct rtz nonsat (rf32 (bsxValue b m))))
  else (readElems c s.fmt a n).map (convert s.fmt ct rtz nonsat)

/-- Row `i` of the grid a slot supplies (R176), as codes of the chain type. `ring` holds the row a ring consumer has taken. -/
def slotRow (c : Ctx) (u : Nat) (d : Desc) (s : Slot) (i : Nat) (ring : List Nat) : List Nat :=
  let ct := vType d
  let f := rowCodes c s ct (vRtz d) (vNonsat d)
  if s.ring then ring.map (convert s.fmt ct (vRtz d) (vNonsat d))
  else if s.kind = 2 then f (umBase u + s.off) (vCols d)
  else if s.kind = 3 then List.replicate (vCols d) ((f (umBase u + s.off + i * elemBytes s.fmt 1) 1).getD 0 0)
  else f (slotBase u s + s.off + i * s.stride) (vCols d)

/-! ### Operations (Table 05-3) -/

/-- A truth value in the chain type (R183). -/
def truth (ct : Nat) (b : Bool) : Nat :=
  if b then (if fmtIsInt ct then 1 else encodeFp ct false false (.fin false 1 0)) else 0

/-- One integer operation on codes of `w` bits (R86). -/
def intOp (ct op a b x : Nat) : Nat :=
  let w := fmtWidth ct
  let i := decodeInt w a
  let j := decodeInt w b
  let n := b % w
  match op with
  | 0x00 => a
  | 0x01 => encodeInt w (i + j)
  | 0x02 => encodeInt w (i - j)
  | 0x03 => encodeInt w (i * j)
  | 0x05 => encodeInt w (min i j)
  | 0x06 => encodeInt w (max i j)
  | 0x07 => truth ct (i == j)
  | 0x08 => truth ct (decide (i < j))
  | 0x09 => truth ct (decide (i ≤ j))
  | 0x0A => if i ≠ 0 then b else x
  | 0x18 => bits (a <<< n) 0 w
  | 0x19 => a >>> n
  | 0x1A => encodeInt w (i >>> n)
  | 0x1B => bits (a <<< n) 0 w + (a >>> (w - n))
  | 0x1C => (a >>> n) + bits (a <<< (w - n)) 0 w
  | _ => a

/-- One floating-point operation on codes of the chain type (R98, R100, R183, R185). -/
def fpOp (ct op a b x : Nat) : Nat :=
  let r := encodeFp ct false false
  let i := decodeFp ct a
  let j := decodeFp ct b
  match op with
  | 0x00 => a
  | 0x01 => r (extAdd i j)
  | 0x02 => r (extAdd i (extNeg j))
  | 0x03 => r (extMul i j)
  | 0x04 => r (extAdd (extMul i j) (decodeFp ct x))
  | 0x05 => r (extMin i j)
  | 0x06 => r (extMax i j)
  | 0x07 => truth ct (extEq i j)
  | 0x08 => truth ct (extLt i j)
  | 0x09 => truth ct (extLt i j || extEq i j)
  | 0x0A => if extEq i (.fin false 0 0) then x else b
  | 0x20 => fnExp2 a
  | 0x21 => fnLog2 a
  | 0x22 => fnRcp a
  | 0x23 => fnRsqrt a
  | _ => a

/-- One operation: the logic operations act on bits in every chain type (R184). A reduction passes its element on. -/
def chainOp1 (ct op a b x : Nat) : Nat :=
  let w := fmtWidth ct
  match op with
  | 0x10 => Nat.land a b
  | 0x11 => Nat.lor a b
  | 0x12 => Nat.xor a b
  | 0x13 => 2 ^ w - 1 - a
  | 0x14 => Nat.land a (2 ^ w - 1 - b)
  | _ => if fmtIsInt ct then intOp ct op a b x else fpOp ct op a b x

/-- The scalar slots hold their value in the low bits of the chain type (R179). -/
def scalarOf (ct v : Nat) : Nat := bits v 0 (fmtWidth ct)

/-- The chain on one element: `xs` are the codes of slots A, B and C there (R181). -/
def chainElem (d : Desc) (xs : List Nat) : Nat :=
  let ct := vType d
  let src (p : Nat) (k : Nat) : Nat := match k with
    | 3 => p | 4 => scalarOf ct (vS0 d) | 5 => scalarOf ct (vS1 d) | 6 => 0 | k => xs.getD k 0
  (vOps d).foldl (fun p o =>
    let i := o.ins.map (src p)
    chainOp1 ct o.op (i.getD 0 0) (i.getD 1 0) (i.getD 2 0)) 0

/-! ### Reductions (R190–R194) -/

/-- Subtract in FP32. -/
def subF32 (a b : Nat) : Nat := rf32 (extAdd (f32 a) (extNeg (f32 b)))
/-- FP32 −∞. -/
def negInf : Nat := 0xFF800000
/-- FP32 NaN. -/
def nan32 : Nat := 0x7FC00000
/-- Is an FP32 code NaN? -/
def isNaN32 (x : Nat) : Bool := f32 x == .nan

/-- One step of the online log-sum-exp (R193). -/
def rlseStep (s0 : Nat) (p : Nat × Nat) (x : Nat) : Nat × Nat :=
  if isNaN32 p.1 then (nan32, nan32)
  else
    let y := mulF32 x s0
    if isNaN32 y || f32 y == .inf false then (nan32, nan32)
    else if f32 y == .inf true then p
    else if extLt (f32 p.1) (f32 y) then (y, fmaF32 p.2 (fnExp2 (subF32 p.1 y)) 0x3F800000)
    else (p.1, addF32 p.2 (fnExp2 (subF32 y p.1)))

/-- The merge of two pairs (R194). Two empty pairs (−∞, +0) merge to the empty pair, where the formula has −∞ − (−∞) (log entry 12). -/
def rlseMerge (p q : Nat × Nat) : Nat × Nat :=
  if isNaN32 p.1 || isNaN32 p.2 || isNaN32 q.1 || isNaN32 q.2 then (nan32, nan32)
  else if p = (negInf, 0) && q = (negInf, 0) then p
  else
    let m := rf32 (extMax (f32 p.1) (f32 q.1))
    let part (r : Nat × Nat) : Nat := mulF32 r.2 (fnExp2 (subF32 r.1 m))
    (m, addF32 (part p) (part q))

/-- Add two codes of the chain type. -/
def addCt (ct a b : Nat) : Nat := chainOp1 ct 0x01 a b 0

/-- Is an index entry better than another: NaN first, then the larger value, then the lower index (R100)? -/
def argBetter (ct : Nat) (p q : Nat × Int) : Bool :=
  let x := decodeAny ct p.1
  let y := decodeAny ct q.1
  if x = .nan then (y ≠ .nan || decide (p.2 < q.2))
  else if y = .nan then false
  else extBelow y x || (!extBelow x y && decide (p.2 < q.2))

/-- RARGMAX of a line: value and position (R192). -/
def argMax (ct : Nat) (l : List Nat) : Nat × Int :=
  let ps := (List.range l.length).map (fun i => (l.getD i 0, (i : Int)))
  ps.foldl (fun b p => if argBetter ct p b then p else b) (l.headD 0, 0)

/-- A value's canonical code: NaN becomes the canonical NaN (R100). -/
def canonical (ct x : Nat) : Nat := if fmtIsInt ct then x else encodeFp ct false false (decodeFp ct x)

/-- A line reduced, as a pair of codes: the second is the index or the sum (0 otherwise). A NaN leaves as the canonical one (R75, R77), from
a line of one element too. -/
def reduceLine (d : Desc) (l : List Nat) : Nat × Int :=
  let ct := vType d
  match lastOp d with
  | 0x30 => (canonical ct (pairTree (addCt ct) l.length l), 0)
  | 0x31 => ((l.drop 1).foldl (fun a b => chainOp1 ct 0x06 a b 0) (canonical ct (l.headD 0)), 0)
  | 0x32 => ((l.drop 1).foldl (fun a b => chainOp1 ct 0x05 a b 0) (canonical ct (l.headD 0)), 0)
  | 0x33 =>
    let r := argMax ct l
    (canonical ct r.1, clampInt 32 (r.2 + decodeInt 32 (vS1 d)))
  | _ =>
    let r := l.foldl (rlseStep (vS0 d)) (negInf, 0)
    (r.1, (r.2 : Int))

/-- Merge a result with the record already in place, both in the chain type (R194). -/
def mergeRecord (d : Desc) (old new : Nat × Int) : Nat × Int :=
  let ct := vType d
  match lastOp d with
  | 0x30 => (addCt ct old.1 new.1, 0)
  | 0x31 => (chainOp1 ct 0x06 old.1 new.1 0, 0)
  | 0x32 => (chainOp1 ct 0x05 old.1 new.1 0, 0)
  | 0x33 =>
    let r := if argBetter ct old new then old else new
    (canonical ct r.1, r.2)
  | _ =>
    let r := rlseMerge (old.1, old.2.toNat) (new.1, new.2.toNat)
    (r.1, (r.2 : Int))

/-- The record of line `i` as it stands in D (R180, R194). -/
def oldRecord (c : Ctx) (u : Nat) (d : Desc) (i : Nat) : Nat × Int :=
  let D := vD d
  let a := umBase u + D.off + i * recordSize d
  let v := convert D.fmt (vType d) (vRtz d) (vNonsat d) (c.readNat a (elemBytes D.fmt 1))
  match lastOp d with
  | 0x33 => (v, decodeInt 32 (c.readNat (a + 4) 4))
  | 0x34 => (v, (c.readNat (a + 4) 4 : Int))
  | _ => (v, 0)

/-- The bytes of one result record in D's format. -/
def recordOut (d : Desc) (r : Nat × Int) : List Byte :=
  let D := vD d
  let v := toBytes (elemBytes D.fmt 1) (convert (vType d) D.fmt (vRtz d) (vNonsat d) r.1)
  match lastOp d with
  | 0x33 => v ++ toBytes 4 (encodeInt 32 r.2)
  | 0x34 => v ++ toBytes 4 r.2.toNat
  | _ => v

/-- The bytes of a row of chain codes in D's format (R180, R188, R189). -/
def destRow (d : Desc) (codes : List Nat) : List Byte :=
  let D := vD d
  let ct := vType d
  if D.fmt = 4 then mxRowBytes (vRtz d) (codes.map (fun x => if fmtIsInt ct then f32 (convert ct 0 (vRtz d) false x) else decodeFp ct x))
  else if D.fmt = 8 then bsxRowBytes (vRtz d) (vS1 d % 256) (codes.map (decodeAny ct))
  else elemRowBytes D.fmt (codes.map (convert ct D.fmt (vRtz d) (vNonsat d)))

/-- Row `i` of the chain's results, from its slots' rows (R181). -/
def chainRow (c : Ctx) (u : Nat) (d : Desc) (i : Nat) (ring : List Nat) : List Nat :=
  let rows := (List.range 3).map (fun k => if slotUsed d k then slotRow c u d (vSlot d k) i ring else [])
  (List.range (vCols d)).map (fun j => chainElem d (rows.map (fun g => g.getD j 0)))

/-- The records that ACC combines with, as they stand in D (R190, R194). -/
def oldRecords (c : Ctx) (u : Nat) (d : Desc) : List (Nat × Int) :=
  let D := vD d
  if !vAcc d then []
  else if D.fmt = 4 || D.fmt = 8 then
    (rowCodes c { D with kind := 0 } (vType d) (vRtz d) (vNonsat d) (umBase u + D.off)
      (if D.fmt = 4 then (lineCount d + 127) / 128 * 128 else lineCount d)).map (fun x => (x, (0 : Int)))
  else (List.range (lineCount d)).map (oldRecord c u d)

/-- The results of a chain written to D, from its rows and the records ACC combines with. -/
def chainWrite (u : Nat) (d : Desc) (rows : List (List Nat)) (old : List (Nat × Int)) (c : Ctx) : Ctx :=
  let D := vD d
  if isReduction (lastOp d) then
    let lines := if vAxis d = 0 then rows else (List.range (vCols d)).map (fun j => rows.map (fun r => r.getD j 0))
    let res := (List.range lines.length).map (fun i =>
      let n := reduceLine d (lines.getD i [])
      if vAcc d then mergeRecord d (old.getD i (0, 0)) n else n)
    if D.fmt = 4 || D.fmt = 8 then store (umBase u + D.off) (destRow d (res.map (fun r => r.1))) c
    else store (umBase u + D.off) (res.flatMap (recordOut d)) c
  else
    (List.range rows.length).foldl (fun a i => store (umBase u + D.off + i * D.stride) (destRow d (rows.getD i [])) a) c

/-- Unit-memory ranges of row `i` of a chain's slots. -/
def rowReads (u : Nat) (d : Desc) (i : Nat) : List (Nat × Nat) :=
  ((List.range 3).filter (fun k => slotUsed d k && (vSlot d k).kind != 1)).map (fun k =>
    let s := vSlot d k
    if s.kind = 2 then (umBase u + s.off, rowBytes s.fmt (vCols d))
    else if s.kind = 3 then (umBase u + s.off + i * elemBytes s.fmt 1, elemBytes s.fmt 1)
    else (umBase u + s.off + i * s.stride, rowBytes s.fmt (vCols d)))

/-- Unit-memory ranges a chain reads when it starts: D when it accumulates and, unless it waits for a ring's rows, its slots. -/
def chainReads (u : Nat) (d : Desc) (ring : Bool) : List (Nat × Nat) :=
  (if ring then [] else (List.range (vRows d)).flatMap (rowReads u d)) ++
    (if vAcc d then (destRanges d).map (fun p => (umBase u + p.1, p.2)) else [])

/-- The codewords of some ranges are read. -/
def readAll (l : List (Nat × Nat)) (c : Ctx) : Ctx := l.foldl (fun a p => eccRead p.1 p.2 a) c

/-- Leave some ranges of unit `u`'s memory undefined (R226). -/
def undefAll (u : Nat) (l : List (Nat × Nat)) (c : Ctx) : Ctx := l.foldl (fun a p => a.undef (umBase u + p.1) p.2) c

/-- Does the chain take its rows from a ring (R177)? -/
def chainRing (d : Desc) : Bool := slotUsed d 0 && (vSlot d 0).ring

/-- Lanes of a unit's VE (R171). -/
def veLanes (u : Nat) : Nat := if isWide u then 256 else 64

/-- Part of a VE command's lane-cycles issue in this window and count (R594); which part is a matter of time, which the model leaves free
(log entry 120). A winnow counts 256 lanes a cycle. -/
def issueSome (u i : Nat) (c : Ctx) : Ctx :=
  match (c.unit u).ve.entries[i]? with
  | none => c
  | some e =>
    let (k, c1) := c.draw 1
    let n := Config.freeNat k % (min e.lanes (256 * veLanes u) + 1)
    let n := if hOpcode e.desc == 0x21 then n - n % 256 else n
    govCount u n (c1.updEntry u 1 i (fun x => { x with lanes := x.lanes - n }))

/-- VE_CHAIN starts (R172–R195, R208, R650). It reads the records ACC combines with and, unless it consumes a ring, its operands; its
results are written when it completes, so an access of another master in between finds D as it was (R170, R314, log entry 114). -/
def veChainOp (u : Nat) (c : Ctx) : Ctx :=
  match startable c u 1 0x20 with
  | none => c
  | some (i, e) =>
    let d := e.desc
    if govHolds c u then c
    else if !chainOk d then finish u 1 i 1 0 c
    else
      match chainWindow u d with
      | some a => refuseWindow u 1 e a c
      | none =>
        let ring := chainRing d
        let reads := chainReads u d ring
        let c1 := readAll reads c
        let bad := reads.any (fun p => poisonAt c1 p.1 p.2)
        let g := (Tab.get {} (c.unit u).rings ((vSlot d 0).off / 2 ^ 18)).released
        issueSome u i (markStarted u 1 i (fun x =>
          { x with
            pos := if ring then 0 else vRows d
            ringNext := g
            rows := if ring then [] else (List.range (vRows d)).map (fun r => chainRow c1 u d r [])
            old := oldRecords c1 u d
            lanes := if ring then 0 else vRows d * vCols d * chainCost d
            poison := bad }) c1)

/-- VE_CHAIN completes (R196) once its rows have left the chain and the governor lets the rest of its lanes issue: its results go to D. -/
def veChainCompleteOp (u : Nat) (c : Ctx) : Ctx :=
  match findActive c u 1 0x20 (fun e => decide (vRows e.desc ≤ e.pos)) with
  | none => c
  | some (i, e) =>
    let d := e.desc
    if !unitLive c u || (decide (0 < e.lanes) && govHolds c u) then c
    else
      let c1 := govCount u e.lanes c
      if e.poison then finish u 1 i 4 0 (undefAll u (destRanges d) c1)
      else finish u 1 i 0 0 (chainWrite u d e.rows e.old c1)

/-! ### The winnower (R198–R206, Table 05-6) -/

def wRows (d : Desc) : Nat := fld d 8 0 21
def wCols (d : Desc) : Nat := fld d 11 0 8
def wK (d : Desc) : Nat := fld d 12 0 16
def wInit (d : Desc) : Bool := fld d 14 0 1 == 1
def wFinish (d : Desc) : Bool := fld d 14 1 1 == 1
def wSlot (d : Desc) : Slot := slotAt d 16
def wState (d : Desc) : Nat := fld d 24 0 26
def wOut (d : Desc) : Nat := fld d 28 0 26
def wIdx (d : Desc) : Nat := fld d 32 0 32
def wOutStride (d : Desc) : Nat := fld d 36 0 32
def wS0 (d : Desc) : Nat := fld d 40 0 32

/-- State records and, with FINISH, seedbed entries, as unit memory ranges (R200, R204). -/
def winnowDest (d : Desc) : List (Nat × Nat) :=
  (wState d, wCols d * (16 + 8 * wK d)) ::
    (if wFinish d then (List.range (wCols d)).map (fun j => (wOut d + j * wOutStride d, 6 * wK d + 8)) else [])

/-- The winnow's descriptor obeys R199, R203, R204, R208 and R282. -/
def winnowOk (c : Ctx) (u : Nat) (d : Desc) : Bool :=
  let s := wSlot d
  let r := (c.unit u).region
  headerOk d && fld d 10 5 3 == 0 && fld d 14 3 5 == 0 && zeroBytes d 15 15 && fld d 24 26 6 == 0 && zeroBytes d 44 63 &&
  wRows d ≤ 1048576 && (wRows d != 0 || (wFinish d && !wInit d)) && 1 ≤ wCols d && wCols d ≤ 128 && 1 ≤ wK d && wK d ≤ 256 &&
  s.fmt == 0 && s.kind ≤ 1 && slotOk s (wCols d) true && wState d % 4 == 0 && wIdx d + wRows d ≤ 0xFFFFFFFF &&
  (match f32 (wS0 d) with | .fin n m _ => !n && m != 0 | _ => false) &&
  (!wFinish d || (fld d 28 26 6 == 0 && wOut d % 4 == 0 && wOutStride d % 4 == 0 && decide (6 * wK d + 8 ≤ wOutStride d))) &&
  (winnowDest d).all (fun p => within p.1 p.2 (r.sbBase * 65536) (r.sbSize * 65536))

/-- A winnow state record (Table 05-4). -/
structure WinnowSt where
  m : Nat
  s : Nat
  count : Nat
  invalid : Bool
  slots : List (Nat × Nat)
  deriving DecidableEq, Repr

/-- Address of token `j`'s record. -/
def winnowAddr (u : Nat) (d : Desc) (j : Nat) : Nat := umBase u + wState d + j * (16 + 8 * wK d)

/-- The record of token `j`, with at most K slots (R202). -/
def readWinnow (c : Ctx) (u : Nat) (d : Desc) (j : Nat) : WinnowSt :=
  let a := winnowAddr u d j
  let k := min (c.readNat (a + 8) 2) (wK d)
  { m := c.readNat a 4, s := c.readNat (a + 4) 4, count := k, invalid := c.readNat (a + 10) 1 % 2 == 1,
    slots := (List.range k).map (fun i => (c.readNat (a + 16 + 8 * i) 4, c.readNat (a + 20 + 8 * i) 4)) }

/-- Write a record back: its header and its filled slots. -/
def writeWinnow (u : Nat) (d : Desc) (j : Nat) (w : WinnowSt) (c : Ctx) : Ctx :=
  let a := winnowAddr u d j
  let c1 := storeNat (a + 10) 1 (b2n w.invalid) (storeNat (a + 8) 2 w.count (storeNat (a + 4) 4 w.s (storeNat a 4 w.m c)))
  store (a + 16) (w.slots.flatMap (fun p => toBytes 4 p.1 ++ toBytes 4 p.2)) c1

/-- Place (value, index) in descending order of value, ascending order of index (R201). -/
def placeSlot (y v : Nat) : List (Nat × Nat) → List (Nat × Nat)
  | [] => [(y, v)]
  | (x, w) :: t =>
    if extLt (f32 x) (f32 y) || (extEq (f32 x) (f32 y) && decide (v < w)) then (y, v) :: (x, w) :: t
    else (x, w) :: placeSlot y v t

/-- One element enters a token's state (R203). -/
def winnowInsert (k s0 x v : Nat) (w : WinnowSt) : WinnowSt :=
  if w.invalid then w
  else
    let y := mulF32 x s0
    if isNaN32 y || f32 y == .inf false then { w with invalid := true }
    else if f32 y == .inf true then w
    else
      let w1 := if extLt (f32 w.m) (f32 y) then { w with s := fmaF32 w.s (fnExp2 (subF32 w.m y)) 0x3F800000, m := y }
        else { w with s := addF32 w.s (fnExp2 (subF32 y w.m)) }
      if w1.count < k then { w1 with slots := placeSlot y v w1.slots, count := w1.count + 1 }
      else
        let (ly, lv) := w1.slots.getD (k - 1) (0, 0)
        if extLt (f32 ly) (f32 y) || (extEq (f32 y) (f32 ly) && decide (v < lv)) then
          { w1 with slots := placeSlot y v (w1.slots.take (k - 1)) }
        else w1

/-- The seedbed entry of a state (R204, Table 07-3). -/
def winnowEntry (k : Nat) (w : WinnowSt) : List Byte :=
  if w.invalid then
    (List.range k).flatMap (fun _ => toBytes 4 0xFFFFFFFF ++ toBytes 2 0x7FC0) ++ toBytes 4 nan32 ++ toBytes 4 nan32
  else
    let l := addF32 w.m (fnLog2 w.s)
    let ps := w.slots.map (fun p => (p.2, fnExp2 (subF32 p.1 l)))
    let total := ps.foldl (fun a p => addF32 a p.2) 0
    ps.flatMap (fun p => toBytes 4 p.1 ++ toBytes 2 (convert 0 1 false false p.2)) ++
      (List.range (k - w.count)).flatMap (fun _ => toBytes 4 0xFFFFFFFF ++ toBytes 2 0) ++
      toBytes 4 (rf32 (extMax (.fin false 0 0) (f32 (subF32 0x3F800000 total)))) ++ toBytes 4 (mulF32 l 0x3F317218)

/-- One input row enters the states of all tokens: row `n`, logits `xs` (R199, R203). The number counts the elements placed in a slot. -/
def winnowRow (u : Nat) (d : Desc) (n : Nat) (xs : List Nat) (p : Ctx × Nat) : Ctx × Nat :=
  (List.range (wCols d)).foldl (fun a j =>
    let w := readWinnow a.1 u d j
    let w1 := winnowInsert (wK d) (wS0 d) (xs.getD j 0) (wIdx d + n) w
    (writeWinnow u d j w1 a.1, a.2 + b2n (w1.slots != w.slots))) p

/-- Lane-cycles of so many lane operations: 256 lanes in every cycle begun (R206, R594). -/
def winnowLanes (n : Nat) : Nat := (n + 255) / 256 * 256

/-- Set up the records: cleared with INIT, COUNT written back as K without (R202). -/
def winnowSetup (u : Nat) (d : Desc) (c : Ctx) : Ctx :=
  (List.range (wCols d)).foldl (fun a j =>
    let b := winnowAddr u d j
    if wInit d then
      storeNat (b + 10) 1 0 (storeNat (b + 8) 2 0 (storeNat (b + 4) 4 0 (storeNat b 4 negInf a)))
    else if wK d < a.readNat (b + 8) 2 then storeNat (b + 8) 2 (wK d) a
    else a) c

/-- Address of input row `n` of a winnow that reads no ring. -/
def winnowSrc (u : Nat) (d : Desc) (n : Nat) : Nat := slotBase u (wSlot d) + (wSlot d).off + n * (wSlot d).stride

/-- VE_WINNOW starts (R198–R204, R650): it sets the records up and, unless it consumes a ring, takes every row. It works on its records in
place: with INIT and the rows of memory at its start, with a ring's rows as it takes them (log entry 114). -/
def veWinnowOp (u : Nat) (c : Ctx) : Ctx :=
  match startable c u 1 0x21 with
  | none => c
  | some (i, e) =>
    let d := e.desc
    let s := wSlot d
    if govHolds c u then c
    else if !winnowOk c u d then finish u 1 i 1 0 c
    else if !isWide u then finish u 1 i 0x10 0 c
    else
      match outside (if s.kind = 1 then 2 ^ 20 else umSize) (if wRows d = 0 then [] else slotRanges s (wRows d) (wCols d)) with
      | some o => refuseWindow u 1 e (slotBase u s + o) c
      | none =>
        let recs := [(umBase u + wState d, wCols d * (16 + 8 * wK d))]
        let reads := (if s.kind = 0 then (List.range (wRows d)).map (fun n => (winnowSrc u d n, 4 * wCols d)) else []) ++
          (if wInit d then [] else recs)
        let c1 := readAll reads c
        let bad := reads.any (fun p => poisonAt c1 p.1 p.2)
        let c2 := if bad then c1 else winnowSetup u d c1
        if s.ring then
          markStarted u 1 i (fun x => { x with poison := bad, ringNext := (Tab.get {} (c.unit u).rings (s.off / 2 ^ 18)).released }) c2
        else
          let p := if bad then (c2, 0) else
            (List.range (wRows d)).foldl (fun a n => winnowRow u d n (readElems a.1 0 (winnowSrc u d n) (wCols d)) a) (c2, 0)
          issueSome u i (markStarted u 1 i (fun x =>
            { x with pos := wRows d, poison := bad, lanes := winnowLanes (3 * wRows d * wCols d + 8 * p.2) }) p.1)

/-- VE_WINNOW completes (R204–R206) once the governor lets the rest of its lanes issue: with FINISH it writes the seedbed entries; DETAIL
counts the invalid tokens. -/
def veWinnowCompleteOp (u : Nat) (c : Ctx) : Ctx :=
  match findActive c u 1 0x21 (fun e => decide (wRows e.desc ≤ e.pos)) with
  | none => c
  | some (i, e) =>
    let d := e.desc
    let lanes := winnowLanes e.lanes + (if wFinish d then winnowLanes (wCols d * (4 * wK d + 8)) else 0)
    if !unitLive c u || (decide (0 < lanes) && govHolds c u) then c
    else
      let c0 := govCount u lanes c
      if e.poison then finish u 1 i 4 0 (undefAll u (winnowDest d) c0)
      else
        let c1 := if wFinish d then
            (List.range (wCols d)).foldl (fun a j =>
              store (umBase u + wOut d + j * wOutStride d) (winnowEntry (wK d) (readWinnow a u d j)) a) c0
          else c0
        finish u 1 i 0 ((List.range (wCols d)).filter (fun j => (readWinnow c u d j).invalid)).length c1

/-! ### Consumers of a ring (R124, R125, R142, R177) -/

/-- The row of tile register `t` that holds row `n` of its ring. -/
def ringRow (g : Ring) (n : Nat) : Nat := g.base + n % g.len

/-- Is the command a consumer of ring `t` that has a row to take and finds it written (R124)? -/
def ringReady (g : Ring) (t rows : Nat) (e : Entry) : Bool := ringConsumer t e && decide (e.pos < rows) && decide (e.ringNext < g.written)

/-- The consumer at place `i` of queue `q` takes its next row of ring `t` and releases it (R124, R125, R142, R177): a drain keeps it for its
records, a chain runs it with the rows of its other slots, a winnow enters it into its states. -/
def ringTake (u t q i : Nat) (e : Entry) (c : Ctx) : Ctx :=
  let g := Tab.get {} (c.unit u).rings t
  let row := ringRow g e.ringNext
  let d := e.desc
  let release : Ctx → Ctx := fun a => a.updUnit u (fun y => { y with rings := Tab.set y.rings t { g with released := g.released + 1 } })
  let took (f : Entry → Entry) (a : Ctx) : Ctx :=
    release (a.updEntry u q i (fun x => f { x with pos := x.pos + 1, ringNext := x.ringNext + 1 }))
  if q = 0 then took (fun x => { x with rows := x.rows ++ [trRow c u t row (dCols d)] }) c
  else if hOpcode d == 0x20 then
    let s := vSlot d 0
    let c1 := readAll (rowReads u d e.pos) (govCount u (vCols d * chainCost d) c)
    let bad := (rowReads u d e.pos).any (fun p => poisonAt c1 p.1 p.2)
    let out := chainRow c1 u d e.pos (readElems c1 s.fmt (trAddr u t row 0 + s.off % 512) (vCols d))
    took (fun x => { x with rows := x.rows ++ [out], poison := x.poison || bad }) c1
  else
    let xs := readElems c 0 (trAddr u t row 0 + (wSlot d).off % 512) (wCols d)
    let p := if e.poison then (c, 0) else winnowRow u d e.pos xs (c, 0)
    let n := e.lanes + 3 * wCols d + 8 * p.2
    took (fun x => { x with lanes := n % 256 }) (govCount u (n / 256 * 256) p.1)

/-- A consumer of ring `t` takes the next row once it is written, and releases it (R124). With two consumers each takes the rows in order
of n, and `released` counts both (R125); which of them comes first is free (log entry 111). -/
def ringRowConsumeOp (u t : Nat) (c : Ctx) : Ctx :=
  let g := Tab.get {} (c.unit u).rings t
  let me := findActive c u 0 0x12 (fun e => ringReady g t (dCount e.desc) e)
  let ve := if govHolds c u then none else
    match findActive c u 1 0x20 (fun e => chainRing e.desc && ringReady g t (vRows e.desc) e) with
    | some p => some p
    | none => findActive c u 1 0x21 (fun e => ringReady g t (wRows e.desc) e)
  if !unitLive c u then c
  else match me, ve with
  | none, none => c
  | some (i, e), none => ringTake u t 0 i e c
  | none, some (i, e) => ringTake u t 1 i e c
  | some (i, e), some (j, f) =>
    let (k, c1) := c.draw 1
    if Config.freeBool k then ringTake u t 0 i e c1 else ringTake u t 1 j f c1

/-! ### The commands -/

/-- RING_ROW_CONSUME (R124, R125, R177). -/
def execRingRowConsume (u : Nat) (t : Nat) (s : State) : Host.Outcome State Fault Refusal :=
  perform (.ringRowConsume u t) s (ringRowConsumeOp u t)

/-- VE_CHAIN (R195). -/
def execVeChain (u : Nat) (s : State) : Host.Outcome State Fault Refusal :=
  perform (.veChain u) s (veChainOp u)

/-- VE_CHAIN_COMPLETE (R196). -/
def execVeChainComplete (u : Nat) (s : State) : Host.Outcome State Fault Refusal :=
  perform (.veChainComplete u) s (veChainCompleteOp u)

/-- VE_WINNOW (R203). -/
def execVeWinnow (u : Nat) (s : State) : Host.Outcome State Fault Refusal :=
  perform (.veWinnow u) s (veWinnowOp u)

/-- VE_WINNOW_COMPLETE (R204–R206). -/
def execVeWinnowComplete (u : Nat) (s : State) : Host.Outcome State Fault Refusal :=
  perform (.veWinnowComplete u) s (veWinnowCompleteOp u)

/-- VE_FENCE (R209). -/
def execVeFence (u : Nat) (s : State) : Host.Outcome State Fault Refusal :=
  perform (.veFence u) s (fenceStart 1 0x22 u)

/-- VE_FENCE_COMPLETE (R209). -/
def execVeFenceComplete (u : Nat) (s : State) : Host.Outcome State Fault Refusal :=
  perform (.veFenceComplete u) s (fenceComplete 1 0x22 u)

end Sys2Proof.Machine
end

