-- ==== Sys2Proof/Machine/Reactions.lean ====
section
/-!
DEFINITION. The commands of the fault collectors (chapter 14): an event of any source, the comparators, the escalation and fallow
timers, acknowledgements, and leaving the safe state; and the governor's window (R594).
-/
namespace Sys2Proof.Machine

/-! ### Events (R484–R489) -/

/-- Do the collectors take events: power good and no reset held? -/
def collectorsLive (c : Ctx) : Bool := c.dev.pins.pwrGood && !c.dev.pins.coldRst && !c.dev.pins.warmRst

/-- Class of a cause (Tables 14-1 and 14-2): 0 NOTE, 1 CORRECTED, 2 DEGRADE, 3 SEVERE, 4 FATAL. -/
def causeClass (coll source cause : Nat) : Nat :=
  if coll < 4 then
    if source < 16 then (if cause = 0 then 1 else if cause ≤ 4 then 2 else 3)
    else if source < 20 then 3
    else if source < 28 then (if cause = 0 then 1 else if cause = 1 then 2 else 3)
    else if source < 37 then (if cause = 0 then 1 else if cause ≤ 2 then 2 else 0)
    else if source < 41 then (if cause = 0 then 1 else 3)
    else if source = 42 then (if cause = 3 then 4 else 0)
    else if source = 46 then 3
    else 4
  else match source with
    | 4 => if cause = 0 then 1 else 3
    | 6 => if cause = 0 then 1 else 2
    | 7 | 8 => 2
    | 9 => if cause = 0 then 1 else 4
    | 14 => 3
    | 15 => 0
    | _ => 4

/-- Replace the `n`-bit field at `lo` of a word. -/
def setField (w : Word64) (lo n v : Nat) : Word64 :=
  BitVec.ofNat 64 (w.toNat - bits w.toNat lo n * 2 ^ lo + v % 2 ^ n * 2 ^ lo)

/-- Set the cause bit of one cause, with the core, function or die it names (Tables 14-12 to 14-15). -/
def causeSet (coll source : Nat) (k : FaultCause) (c : Ctx) : Ctx :=
  let cause := k.cause
  c.updColl coll (fun x =>
    if coll < 4 then
      if source < 16 then
        let b := if cause = 7 then 56 else if cause = 8 then 57 else 7 * k.unit + cause
        { x with clerr := Tab.set x.clerr source (setBit (Tab.get 0 x.clerr source) b) }
      else if source < 20 then x
      else if source < 28 then { x with cause := setBit x.cause (3 * (source - 20) + cause) }
      else if source < 37 then { x with causeLnk := setBit x.causeLnk (5 * (source - 28) + cause) }
      else if source < 41 then { x with cause := setBit x.cause (24 + 2 * (source - 37) + cause) }
      else if source = 42 then { x with cause := setBit x.cause (32 + cause) }
      else x
    else match source with
      | 4 => { x with cause := setBit (if cause = 1 then setField x.cause 8 5 k.ident else x.cause) cause }
      | 6 => { x with cause := setBit (if cause = 1 then setField x.cause 13 4 k.ident else x.cause) (2 + cause) }
      | 7 => { x with cause := setBit x.cause 6 }
      | 8 => { x with cause := setBit x.cause 7 }
      | 9 => { x with cause := setBit (if cause = 1 then setField x.cause 17 2 k.ident else x.cause) (4 + cause) }
      | _ => x)

/-- A self-check failure (R502): recorded, then the safe state at once. In the safe state it reloads the fallow timer like any event
(R504); before the collectors act it is recorded only (R510). -/
def selfCheck (coll : Nat) (c : Ctx) : Ctx :=
  let c1 := recordEvent coll (if coll < 4 then 47 else 16) c
  if !c.dev.boot.armed then c1
  else if c.dev.safe.safe then c1.updSafe (fun s => { s with since := c.dev.slow })
  else safeEnter (if coll = 4 then 16 else coll) c1

/-! ### The defect list (R524, R525) -/

/-- Slots of the defect area up to the first empty one, as (number, is the marker of a clear record): a clear record takes ten. -/
def defectWalk (c : Ctx) (base total : Nat) : Nat → Nat → List (Nat × Bool)
  | 0, _ => []
  | k + 1, i =>
    let b := c.read (base + 16 * i) 16
    if total ≤ i || b.all (fun x => x == 0xFF) then []
    else if b.headD 0 = 0x0E then (i, true) :: defectWalk c base total k (i + 10)
    else (i, false) :: defectWalk c base total k (i + 1)

/-- Is the CHECK byte of a slot right (Table 15-11)? -/
def slotCheckOk (b : List Byte) : Bool :=
  let sum := (b.map (fun x => x.toNat)).sum - (b.getD 3 0).toNat
  (b.getD 3 0).toNat == 255 - sum % 256

/-- The entry that a slot's bytes hold. -/
def defectOf (b : List Byte) : Defect :=
  { kind := (b.headD 0).toNat % 16, level := (b.headD 0).toNat / 16, count := (b.getD 1 0).toNat, runtime := bit (b.getD 2 0).toNat 0
    index := ofBytes ((b.drop 4).take 4), sub := ofBytes ((b.drop 8).take 4), firstSeen := ofBytes ((b.drop 12).take 4) }

/-- The walk over the area in use. -/
def areaWalk (c : Ctx) : List (Nat × Bool) :=
  let total := dirField c 24 4 / 16
  defectWalk c (nvmBase + dirField c 20 4) total total 0

/-- The valid entries among slots below `n`, as bytes, in area order. -/
def validSlots (c : Ctx) (n : Nat) : List (List Byte) :=
  ((areaWalk c).filter (fun p => !p.2 && decide (p.1 < n))).filterMap (fun p =>
    let b := c.read (nvmBase + dirField c 20 4 + 16 * p.1) 16
    if slotCheckOk b then some b else none)

/-- The valid entries of the list. -/
def listEntries (c : Ctx) : List (List Byte) := validSlots c (dirField c 24 4 / 16)

/-- Does an entry name the same element? -/
def sameElement (x y : Defect) : Bool := x.kind == y.kind && x.index == y.index && x.sub == y.sub

/-- Is the element listed, or held out (R523, R526, R527)? -/
def isListed (c : Ctx) (e : Defect) : Bool :=
  (listEntries c).any (fun b => sameElement (defectOf b) e) || c.dev.boot.heldOut.any (fun x => sameElement x e)

/-- A COLUMN cause enters its column in the defect list at once, unless it stands there, and retires the unit (R156). -/
def columnFault (u column : Nat) (c : Ctx) : Ctx :=
  let e := runtimeDefect c 0 0 u column 1
  unitDisable u e (if isListed c e then c else appendEntry e c)

/-- The claiming core of an exhausted allocator freezes and its job ends (R308, R495). -/
def stashFreeze (coll source u core : Nat) (c : Ctx) : Ctx :=
  if unitOfCore core = u then markFroze coll source (endCause 0x10 (c.updCore core (fun k => { k with frozen := true }))) else c

/-- What an event's causes name, for the level actions: units of the cluster (8 for the whole cluster), a core, a function. -/
def identsOf (e : FaultEvent) : List Nat :=
  if e.coll < 4 && e.source < 16 then
    if e.causes.any (fun k => k.cause = 7 || k.cause = 8) then [8] else (e.causes.map (fun k => k.unit)).eraseDups
  else if e.coll = 4 && (e.source = 4 || e.source = 6) then (e.causes.filter (fun k => k.cause == 1)).map (fun k => k.ident)
  else []

/-- FAULT_EVENT: one pulse of a source's pin with the causes detected in that cycle (R484); the event takes the gravest of their
classes (R488). -/
def faultEventOp (e : FaultEvent) (c : Ctx) : Ctx :=
  if !collectorsLive c then c
  else if (e.coll < 4 && e.source = 47) || (e.coll = 4 && e.source = 16) then selfCheck e.coll c
  else
    let c1 := e.causes.foldl (fun a k => causeSet e.coll e.source k a) c
    let cls := e.causes.foldl (fun m k => max m (causeClass e.coll e.source k.cause)) 0
    let cluster : Bool := e.coll < 4 && e.source < 16
    let c2 := raise e.coll e.source cls (identsOf e) c1
    let unit (k : FaultCause) : Nat := 128 * e.coll + 8 * e.source + k.unit
    let c3 := (e.causes.filter (fun k => cluster && k.cause == 4)).foldl (fun a k => columnFault (unit k) k.ident a) c2
    let stash := e.causes.filter (fun k => cluster && k.cause == 6 && c.dev.boot.armed && !c.dev.safe.safe)
    stash.foldl (fun a k => stashFreeze e.coll e.source (unit k) k.ident a) c3

/-- COLLECTOR_SELF_CHECK (R502). -/
def collectorSelfCheckOp (coll : Nat) (c : Ctx) : Ctx := if collectorsLive c then selfCheck coll c else c

/-! ### Comparators (R504, R586, R593, R596) -/

/-- Is any thermal, supply or PLL comparator of the package asserted? -/
def anyComparator (c : Ctx) : Bool :=
  c.dev.safe.thermal || !c.dev.safe.supply.isEmpty || c.dev.safe.pllLost ||
  (List.range 4).any (fun d => (c.die d).thermal || (c.die d).supply || (c.die d).pllLost)

/-- THERMTRIP_N follows the thermal comparators (R597). -/
def tripPin (c : Ctx) : Ctx :=
  c.updPins (fun p => { p with thermtrip := p.pwrGood && (c.dev.safe.thermal || (List.range 4).any (fun d => (c.die d).thermal)) })

/-- A comparator's pulse: FATAL, where the collectors take events. -/
def fatal (coll source : Nat) (c : Ctx) : Ctx := if collectorsLive c then raise coll source 4 [] c else c

/-- A comparator has cleared: with none asserted any more the fallow timer counts from its full value, which it has held since the
assertion's event reloaded it (R504). -/
def comparatorCleared (c : Ctx) : Ctx :=
  if c.dev.safe.safe && !anyComparator c then c.updSafe (fun s => { s with since := c.dev.slow }) else c

/-- Set a thermal comparator: compute die 0–3, 4 the steward die. -/
def setThermal (d : Nat) (b : Bool) (c : Ctx) : Ctx :=
  if d < 4 then c.updDie d (fun x => { x with thermal := b }) else c.updSafe (fun s => { s with thermal := b })

/-- Is it asserted? -/
def thermalOf (c : Ctx) (d : Nat) : Bool := if d < 4 then (c.die d).thermal else c.dev.safe.thermal

/-- THERMAL_TRIP: the comparators run from PWR_GOOD onward, through every reset (R596). -/
def thermalTripOp (d : Nat) (c : Ctx) : Ctx :=
  if !c.dev.pins.pwrGood || thermalOf c d then c
  else
    let c1 := tripPin (setThermal d true c)
    if d < 4 then fatal d 43 c1 else fatal 4 11 c1

/-- THERMAL_TRIP_CLEAR. -/
def thermalTripClearOp (d : Nat) (c : Ctx) : Ctx :=
  if thermalOf c d then comparatorCleared (tripPin (setThermal d false c)) else c

/-- The supply comparators watch from the end of stage 3 (R593). -/
def supplyWatched (c : Ctx) : Bool := decide (4 ≤ c.dev.boot.stage)

/-- Is the comparator of rail `r` asserted: 0–3 VDD_COREd, 4 VDD_CORE_S, 5 VDD_SERDES, 6 VDD_LPPHY? -/
def supplyOf (c : Ctx) (r : Nat) : Bool := if r < 4 then (c.die r).supply else c.dev.safe.supply.contains r

/-- SUPPLY_WINDOW. -/
def supplyWindowOp (r : Nat) (c : Ctx) : Ctx :=
  if !supplyWatched c || supplyOf c r then c
  else if r < 4 then fatal r 44 (c.updDie r (fun x => { x with supply := true }))
  else fatal 4 12 (c.updSafe (fun s => { s with supply := r :: s.supply }))

/-- SUPPLY_WINDOW_CLEAR. -/
def supplyWindowClearOp (r : Nat) (c : Ctx) : Ctx :=
  if !supplyOf c r then c
  else if r < 4 then comparatorCleared (c.updDie r (fun x => { x with supply := false }))
  else comparatorCleared (c.updSafe (fun s => { s with supply := s.supply.filter (fun k => k != r) }))

/-- PLL_UNLOCK: a locked PLL loses lock, 0–3 the dies', 4 the root PLL (R586). -/
def pllUnlockOp (p : Nat) (c : Ctx) : Ctx :=
  if p < 4 then
    if (c.die p).locked then fatal p 45 (c.updDie p (fun x => { x with locked := false, pllLost := true })) else c
  else if c.dev.stw.locked then
    fatal 4 13 ((c.updStw (fun s => { s with locked := false })).updSafe (fun s => { s with pllLost := true }))
  else c

/-- PLL_RELOCK. -/
def pllRelockOp (p : Nat) (c : Ctx) : Ctx :=
  if p < 4 then
    if (c.die p).pllLost then comparatorCleared (c.updDie p (fun x => { x with locked := true, pllLost := false })) else c
  else if c.dev.safe.pllLost then
    comparatorCleared ((c.updStw (fun s => { s with locked := true })).updSafe (fun s => { s with pllLost := false }))
  else c

/-! ### Episodes (R493, R494, Table 14-6) -/

/-- The open episode of a source. -/
def episodeOf (c : Ctx) (coll source : Nat) : Option Episode :=
  ((c.coll coll).episodes.find? (fun p => p.1 == source)).map (fun p => p.2)

/-- Raise an open episode to a level and perform what that asks for. -/
def episodeRaise (coll source lvl : Nat) (e : Episode) (c : Ctx) : Ctx :=
  raiseTo nvmEvent coll source lvl []
    (c.updColl coll (fun x => { x with episodes := Tab.set x.episodes source { e with level := max e.level lvl } }))

/-- ESCALATION_TIMER: the level becomes the ceiling, the timer stops, the episode stays open (R494). -/
def escalationTimerOp (coll source : Nat) (c : Ctx) : Ctx :=
  match episodeOf c coll source with
  | some e =>
    if e.timer && decide ((c.coll coll).escTimer ≤ c.since e.since) then
      updAlert (episodeRaise coll source e.ceiling { e with timer := false } c)
    else c
  | none => c

/-- Release the application cores that the reaction of a PFC source has frozen; each takes an access fault at its instruction. -/
def appRelease (source : Nat) (c : Ctx) : Ctx :=
  forAll (List.range 24) (fun i a =>
    let k := a.core (2070 + i)
    if k.frozen && k.frozenBy = source then
      a.updCore (2070 + i) (fun k => { k with frozen := false, frozenBy := 0, faultDue := true })
    else a) c

/-- Firmware's write to FC_ACK: SOURCE [5:0], LEVEL [8:6], RELEASE [9] (Table 14-20). -/
def ackWrite (coll v : Nat) (c : Ctx) : Ctx :=
  let source := bits v 0 6
  let lvl := bits v 6 3
  if 6 ≤ lvl then c
  else
    let c1 := if coll = 4 && bit v 9 then appRelease source c else c
    match episodeOf c1 coll source with
    | none => c1
    | some e =>
      let c2 := if e.level < lvl then episodeRaise coll source lvl e c1 else c1
      updAlert (c2.updColl coll (fun x => { x with episodes := Tab.del source x.episodes }))

/-- FC_ACK (R493). -/
def fcAckOp (coll v : Nat) (c : Ctx) : Ctx := if collectorsLive c then ackWrite coll v c else c

/-- FC_ACK with RELEASE set, in the package's collector (Table 14-6). -/
def fcAckReleaseOp (v : Nat) (c : Ctx) : Ctx := if collectorsLive c && bit v 9 then ackWrite 4 v c else c

/-! ### Leaving the safe state (R505, R506, R510, Table 14-8) -/

/-- The collectors' configuration from the FAULT section at `b` (Table 15-6). -/
def loadFault (b : Nat) (c : Ctx) : Ctx :=
  let f := sectionAt c b 5
  let thresh (o n : Nat) : Tab (Nat × Nat) :=
    (List.range n).map (fun i => let w := c.readNat (f + o + 4 * i) 4; (i, (bits w 0 8, bits w 8 16)))
  let c1 := forAll (List.range 4) (fun d a => a.updColl d (fun x =>
    { x with thresh := thresh (200 * d) 48, escTimer := c.readNat (f + 200 * d + 192) 4 })) c
  let c2 := c1.updColl 4 (fun x => { x with thresh := thresh 800 17, escTimer := c.readNat (f + 868) 4 })
  c2.updSafe (fun s => { s with fallow := c.readNat (f + 876) 4, recoveryLimit := c.readNat (f + 880) 2 })

/-- Every episode closes (R495, R649). -/
def episodesClose (c : Ctx) : Ctx := forAll (List.range 5) (fun k a => a.updColl k (fun x => { x with episodes := [] })) c

/-- RECOVERY_COUNT rises; at its top it sticks, with a NOTE event (R506). -/
def recoveryRise (c : Ctx) : Ctx :=
  let (n, s) := stick 0xFFFF c.dev.safe.recoveryCount 1
  let c1 := c.updSafe (fun x => { x with recoveryCount := n, recoverySticky := x.recoverySticky || s })
  if s then raise 4 15 0 [] c1 else c1

/-- The safe state is over: UNAVAILABLE clears, SAFE_N and ALERT_N are deasserted (steps 5 and 6 of Table 14-8). -/
def safeOver (c : Ctx) : Ctx :=
  sendCaps (updAlert ((c.updSafe (fun s => { s with safe := false, leaving := false })).updPins (fun p => { p with safe := false })))

/-- Start-up runs again from a stage: links and loads begin anew. -/
def stageAgain (n : Nat) (c : Ctx) : Ctx :=
  let c1 : Ctx := { c with dev := { c.dev with
    ports := [], topo := {}
    cores := c.dev.cores.filter (fun p => p.1 == 2068 || p.1 == 2069) } }
  c1.updBoot (fun b => { b with stage := n, sub := 0, stageAt := c.dev.slow, stopped := false, error := 0, loaders := [] })

/-- READY is asserted where the topology outcome allows it, and the entry with START = 1 starts (R406). -/
def readyAgain (c : Ctx) : Ctx :=
  if c.dev.topo.outcome = 1 || c.dev.topo.outcome = 2 then autoStart 1 0 (c.updPins (fun p => { p with ready := true })) else c

/-- Steps 2 to 4: the recovery count, the rest of the job's end, every die's compute partial reset, the configuration reloaded. -/
def safeLeave (c : Ctx) : Ctx :=
  let c1 := recoveryRise c
  if !c.dev.boot.readyEver then safeOver (stageAgain 3 (episodesClose c1))
  else
    let c2 := if c1.dev.job.running then jobReport (jobStop c1) else c1
    let c3 := forAll (List.range 4) presetHold c2
    let c4 := episodesClose (loadFault (imgBase c3) c3)
    sendCaps (c4.updSafe (fun s => { s with leaving := true }))

/-- FALLOW_TIMER: it counts while no comparator is asserted; the package leaves the safe state, or is held until a cold reset (R505). -/
def fallowTimerOp (c : Ctx) : Ctx :=
  let s := c.dev.safe
  if !s.safe || s.held || s.leaving || anyComparator c || decide (c.since s.since < s.fallow) then c
  else if s.recoveryLimit = 0 || s.recoveryCount < s.recoveryLimit then safeLeave c
  else c.updSafe (fun x => { x with held := true })

/-! ### The governor (R594) -/

/-- The VE command of a unit goes on issuing in a new window, while the region may issue. -/
def windowIssue (u : Nat) (c : Ctx) : Ctx :=
  match (c.unit u).ve.entries.findIdx? (fun e => e.active && decide (0 < e.lanes)) with
  | some i => if unitLive c u && !govHolds c u then issueSome u i c else c
  | none => c

/-- GOVERNOR_WINDOW: the window of a region ends; its count restarts at zero and the hold ends (R594, R595). VE commands under way issue
part of their lane-cycles in the window that begins. -/
def governorWindowOp (r : Nat) (c : Ctx) : Ctx :=
  forAll ((List.range 32).map (fun i => 32 * r + i)) windowIssue { c with dev := { c.dev with gov := Tab.set c.dev.gov r {} } }

/-! ### The commands -/

/-- FAULT_EVENT (R484). -/
def execFaultEvent (e : FaultEvent) (s : State) : Host.Outcome State Fault Refusal := perform (.faultEvent e) s (faultEventOp e)
/-- COLLECTOR_SELF_CHECK (R502). -/
def execCollectorSelfCheck (coll : Nat) (s : State) : Host.Outcome State Fault Refusal :=
  perform (.collectorSelfCheck coll) s (collectorSelfCheckOp coll)
/-- THERMAL_TRIP (R596). -/
def execThermalTrip (die : Nat) (s : State) : Host.Outcome State Fault Refusal := perform (.thermalTrip die) s (thermalTripOp die)
/-- THERMAL_TRIP_CLEAR (R596). -/
def execThermalTripClear (die : Nat) (s : State) : Host.Outcome State Fault Refusal :=
  perform (.thermalTripClear die) s (thermalTripClearOp die)
/-- SUPPLY_WINDOW (R593). -/
def execSupplyWindow (rail : Nat) (s : State) : Host.Outcome State Fault Refusal := perform (.supplyWindow rail) s (supplyWindowOp rail)
/-- SUPPLY_WINDOW_CLEAR (R504). -/
def execSupplyWindowClear (rail : Nat) (s : State) : Host.Outcome State Fault Refusal :=
  perform (.supplyWindowClear rail) s (supplyWindowClearOp rail)
/-- PLL_UNLOCK (R586). -/
def execPllUnlock (pll : Nat) (s : State) : Host.Outcome State Fault Refusal := perform (.pllUnlock pll) s (pllUnlockOp pll)
/-- PLL_RELOCK (R504). -/
def execPllRelock (pll : Nat) (s : State) : Host.Outcome State Fault Refusal := perform (.pllRelock pll) s (pllRelockOp pll)
/-- ESCALATION_TIMER (R494). -/
def execEscalationTimer (coll source : Nat) (s : State) : Host.Outcome State Fault Refusal :=
  perform (.escalationTimer coll source) s (escalationTimerOp coll source)
/-- FC_ACK (R493). -/
def execFcAck (coll value : Nat) (s : State) : Host.Outcome State Fault Refusal := perform (.fcAck coll value) s (fcAckOp coll value)
/-- FC_ACK_RELEASE (R499). -/
def execFcAckRelease (value : Nat) (s : State) : Host.Outcome State Fault Refusal := perform (.fcAckRelease value) s (fcAckReleaseOp value)
/-- FALLOW_TIMER (R505). -/
def execFallowTimer (s : State) : Host.Outcome State Fault Refusal := perform .fallowTimer s fallowTimerOp
/-- GOVERNOR_WINDOW (R594). -/
def execGovernorWindow (region : Nat) (s : State) : Host.Outcome State Fault Refusal :=
  perform (.governorWindow region) s (governorWindowOp region)

end Sys2Proof.Machine
end

