-- ==== Sys2Proof/Machine/Resets.lean ====
section
/-!
DEFINITION. Resets: what a warm and a cold reset keep and clear (Table 18-8, R649), the reset inputs (R589, R623, R624), and the compute
partial reset of a die after its hold (Table 18-9, R533, R602).
-/
namespace Sys2Proof.Machine

/-! ### What a reset leaves -/

/-- A collector after a warm reset (R485, R649): episodes closed, windows empty, the loaded configuration gone. -/
def Coll.warm (x : Coll) : Coll := { x with thresh := [], escTimer := 0, windows := [], episodes := [] }

/-- A die after a warm reset: counts, comparator and the stored rate and training values stay (Table 18-8, R532, R596). -/
def DieSt.warm (x : DieSt) : DieSt :=
  { rateReached := x.rateReached, devices := x.devices, chTrained := x.chTrained, ecc := x.ecc, thermal := x.thermal }

/-- Start-up after a warm reset: what holds until a cold reset (R18, R526, R527, R532). -/
def BootSt.warm (x : BootSt) : BootSt :=
  { cold := false, stage4Ever := x.stage4Ever, heldOut := x.heldOut, unsaved := x.unsaved, unsavedSticky := x.unsavedSticky
    full := x.full, startSticky := x.startSticky, appended := x.appended }

/-- The test access port runs through every reset of the package (R578). -/
def StwSt.port (x : StwSt) : StwSt := { jtagInstr := x.jtagInstr, jtagOut := x.jtagOut, bsr := x.bsr }

/-- The devices after a warm reset (Table 18-8, R649): the job ends with no end record, every other field at its Reset value. -/
def Dev.warm (d : Dev) : Dev :=
  { units := d.units.map (fun p => (p.1, { ecc := p.2.ecc }))
    dies := d.dies.map (fun p => (p.1, p.2.warm))
    colls := d.colls.map (fun p => (p.1, p.2.warm))
    cow := { pageGen := d.cow.pageGen }
    boot := d.boot.warm
    safe := { recoveryCount := d.safe.recoveryCount, recoverySticky := d.safe.recoverySticky, thermal := d.safe.thermal }
    pins := d.pins
    stw := d.stw.port
    epoch := d.epoch, epochStuck := d.epochStuck
    poison := d.poison, errs := d.errs
    outbox := d.outbox, slow := d.slow, fresh := d.fresh }

/-- The devices after a cold reset: every field at its Reset value (R648). The thermal comparators, which are no register, and the test
access port run on; so do the model's own books. -/
def Dev.cold (d : Dev) : Dev :=
  { dies := d.dies.map (fun p => (p.1, { thermal := p.2.thermal }))
    safe := { thermal := d.safe.thermal }
    pins := d.pins
    stw := d.stw.port
    outbox := d.outbox, slow := d.slow, fresh := d.fresh }

/-- The output pins in a reset: every one but THERMTRIP_N released (Table 19-6). -/
def pinsReleased (p : Pins) : Pins := { p with ready := false, alert := false, safe := false }

/-- Memories that every reset of the package clears: core RAMs and tile registers (Table 18-8). -/
def ramsZero (c : Ctx) : Ctx := (c.zero (coreRam 0) (2094 * 2 ^ 17)).zero (trBase 0) (512 * 2 ^ 20)

/-- A warm reset: every seedbed region in force is zeroed first (R280); LPDDR5X, unit memory and the NVM keep their bytes. -/
def warmReset (c : Ctx) : Ctx :=
  let c1 := ramsZero (forAll (c.dev.units.map (fun p => p.1)) seedbedZero c)
  { c1 with dev := { c1.dev.warm with pins := pinsReleased c1.dev.pins } }

/-- A cold reset: the contents of every memory but the NVM are lost (R250; log entry 1). -/
def coldReset (c : Ctx) : Ctx :=
  let c1 := (((ramsZero c).zero 0 lpSize).zero (umBase 0) (512 * 2 ^ 26)).zero queueRam queueRamSize
  let c2 := c1.zero (bootWindow 0) (24 * 2 ^ 20)
  { c2 with dev := { c2.dev.cold with pins := pinsReleased c2.dev.pins } }

/-! ### The reset inputs (R589, R623, R624) -/

/-- PWR_GOOD_FALL: a cold reset at once; the comparators stop with VDD_IO's watch (R589, R596, Table 19-6). -/
def pwrGoodFallOp (c : Ctx) : Ctx :=
  if !c.dev.pins.pwrGood then c
  else
    let c1 := coldReset (c.updPins (fun p => { p with pwrGood := false, thermtrip := false }))
    forAll (List.range 4) (fun d a => a.updDie d (fun x => { x with thermal := false })) (c1.updSafe (fun s => { s with thermal := false }))

/-- Does a low pulse of so many REFCLK cycles start its reset (R623)? Between 10 and 99 cycles it may or may not. -/
def pulseStarts (pulse : Nat) (c : Ctx) : Bool × Ctx :=
  if pulse < 10 then (false, c)
  else if pulse < 100 then let (k, c1) := c.draw 1; (Config.freeBool k, c1)
  else (true, c)

/-- COLD_RST_N low. While a cold reset is held already the request is absorbed (R51). -/
def coldRstOp (pulse : Nat) (c : Ctx) : Ctx :=
  let (go, c1) := pulseStarts pulse c
  if !go then c1
  else if c1.dev.pins.coldRst || !c1.dev.pins.pwrGood then c1.updPins (fun p => { p with coldRst := true })
  else coldReset (c1.updPins (fun p => { p with coldRst := true }))

/-- WARM_RST_N low: absorbed while a reset is held (R51), without effect while HELD is set (R600, R624). -/
def warmRstOp (pulse : Nat) (c : Ctx) : Ctx :=
  let (go, c1) := pulseStarts pulse c
  if !go || c1.dev.safe.held then c1
  else if resetHeld c1 then c1.updPins (fun p => { p with warmRst := true })
  else warmReset (c1.updPins (fun p => { p with warmRst := true }))

/-- A steward management core is loaded and runs. -/
def stwMgmtRuns (c : Ctx) : Bool := (c.core 2068).load == .loaded || (c.core 2069).load == .loaded

/-- Start-up stage 1 begins. -/
def stageOne (c : Ctx) : Ctx := updAlert (tripPin (c.updBoot (fun b => { b with stage := 1, stageAt := c.dev.slow })))

/-- A write to BOOT_CONTROL: WARM starts a warm reset, and with no input low start-up begins at once (R531, R623). -/
def bootControlOp (v : Nat) (c : Ctx) : Ctx :=
  if !bit v 0 || !stwMgmtRuns c || resetHeld c || c.dev.safe.held then c else stageOne (warmReset c)

/-- RESET_RELEASE: both reset inputs and PWR_GOOD are high (R623). -/
def resetReleaseOp (c : Ctx) : Ctx :=
  if !resetHeld c then c
  else stageOne (c.updPins (fun p => { p with coldRst := false, warmRst := false, pwrGood := true }))

/-! ### The defect list in force (R525) -/

/-- Does the list take unit `u` out by an entry of its own, of a core of it, or of its region management core (Tables 15-10, 15-12)? -/
def unitOut (l : List Defect) (u : Nat) : Bool :=
  l.any (fun e => (e.kind == 1 && e.index == u) ||
    (e.kind == 4 && ((e.index < 2048 && e.index / 4 == u) || (2048 ≤ e.index && e.index < 2064 && e.index - 2048 == regionOf u))))

/-- The bypass map of unit `u`. -/
def colmapOf (l : List Defect) (u : Nat) : Nat := maskOf 128 (fun k => l.any (fun e => e.kind == 0 && e.index == u && e.sub == k))

/-- The most rows of unit `u` listed in any bank of any layer (R235). -/
def sparesOf (l : List Defect) (u : Nat) : Nat :=
  let rows := ((l.filter (fun e => e.kind == 2 && e.index == u)).map (fun e => e.sub % 2 ^ 20)).eraseDups
  rows.foldl (fun m r => max m (rows.filter (fun q => q % 128 == r % 128)).length) 0

/-- Apply the list to unit `u` (R153, R154, R235, R525). `keep`: a return from a partial reset, which changes no width and readmits no
unit (R533). -/
def applyUnit (l : List Defect) (keep : Bool) (u : Nat) (c : Ctx) : Ctx :=
  let x := c.unit u
  let map := if keep then x.colmap else colmapOf l u
  let w := 128 - popcount 128 map
  let n := sparesOf l u
  let gone : Bool := unitOut l u || decide (w < 120) || decide (8 < n) || (keep && x.retired)
  c.setUnit u { x with colmap := map, width := if gone then 0 else w, spares := min n 8, retired := gone, admitted := true, epoch := c.dev.epoch }

/-- The list as it stands, with the elements held out. -/
def listNow (c : Ctx) : List Defect := (listEntries c).map defectOf ++ c.dev.boot.heldOut

/-- Bring the list into force (R525). -/
def applyDefects (c : Ctx) : Ctx :=
  let l := (listEntries c).map defectOf
  forAll (List.range 512) (applyUnit (l ++ c.dev.boot.heldOut) false)
    (c.updBoot (fun b => { b with inForce := l, entries := l.length }))

/-! ### Compute partial reset (Table 18-9, R533, R602) -/

/-- A write to CLK_PRESET: a partial reset of every die named (R600). -/
def clkPresetOp (v : Nat) (c : Ctx) : Ctx :=
  if resetHeld c then c else forAll ((List.range 4).filter (fun d => bit v d)) presetStart c

/-- Steps 4 and 5: the domains are released, tile registers, seedbeds and the whole unit memory zeroed, and the region management cores
reloaded by glean fetch from the image copy in use. -/
def partialResetReleaseOp (d : Nat) (c : Ctx) : Ctx :=
  if (c.die d).preset ≠ 1 || (c.dev.safe.safe && !c.dev.safe.leaving) then c
  else
    let us := (List.range 128).map (fun i => 128 * d + i)
    let c1 := forAll us (fun u a => umZero u (tileZero u a)) c
    let c2 := c1.updDie d (fun x => { x with preset := 2, domainRun := x.domainRun - x.domainRun % 256 + 255 })
    if 6 ≤ c.dev.boot.stage then
      let b := imgBase c
      forAll ((List.range 4).map (fun r => 2048 + 4 * d + r)) (loadStart (sectionAt c b 9) (sectionAt c b 0x0A) true) c2
    else c2

/-- Units and link ports of a die that a late retirement names (R61). -/
def lateUnits (c : Ctx) (d : Nat) : List Nat :=
  (c.dev.boot.late.filter (fun e => e.kind != 7 && dieOfUnit e.index == d)).map (fun e => e.index)
def latePorts (c : Ctx) (d : Nat) : List Nat := (c.dev.boot.late.filter (fun e => e.kind == 7 && e.index / 9 == d)).map (fun e => e.index)

/-- The return is complete: the list applied, late retirements in effect, the die admitted at the package's epoch, its units loaded for a job
that starts meanwhile, BUSY clear once no die is in reset; with the last die of a package leaving the safe state, steps 5 and 6 of Table 14-8. -/
def partialResetReturnOp (d : Nat) (c : Ctx) : Ctx :=
  if (c.die d).preset ≠ 2 || (List.range 4).any (fun r => (c.loader (2048 + 4 * d + r)).active) then c
  else
    let c1 := forAll ((List.range 128).map (fun i => 128 * d + i)) (applyUnit (listNow c) true) c
    let c2 := (forAll (lateUnits c d) unitGone c1).updBoot (fun b =>
      { b with late := b.late.filter (fun e => (if e.kind = 7 then e.index / 9 else dieOfUnit e.index) != d) })
    let c3 := forAll ((List.range 128).map (fun i => 128 * d + i)) unitLoads
      (forAll (latePorts c d) (portDisable true) (c2.updDie d (fun x => { x with preset := 0, stopped := false, epoch := c.dev.epoch })))
    if anyPreset c3 then c3
    else
      let c4 := sendCaps c3
      if c4.dev.safe.leaving then readyAgain (safeOver c4) else c4

/-! ### The commands -/

/-- PWR_GOOD_FALL (R589). -/
def execPwrGoodFall (s : State) : Host.Outcome State Fault Refusal := perform .pwrGoodFall s pwrGoodFallOp
/-- COLD_RST_N (R623). -/
def execColdRstN (pulse : Nat) (s : State) : Host.Outcome State Fault Refusal := perform (.coldRstN pulse) s (coldRstOp pulse)
/-- WARM_RST_N (R531). -/
def execWarmRstN (pulse : Nat) (s : State) : Host.Outcome State Fault Refusal := perform (.warmRstN pulse) s (warmRstOp pulse)
/-- BOOT_CONTROL_WARM (R531). -/
def execBootControlWarm (value : Nat) (s : State) : Host.Outcome State Fault Refusal :=
  perform (.bootControlWarm value) s (bootControlOp value)
/-- RESET_RELEASE (R623). -/
def execResetRelease (s : State) : Host.Outcome State Fault Refusal := perform .resetRelease s resetReleaseOp
/-- CLK_PRESET (R602). -/
def execClkPreset (dies : Nat) (s : State) : Host.Outcome State Fault Refusal := perform (.clkPreset dies) s (clkPresetOp dies)
/-- PARTIAL_RESET_RELEASE (R602). -/
def execPartialResetRelease (d : Nat) (s : State) : Host.Outcome State Fault Refusal :=
  perform (.partialResetRelease d) s (partialResetReleaseOp d)
/-- PARTIAL_RESET_RETURN (R533). -/
def execPartialResetReturn (d : Nat) (s : State) : Host.Outcome State Fault Refusal :=
  perform (.partialResetReturn d) s (partialResetReturnOp d)

end Sys2Proof.Machine
end

