-- ==== Sys2Proof/Machine/StartUp.lean ====
section
/-!
DEFINITION. Start-up (chapter 15): the stages of Table 15-1 from the boot ROM to READY, the NVM directory, slot selection, clear records,
the defect list at start, the fast path, and writes to the NVM (R514).
-/
namespace Sys2Proof.Machine

/-- Is start-up at stage `n` and able to go on: not stopped, not in the safe state, no reset held? -/
def stageOpen (c : Ctx) (n : Nat) : Bool :=
  c.dev.boot.stage == n && !c.dev.boot.stopped && !c.dev.safe.safe && !resetHeld c

/-- Begin stage `n`. -/
def stageBegin (n : Nat) (c : Ctx) : Ctx := c.updBoot (fun b => { b with stage := n, sub := 0, stageAt := c.dev.slow })

/-! ### The NVM directory (R512, R513) -/

/-- Base of directory copy `k`. -/
def dirBase (k : Nat) : Nat := nvmBase + 0x1000 * k

/-- Is copy `k` valid: MAGIC and CRC right, its regions within the 4 GiB that offsets reach, apart, and off the first 8 KiB? -/
def dirOk (c : Ctx) (k : Nat) : Bool :=
  let f (o : Nat) : Nat := c.readNat (dirBase k + o) 4
  let regions : List (Nat × Nat) := [(0, 0x2000), (f 8, f 16), (f 12, f 16), (f 20, f 24), (f 28, f 32)]
  f 0 == 0x4E564431 && f 4092 == crc32c (c.read (dirBase k) 4092) &&
  regions.all (fun r => decide (r.1 + r.2 ≤ 2 ^ 32)) &&
  (List.range 5).all (fun i => (List.range i).all (fun j =>
    !overlaps (regions.getD i (0, 0)).1 (regions.getD i (0, 0)).2 (regions.getD j (0, 0)).1 (regions.getD j (0, 0)).2))

/-- The copy in use: the valid one whose SEQ is later in serial order; copy 0 for equal SEQs or a difference of 2^31. -/
def chooseDir (c : Ctx) : Option Nat :=
  let seq (k : Nat) : Nat := c.readNat (dirBase k + 4) 4
  let ahead := (seq 1 + 2 ^ 32 - seq 0) % 2 ^ 32
  match dirOk c 0, dirOk c 1 with
  | false, false => none
  | true, false => some 0
  | false, true => some 1
  | true, true => if 0 < ahead && ahead < 2 ^ 31 then some 1 else some 0

/-- Raise START_NUMBER in a new directory copy, once in a cold start; past its top it stays and START_STICKY is set (R513). -/
def startNumberRise (c : Ctx) : Ctx :=
  if !c.dev.boot.cold || c.dev.boot.numbered then c
  else
    let c1 := c.updBoot (fun b => { b with numbered := true })
    let n := dirField c 40 4
    if n = 0xFFFFFFFF then c1.updBoot (fun b => { b with startSticky := true })
    else
      let k := c.dev.boot.dirCopy
      let old := c.read (dirBase k) 4092
      let body := old.take 4 ++ toBytes 4 ((dirField c 4 4 + 1) % 2 ^ 32) ++ (old.drop 8).take 32 ++ toBytes 4 (n + 1) ++ old.drop 44
      (c1.write (dirBase (1 - k)) (body ++ toBytes 4 (crc32c body))).updBoot (fun b => { b with dirCopy := 1 - k })

/-! ### Stage 1 (R511, R538) -/

/-- Identity from the seed: root key, seed check, device key and ID (R538, R540, R541). -/
def identityLoad (seed : Nat) (c : Ctx) : Ctx :=
  let b := toBytesBE 48 seed
  let rootOk : Bool := sha384Nat (c.read (identityBase c + 16) 96) == Config.rootDigest
  let pufOk : Bool := sha384 b == c.read (identityBase c + 112) 48
  let d := 1 + sha384Nat b % (p384N - 1)
  let (x, y) := publicKey d
  let sec : SecSt := if pufOk then { rootOk := rootOk, pufOk := true, deviceId := keyDigest x y, key := d, keyX := x, keyY := y }
    else { rootOk := rootOk }
  let c1 : Ctx := { c with dev := { c.dev with sec := sec } }
  let cert := identityCert c1
  let ok : Bool := certValid c1 1 cert && namesDevice c1 cert && certKey cert == (x, y)
  { c1 with dev := { c1.dev with
      sec := { c1.dev.sec with idCertOk := ok }
      boot := { c1.dev.boot with deviceId8 := ofBytes ((toBytesBE 48 sec.deviceId).take 8) } } }

/-- The seed that the PUF response and HELPER give (R538). -/
def seedOf (response : Nat) (c : Ctx) : Nat := Config.pufSeed response (c.read (identityBase c + 160) 2048) % 2 ^ 384

/-- The level of a strap whose land stands at so many mV (Table 19-7): a range excludes its upper end. -/
def strapLevel (mv : Nat) : Nat := ([100, 300, 500, 700, 900, 1100, 1400].filter (fun top => top ≤ mv)).length

/-- The static I2C address of the management target: 60H plus the level of STRAP2 (R576). -/
def i2cAddress (c : Ctx) : Nat := 0x60 + Tab.get 0 c.dev.boot.straps 2

/-- BOOT_ROM: stage 1 ends with strap lands and slot read and the device key derived from the PUF's response. STRAP0 at a reserved level stops
start-up. -/
def bootRomOp (straps : List Nat) (slot response : Nat) (c : Ctx) : Ctx :=
  if !stageOpen c 1 then c
  else
    let c1 := c.updBoot (fun b => { b with straps := (List.range 8).map (fun i => (i, strapLevel (straps.getD i 0))), slotPin := slot })
    if 3 ≤ strapLevel (straps.getD 0 0) then bootStop 1 c1
    else match chooseDir c1 with
      | none => stageBegin 2 c1
      | some k =>
        let c2 := c1.updBoot (fun b => { b with dirCopy := k })
        stageBegin 2 (identityLoad (seedOf response c2) c2)

/-! ### Stage 2 (R515, R528, R529, R544) -/

/-- Is the clear record at slot `i` valid: ten slots within the area, signature, device and start number (R528, R546)? -/
def clearOk (c : Ctx) (i : Nat) : Bool :=
  let b := c.read (nvmBase + dirField c 20 4 + 16 * i) 160
  i + 10 ≤ dirField c 24 4 / 16 && ofBytes ((b.drop 4).take 4) == dirField c 40 4 &&
  c.dev.sec.pufOk && ofBytesBE ((b.drop 16).take 48) == c.dev.sec.deviceId &&
  rootVerify c (sha384Nat (b.take 64)) (ofBytesBE ((b.drop 64).take 48)) (ofBytesBE ((b.drop 112).take 48))

/-- At a cold start, before START_NUMBER rises: a valid clear record empties the area but for the first KEEP entries before it. -/
def clearRecord (c : Ctx) : Ctx :=
  if !c.dev.boot.cold || c.dev.boot.numbered then c
  else
    match ((areaWalk c).filter (fun p => p.2)).find? (fun p => clearOk c p.1) with
    | none => c
    | some (i, _) =>
      let base := nvmBase + dirField c 20 4
      let kept := (validSlots c i).take (c.readNat (base + 16 * i + 8) 4)
      let c1 := c.write base (List.replicate (dirField c 24 4) 0xFF)
      (c1.write base kept.flatten).updBoot (fun b => { b with cleared := true })

/-- NVM address of slot `s`. -/
def imageSlot (c : Ctx) (s : Nat) : Nat := nvmBase + dirField c (if s = 0 then 8 else 12) 4

/-- The package ID that an image's IDENTITY section and SLOT0–2 give (R62). -/
def imagePkg (c : Ctx) (b : Nat) : Nat := c.readNat (sectionAt c b 2) 2 % 2 ^ 15 * 8 + c.dev.boot.slotPin

/-- Does slot `s` pass (R515)? -/
def slotPasses (c : Ctx) (s : Nat) : Bool :=
  let b := imageSlot c s
  !(if s = 0 then c.dev.boot.exclA else c.dev.boot.exclB) &&
  imgField c b 0 4 == 0x46454631 && imgField c b 4 2 == 1 && imgField c b 12 4 ≤ dirField c 16 4 && (checkSignature c b).isSome &&
  sectionsOk c b && [1, 2, 3, 4, 5].all (typeDigestOk c b) &&
  c.readNat (sectionAt c b 2 + 2) 1 % 8 == c.dev.boot.slotPin && imagePkg c b != 0x3FFFF

/-- Install one certificate of the IDENTITY section (R544): the field at `k`, 0 or 1. -/
def certInstall (b k : Nat) (c : Ctx) : Ctx :=
  match findSection c b 2 with
  | none => c
  | some (o, n) =>
    if n < 64 + 288 * (k + 1) then c
    else
      let x := c.read (b + o + 64 + 288 * k) 288
      let ty := certNat x 4 1
      let dst := identityBase c + (if ty = 1 then 2208 else 2496)
      let old := c.read dst 288
      if (ty = 1 || ty = 3) && certValid c ty x && namesDevice c x && x != old &&
          (!certValid c ty old || certSerial old < certSerial x) then
        let c1 := c.write dst x
        { c1 with dev := { c1.dev with sec := { c1.dev.sec with installed := true } } }
      else c

/-- The identity certificate in force, after an installation (R541, R544). -/
def idCertCheck (c : Ctx) : Ctx :=
  let cert := identityCert c
  let ok : Bool := certValid c 1 cert && namesDevice c cert && certKey cert == (c.dev.sec.keyX, c.dev.sec.keyY)
  { c with dev := { c.dev with sec := { c.dev.sec with idCertOk := ok } } }

/-- The registers that stage 2 loads from the accepted slot: identity, header, variant, PLATFORM (R529, R648). -/
def slotLoad (s floor : Nat) (c : Ctx) : Ctx :=
  let b := imageSlot c s
  let p := sectionAt c b 3
  let owner : Bool := imgField c b 20 1 != 0
  let digest := ofBytesBE (c.read (b + 24) 48)
  let c1 := c.updBoot (fun x => { x with
    slot := s, pkg := imagePkg c b, imageVersion := imgField c b 8 4, firmware := imgField c b 16 4
    certValid := variantCertOk c, variant := if variantCertOk c then certVariant (variantCert c) else 2
    startNumber := dirField c 40 4, lockTimeout := c.readNat (p + 44) 4 })
  { c1 with dev := { c1.dev with
    sec := { c1.dev.sec with floor := floor, ownerSigned := owner, ownerDigest := if owner then digest else 0,
                             sections := c.read (b + 128) 2048 }
    stw := { c1.dev.stw with maxGen := bits (c.readNat (p + 41) 1) 0 2, numVfs := min 8 (bits (c.readNat (p + 41) 1) 2 4) } } }

/-- MGMT_FW of the slot at `b` is loaded into both steward management cores, its first 64 KiB into the instruction RAM, the next 32 KiB into
the data RAM (DESIGN CHOICE, log entry 133); one that the list names stops start-up (Table 15-10). Stage 2 ends: the collectors act from
here, their windows empty, the thresholds loaded (R510). -/
def mgmtLoad (b : Nat) (c : Ctx) : Ctx :=
  if (listNow c).any (fun e => e.kind == 4 && (e.index == 2068 || e.index == 2069)) then bootStop 7 c
  else
    let (o, n) := (findSection c b 1).getD (0, 0)
    let fw := c.read (b + o) (min n 0x18000)
    let c1 := forAll [2068, 2069] (fun k a => (a.write (coreRam k) fw).updCore k (fun _ => { load := .loaded })) c
    let c2 := forAll (List.range 5) (fun k a => a.updColl k (fun x => { x with windows := [] })) (c1.updBoot (fun x => { x with armed := true }))
    stageBegin 3 (loadFault b c2)

/-- SELECT_IMAGE: stage 2. -/
def selectImageOp (c : Ctx) : Ctx :=
  if !stageOpen c 2 then c
  else match chooseDir c with
    | none => bootStop 2 c
    | some k =>
      let c1 := clearRecord (c.updBoot (fun b => { b with dirCopy := k }))
      let first := dirField c1 36 1 % 2
      match [first, 1 - first].find? (slotPasses c1) with
      | none => bootStop 3 c1
      | some s =>
        let floor := (checkSignature c1 (imageSlot c1 s)).getD 0
        let c2 := startNumberRise c1
        let c3 := idCertCheck (certInstall (imageSlot c2 s) 1 (certInstall (imageSlot c2 s) 0 c2))
        mgmtLoad (imageSlot c3 s) (slotLoad s floor c3)

/-! ### Stage 3 (R562, R580–R592) -/

/-- An event of a PFC source with its first cause, or the second with an identifier. -/
def pfcEvent (source cause ident : Nat) (c : Ctx) : Ctx :=
  faultEventOp { coll := 4, source := source, causes := [{ cause := cause, unit := 0, ident := ident }] } c

/-- Steward UCIe module `d` trains (R562): rate 2 after up to two failed attempts; rate 1 after three; 0, FATAL, after them. Each attempt
made again is a retry event. -/
def ucieTrain (d : Nat) (t : Nat × Nat) (c : Ctx) : Ctx :=
  let r := min 2 t.1
  let c1 := c.updStw (fun s => { s with ucie := Tab.set s.ucie d r })
  let c2 := forAll (List.range (if r = 2 then min 2 t.2 else 3)) (fun _ a => pfcEvent 9 0 0 a) c1
  if r = 0 then pfcEvent 9 1 d c2 else c2

/-- Do two voltages lie within 20 mV? -/
def near20 (x y : Nat) : Bool := x ≤ y + 20 && y ≤ x + 20

/-- Set and measure core rail `r` (R591, R592); 4 is VDD_CORE_S. -/
def railSet (p r : Nat) (m : RailMeasure) (c : Ctx) : Ctx :=
  if c.dev.boot.stopped || c.dev.safe.safe then c
  else
    let vset := c.readNat (p + 8 * r) 2
    let fails : Bool := 3 ≤ m.failures
    let ok : Bool := !fails && 600 ≤ m.measured && m.measured ≤ 720 && near20 m.measured m.readback && near20 m.measured vset
    let rail : Rail := { vset := vset, measured := if fails then 0 else m.measured, readback := if fails then 0 else m.readback,
                         avsRail := c.readNat (p + 8 * r + 2) 1 % 16, ok := ok }
    let c1 := c.updStw (fun s => { s with rails := Tab.set s.rails r rail })
    let c2 := forAll (List.range (min 3 m.failures)) (fun _ a => pfcEvent 8 0 0 a) c1
    if ok then c2 else bootStop 5 c2

/-- Every PLL locks and the five clocks start together (R582, R584); the governors' windows start (R594). -/
def clocksStart (c : Ctx) : Ctx :=
  let c1 := forAll (List.range 4) (fun d a => a.updDie d (fun x =>
    { x with locked := true, pllLost := false, domainRun := 0x1FFF, stopped := false, preset := 0 })) c
  let c2 := (c1.updStw (fun s => { s with locked := true, domainRun := 0xFF })).updSafe (fun s => { s with pllLost := false })
  { c2 with dev := { c2.dev with gov := [] } }

/-- ROOT_PLL_LOCK: stage 3. After a start that has been through stage 4 since the last cold reset, stage 4 tries the fast path. -/
def rootPllLockOp (rails : List RailMeasure) (ucie : List (Nat × Nat)) (c : Ctx) : Ctx :=
  if !stageOpen c 3 then c
  else
    let c1 := forAll (List.range 4) (fun d a => ucieTrain d (ucie.getD d (0, 0)) a) (clocksStart c)
    let p := sectionAt c (imageSlot c c.dev.boot.slot) 3
    let c2 := forAll [4, 0, 1, 2, 3] (fun r a => railSet p r (rails.getD r { readback := 0, measured := 0, failures := 3 }) a) c1
    if c2.dev.boot.stopped || c2.dev.safe.safe then c2
    else (stageBegin 4 c2).updBoot (fun b => { b with sub := if b.stage4Ever then 0 else 1 })

/-- LOCK_TIMEOUT: a PLL has not locked in its time (R581): 0–3 the dies', 4 the root PLL. -/
def lockTimeoutOp (p : Nat) (c : Ctx) : Ctx :=
  let locked := if p < 4 then (c.die p).locked else c.dev.stw.locked
  if stageOpen c 3 && !locked && decide (c.dev.boot.lockTimeout ≤ c.since c.dev.boot.stageAt) then bootStop 4 c else c

/-! ### Stage 4 (R248, R249, R519, R523, R527, R532) -/

/-- LP_CONFIG of each die from the MEMORY section of the image at `b`. -/
def loadMemory (b : Nat) (c : Ctx) : Ctx :=
  let m := sectionAt c b 4
  forAll (List.range 4) (fun d a =>
    let v := c.readNat (m + 8 * d) 8
    a.updDie d (fun x => { x with rate := bits v 0 3, rateMin := bits v 3 3, zoneGib := bits v 8 12, scrubLog2 := bits v 20 4 })) c

/-- LEVEL of a defect entry (Table 15-12). -/
def defectLevel (kind index : Nat) : Nat :=
  if kind < 3 then 0
  else if kind = 4 then (if index < 2048 then 0 else if index < 2064 then 2 else if index < 2068 then 3 else 4)
  else 3

/-- An entry of the start's own tests: skipped where it is listed, held out with FULL where the area is full (R523, R527). -/
def testEntry (e : Defect) (c : Ctx) : Ctx :=
  if isListed c e then c
  else
    let x := { e with runtime := false, level := defectLevel e.kind e.index, firstSeen := c.dev.boot.startNumber }
    match defectWrite c x with
    | some c1 => c1
    | none => c.updBoot (fun b => { b with full := true, heldOut := b.heldOut ++ [x] })

/-- The rate at which every channel trains, stepping down from `r` at most to `lo` (R248). -/
def rateReach (failing : List Nat) (lo : Nat) : Nat → Nat
  | 0 => 0
  | r + 1 => if r + 1 ≤ lo || failing.all (fun k => decide (r + 1 < k)) then r + 1 else rateReach failing lo r

/-- LPDDR5X holds nothing any more: every line written (Table 15-1, log entry 1). -/
def lpddrZero (c : Ctx) : Ctx :=
  ({ c with dev := { c.dev with
      poison := c.dev.poison.filter (fun a => decide (lpSize ≤ a)), errs := c.dev.errs.filter (fun p => decide (lpSize ≤ p.1))
      cow := { c.dev.cow with pageGen := [] } } }).zero 0 lpSize

/-- LPDDR5X_TRAINING: `present` is the density in GiB each of the 32 devices reports, 0 where it is absent; `failing` the lowest rate code
at which each of the 128 channels fails. -/
def lpddrTrainingOp (present failing : List Nat) (c : Ctx) : Ctx :=
  if !stageOpen c 4 || c.dev.boot.sub ≠ 1 then c
  else
    let c1 := loadMemory (imageSlot c c.dev.boot.slot) c
    let good (dv : Nat) : Bool := present.getD dv 0 == 128
    let limits := (List.range 128).map (fun k => if good (k / 4) then failing.getD k 0 else 0)
    let r := rateReach limits (c1.die 0).rateMin (c1.die 0).rate
    let chOk (k : Nat) : Bool := decide (r < limits.getD k 0)
    let c2 := forAll (List.range 4) (fun d a => a.updDie d (fun x => { x with
      rateReached := r, devices := maskOf 8 (fun k => good (8 * d + k)), chTrained := maskOf 32 (fun k => chOk (32 * d + k))
      trained := (List.range 32).all (fun k => chOk (32 * d + k)) })) c1
    let badDevs := (List.range 32).filter (fun dv => !good dv)
    let badChs := (List.range 128).filter (fun k => good (k / 4) && !chOk k)
    if badDevs.isEmpty && badChs.isEmpty then (lpddrZero c2).updBoot (fun b => { b with sub := 2 })
    else
      let entry (kind k : Nat) : Defect := { kind := kind, level := 3, count := 1, runtime := false, index := k, sub := 0, firstSeen := 0 }
      let c3 := forAll badDevs (fun k a => testEntry (entry 6 k) a) c2
      bootStop 6 (forAll badChs (fun k a => testEntry (entry 5 k) a) c3)

/-- Unit memory and tile registers hold nothing: tested, or zeroed on the fast path (R280, R523, R532). -/
def sramZero (c : Ctx) : Ctx :=
  ((({ c with dev := { c.dev with
      poison := c.dev.poison.filter (fun a => decide (a < lpSize)), errs := c.dev.errs.filter (fun p => decide (p.1 < lpSize)) } }).zero
    (umBase 0) (512 * 2 ^ 26)).zero (trBase 0) (512 * 2 ^ 20))

/-- START_TEST at stage 4: the elements found failing are listed; LPDDR5X lines that failed are poisoned in place (R257, R523). At stage 5
the near-end loopback of every lane of every port in use: a failing lane is listed and held out, and the links train. -/
def startTestOp (found : List Defect) (badLines : List Nat) (c : Ctx) : Ctx :=
  if stageOpen c 4 && c.dev.boot.sub = 2 then
    let c1 := (found.filter (fun e => e.kind != 3)).foldl (fun a e => testEntry e a) (sramZero c)
    let lines := (badLines.filter (fun a => decide (a < lpSize))).map wordBase
    (lines.foldl (fun a b => eccEvent b true (setPoison b a)) c1).updBoot (fun b => { b with sub := 3 })
  else if stageOpen c 5 && c.dev.boot.sub = 1 then
    let lanes := found.filter (fun e => e.kind == 3 && (usedPorts c).contains e.index && decide (e.sub < 4))
    linkStage (applyDefects (lanes.foldl (fun a e => testEntry e a) c))
  else c

/-- The registers of the LINKS and TOPOLOGY sections of the image at `b` (R451, R648). -/
def loadLinks (b : Nat) (c : Ctx) : Ctx :=
  let l := sectionAt c b 6
  let t := sectionAt c b 7
  let cfg (d : Nat) : LinkCfg :=
    let v := c.readNat (l + 24 * d) 8
    { admOn := bit v 0, vcWeight := [1, 2, 3, 4, 5, 6, 7].map (fun k => (k, bits v (4 * k + 4) 4))
      trainTimeout := c.readNat (l + 24 * d + 8) 4, respTimeout := c.readNat (l + 24 * d + 12) 4
      discoveryWindow := c.readNat (l + 24 * d + 16) 4, admitTimeout := c.readNat (l + 24 * d + 20) 4 }
  let port (p : Nat) (x : Port) : Port :=
    let e := t + 16 + 16 * p
    { x with use := c.readNat e 1 % 4, expRate := c.readNat (e + 1) 1 % 4, expLanes := c.readNat (e + 2) 1 % 8
             expLength := c.readNat (e + 3) 1, lengthTol := c.readNat (e + 4) 1, expPkg := c.readNat (e + 8) 4 % 2 ^ 18
             expPort := c.readNat (e + 12) 1 % 64 }
  let c1 := forAll (List.range 36) (fun p a => a.updPort p (port p)) c
  ({ c1 with dev := { c1.dev with linkCfg := (List.range 4).map (fun d => (d, cfg d)) } }).updTopo
    (fun x => { x with maxDown := c.readNat t 1 % 64, maxDegraded := c.readNat (t + 1) 1 % 64 })

/-- Stage 4 is over with image copy `k` in use: the list applied, the registers loaded, stage 5 begun: on the fast path with the links, at
a cold start with the lane loopback (Table 15-1). -/
def stageFourEnd (k : Nat) (fast : Bool) (c : Ctx) : Ctx :=
  let c1 := applyDefects (c.updBoot (fun b => { b with copy := k, fast := fast, stage4Ever := true, sub := 0 }))
  let b := imgBase c1
  let c2 := loadLinks b (loadFault b (loadMemory b c1))
  if fast then linkStage c2 else (stageBegin 5 c2).updBoot (fun x => { x with sub := 1 })

/-- IMAGE_COPY: the slot stands in copy 0 and is checked, or is excluded with a return to stage 2 (R519). -/
def imageCopyOp (c : Ctx) : Ctx :=
  if !stageOpen c 4 || c.dev.boot.sub ≠ 3 then c
  else
    let b := imageSlot c c.dev.boot.slot
    let c1 := store (imageCopy 0) (c.read b (imgField c b 12 4)) c
    if imageOk c1 (imageCopy 0) then stageFourEnd 0 false c1
    else
      stageBegin 2 (c1.updBoot (fun x => { x with
        exclA := x.exclA || x.slot == 0, exclB := x.exclB || x.slot == 1 }))

/-- Is image copy `k` the selected slot's image: header equal byte for byte, no poison, every section digest right (R532)? -/
def copyMatches (c : Ctx) (k : Nat) : Bool :=
  let b := imageSlot c c.dev.boot.slot
  c.read (imageCopy k) 4096 == c.read b 4096 && !poisonAt c (imageCopy k) (imgField c b 12 4) &&
  (List.range (imgSections c b)).all (secDigestOk c (imageCopy k))

/-- FAST_PATH: `selfRefresh` tells whether the devices stayed in self-refresh. Without it, or without an image copy that matches, stage 4
runs as on a cold start (R532). -/
def fastPathOp (selfRefresh : Bool) (c : Ctx) : Ctx :=
  if !stageOpen c 4 || c.dev.boot.sub ≠ 0 then c
  else
    let n := imgField c (imageSlot c c.dev.boot.slot) 12 4
    let c1 := if selfRefresh then eccRead (imageCopy 1) n (eccRead (imageCopy 0) n c) else c
    match (if selfRefresh then [0, 1].find? (copyMatches c1) else none) with
    | none => c1.updBoot (fun b => { b with sub := 1 })
    | some k =>
      let c2 := forAll (List.range 4) (fun d a => a.updDie d (fun x => { x with trained := x.chTrained == 0xFFFFFFFF })) (sramZero c1)
      stageFourEnd k true c2

/-! ### Stage 8 (R508, R525, R406) -/

/-- READY_ASSERT: the list as it stands is in force, its digest shown; READY is asserted and automatic entries start. -/
def readyAssertOp (c : Ctx) : Ctx :=
  if !stageOpen c 8 || c.dev.boot.readyEver then c
  else
    let c1 := applyDefects c
    let c2 := c1.updBoot (fun b => { b with digest := sha384Nat (listEntries c1).flatten, appended := 0, readyEver := true })
    let c3 := forAll (List.range 4) (fun d a => a.updDie d (fun x => { x with epoch := c.dev.epoch })) c2
    autoStart 1 0 (c3.updPins (fun p => { p with ready := true }))

/-! ### The NVM in service (R514) -/

/-- Does the NVM interface refuse a write? -/
def nvmRefused (c : Ctx) (off n : Nat) : Bool :=
  let b := c.dev.boot
  let area := dirField c 20 4
  let size := dirField c 24 4
  let inEmpty : Bool := match firstEmpty c (nvmBase + area) (size / 16) 0 with
    | some i => area + 16 * i ≤ off && off + n ≤ area + 16 * i + 16
    | none => false
  overlaps off n (0x1000 * b.dirCopy) 0x1000 || overlaps off n (imageSlot c b.slot - nvmBase) (dirField c 16 4) ||
  overlaps off n (dirField c 28 4) (dirField c 32 4) || (overlaps off n area size && !inEmpty)

/-- NVM_WRITE by the steward management firmware. A refused one is a protection violation; one that the device fails leaves its bytes
undefined and raises the NVM cause (Table 14-2). The copy in use follows the directory (R512). -/
def nvmWriteOp (off : Nat) (data : List Byte) (ok : Bool) (c : Ctx) : Ctx :=
  if !stwMgmtRuns c || resetHeld c || data = [] then c
  else if nvmRefused c off data.length then violateMgmt 2068 c
  else
    let c1 := if ok then c.write (nvmBase + off) data else nvmEvent (c.undef (nvmBase + off) data.length)
    if off < 0x2000 then
      match chooseDir c1 with
      | some k => c1.updBoot (fun b => { b with dirCopy := k })
      | none => c1
    else c1

/-! ### The commands -/

/-- BOOT_ROM (R538). -/
def execBootRom (straps : List Nat) (slot response : Nat) (s : State) : Host.Outcome State Fault Refusal :=
  perform (.bootRom straps slot response) s (bootRomOp straps slot response)
/-- SELECT_IMAGE (R515). -/
def execSelectImage (s : State) : Host.Outcome State Fault Refusal := perform .selectImage s selectImageOp
/-- ROOT_PLL_LOCK (R582). -/
def execRootPllLock (rails : List RailMeasure) (ucie : List (Nat × Nat)) (s : State) : Host.Outcome State Fault Refusal :=
  perform (.rootPllLock rails ucie) s (rootPllLockOp rails ucie)
/-- LOCK_TIMEOUT (R581). -/
def execLockTimeout (pll : Nat) (s : State) : Host.Outcome State Fault Refusal := perform (.lockTimeout pll) s (lockTimeoutOp pll)
/-- LPDDR5X_TRAINING (R248). -/
def execLpddr5xTraining (present failing : List Nat) (s : State) : Host.Outcome State Fault Refusal :=
  perform (.lpddr5xTraining present failing) s (lpddrTrainingOp present failing)
/-- START_TEST (R523). -/
def execStartTest (found : List Defect) (badLines : List Nat) (s : State) : Host.Outcome State Fault Refusal :=
  perform (.startTest found badLines) s (startTestOp found badLines)
/-- IMAGE_COPY (R519). -/
def execImageCopy (s : State) : Host.Outcome State Fault Refusal := perform .imageCopy s imageCopyOp
/-- FAST_PATH (R532). -/
def execFastPath (selfRefresh : Bool) (s : State) : Host.Outcome State Fault Refusal := perform (.fastPath selfRefresh) s (fastPathOp selfRefresh)
/-- READY_ASSERT (R508). -/
def execReadyAssert (s : State) : Host.Outcome State Fault Refusal := perform .readyAssert s readyAssertOp
/-- NVM_WRITE (R514). -/
def execNvmWrite (offset : Nat) (data : List Byte) (ok : Bool) (s : State) : Host.Outcome State Fault Refusal :=
  perform (.nvmWrite offset data ok) s (nvmWriteOp offset data ok)

end Sys2Proof.Machine
end

