-- ==== Sys2Proof/Machine/Registers.lean ====
section
/-!
DEFINITION. Writes to the registers of the steward and die spaces (Table 17-2, R560, R636, R637, R640–R647), by any master, and the
attestation request (R547–R549).
-/
namespace Sys2Proof.Machine

/-! ### Fields -/

/-- The bytes of a 64-bit register that a write covers, in place, and which they are (R642). -/
structure Half where
  val : Nat
  mask : Nat
  deriving DecidableEq, Repr

/-- A write of `n` bytes whose first byte is byte `b` of the register. -/
def half (b n v : Nat) : Half := { val := v % 2 ^ (8 * n) * 2 ^ (8 * b), mask := (2 ^ (8 * n) - 1) * 2 ^ (8 * b) }

/-- What an RW field of `n` bits at `lo` holds after the write. -/
def Half.rw (h : Half) (lo n old : Nat) : Nat :=
  let m := bits h.mask lo n
  (old &&& (m ^^^ (2 ^ n - 1))) ||| (bits h.val lo n &&& m)

/-- What a WO field is written with; 0 where the write does not cover it. -/
def Half.wo (h : Half) (lo n : Nat) : Nat := bits h.val lo n

/-- A word after the W1C bits of `n` bits at `lo` are cleared. -/
def Half.w1c (h : Half) (lo n : Nat) (w : Word64) : Word64 := w &&& ~~~(BitVec.ofNat 64 (bits h.val lo n * 2 ^ lo))

/-! ### Masters -/

/-- Can the master act: a core that runs, or a PCIe function over a trained link? -/
def masterActs (c : Ctx) : Master → Bool
  | .mgmt i => c.coreRuns (2068 + i)
  | .app i => c.coreRuns (2070 + i) && !(c.core (2070 + i)).faultDue
  | .dieMgmt d => c.coreRuns (2064 + d)
  | .pf => c.dev.stw.width != 0
  | .vf v => c.dev.stw.width != 0 && v ≤ c.dev.stw.numVfs
  | .control core => c.coreRuns core

/-- Answer of a master's access. -/
def masterAnswer (m : Master) (x : Answer) (c : Ctx) : Ctx :=
  match m with
  | .mgmt i => c.answer (2068 + i) x
  | .app i => c.answer (2070 + i) x
  | .dieMgmt d => c.answer (2064 + d) x
  | .control core => c.answer core x
  | .pf | .vf _ => c.updStw (fun s => { s with pcie := x })

/-- A master's access at `a` is refused: a protection violation, or Unsupported Request for a function (R244, R500, R561). -/
def masterRefused (m : Master) (a : Nat) (c : Ctx) : Ctx :=
  let c1 := masterAnswer m { ok := false, value := 0 } c
  match m with
  | .mgmt i => violateMgmt (2068 + i) c1
  | .app i => violateApp i a c1
  | .dieMgmt d => violateMgmt (2064 + d) c1
  | .control core => violateCore core a c1
  | .pf => pcieRefused 0 c1
  | .vf v => pcieRefused v c1

/-! ### Who may write what (Table 17-2, R560, R636, R637) -/

/-- UM_STASH_CLAIM and UM_STASH_RELEASE. -/
def stashReg (reg : Nat) : Bool := reg < 0x80000 && (reg % 4096 == 0x580 || reg % 4096 == 0x584)

/-- The routing tables. -/
def routeReg (reg : Nat) : Bool := 0x121000 ≤ reg && reg < 0x121620

/-- The registers that application cores and the physical function write (R560). -/
def appWritable (reg : Nat) : Bool :=
  reg == 0x40000 || (0x40200 ≤ reg && reg < 0x40280) || reg == 0x40018 || reg == 0x40020 || (0x10080 ≤ reg && reg < 0x100B0) ||
  reg == 0x10008

/-- May the master write the register at its own offset `reg`? -/
def mayWrite (c : Ctx) (m : Master) (sp : Space) (reg : Nat) : Bool :=
  match m, sp with
  | .mgmt _, .steward => true
  | .mgmt _, .die _ => !stashReg reg && !routeReg reg
  | .dieMgmt d, .die e => d == e && !stashReg reg
  | .dieMgmt _, .steward => false
  | .app _, .steward | .pf, .steward => appWritable reg
  | .app _, .die _ | .pf, .die _ => false
  | .vf v, .steward => v ≤ c.dev.stw.numVfs && (reg == 0x401F8 + 8 * v || reg == 0x40238 + 8 * v)
  | .vf _, .die _ => false
  | .control core, .die d => d == dieOfCore core && reg / 4096 == unitOfCore core % 128
  | .control _, .steward => false

/-- May the master read the register: the routing tables only as a management core (R456, R637)? -/
def mayRead (m : Master) (sp : Space) (reg : Nat) : Bool :=
  match sp, m with
  | .die _, .mgmt _ | .die _, .dieMgmt _ => true
  | .die _, _ => !routeReg reg
  | .steward, _ => true

/-! ### Queue pairs (R566–R570) -/

/-- A producer's TAIL: ignored with QERR where it exceeds HEAD by more than the queue holds (R567). -/
def tailWrite (q tail : Nat) (c : Ctx) : Ctx :=
  let p := c.pair q
  if 2 ^ p.log2 < (tail + 2 ^ 32 - p.head) % 2 ^ 32 then c.updPair q (fun x => { x with qerr := true })
  else schedule (c.updPair q (fun x => { x with tail := tail }))

/-- A consumer's READ: ignored with RERR where it would pass WRITE (R569), that is, leave more unread than the ring holds. -/
def readWrite (q v : Nat) (c : Ctx) : Ctx :=
  let p := c.pair q
  if ringSize p < (p.write + 2 ^ 32 - v) % 2 ^ 32 then c.updPair q (fun x => { x with rerr := true })
  else schedule (unblock (c.updPair q (fun x => { x with read := v })))

/-- ENABLE of a pair is cleared: its queue and ring are disabled with work in flight (R419, R570). -/
def pairOff (q : Nat) (c : Ctx) : Ctx :=
  if (c.pair q).enable then schedule (disableFn (.pair q) (c.updPair q (fun x => { x.leave with enable := false }))) else c

/-- ENABLE of a pair is set: QERR and RERR clear, and it is in service again (Table 17-8). -/
def pairOn (q : Nat) (c : Ctx) : Ctx :=
  if (c.pair q).enable then c
  else
    let c1 := c.updPair q (fun x => { x.skip with enable := true, qerr := false, rerr := false })
    schedule (c1.updJob (fun j => { j with drains := j.drains.filter (fun d => d.fn != .pair q), disabled := j.disabled.filter (fun f => f != .pair q) }))

/-- A write to STW_QCFGq. -/
def qcfgWrite (q : Nat) (h : Half) (c : Ctx) : Ctx :=
  let c1 := c.updPair q (fun p =>
    { p with qbase := h.rw 0 25 p.qbase, log2 := h.rw 25 4 p.log2, rbase := h.rw 32 25 p.rbase, rsizeLog2 := h.rw 57 4 p.rsizeLog2 })
  if h.rw 29 1 (b2n (c.pair q).enable) = 1 then pairOn q c1 else pairOff q c1

/-! ### Interrupts (Table 17-10) -/

/-- The supervisor external interrupt of each application core is the level of the enabled pending bits (log entry 30). -/
def irqLevel (c : Ctx) : Ctx :=
  let s := c.dev.stw
  let on : Bool := s.irq &&& s.irqEn != 0
  forAll (List.range 24) (fun i a =>
    let want : Bool := on && bit s.irqCores i
    if (a.core (2070 + i)).mip.getLsbD 9 = want then a
    else a.updCore (2070 + i) (fun k => { k with mip := if want then setBit k.mip 9 else k.mip &&& ~~~(0x200 : Word64) })) c

/-! ### Attestation (R547–R549) -/

/-- The report as the key engine latches it (Table 16-3), unsigned. -/
def reportOf (c : Ctx) : List Byte :=
  let b := c.dev.boot
  let s := c.dev.sec
  let flags := word [(1, b2n b.certValid), (1, b2n s.ownerSigned), (1, b2n c.dev.safe.safe), (1, b2n c.dev.job.running), (1, b2n b.fast)]
  toBytes 4 0x41545331 ++ toBytes 2 1 ++ toBytes 2 0 ++ toBytes 4 b.pkg ++ toBytes 1 b.variant ++ toBytes 1 flags ++
  toBytes 1 c.dev.job.index ++ toBytes 1 0 ++ toBytes 4 c.dev.epoch ++ toBytes 4 b.startNumber ++ toBytes 4 b.imageVersion ++
  toBytes 4 b.firmware ++ (List.range 6).flatMap (fun q => toBytes 8 (Tab.get 0 s.nonce q)) ++ toBytesBE 48 s.deviceId ++
  toBytesBE 48 s.ownerDigest ++ toBytesBE 48 b.digest ++ List.replicate 32 0 ++
    (s.sections ++ List.replicate 2048 0).take 2048

/-- A write to SEC_ATTEST: ADDR, then START with the ADDR in force after the write (R548, R549, R643). -/
def attestWrite (m : Master) (h : Half) (c : Ctx) : Ctx :=
  let s := { c.dev.sec with addr := h.rw 16 48 c.dev.sec.addr }
  if h.wo 0 1 = 1 && !s.busy then
    { c with dev := { c.dev with sec := { s with busy := true, result := 0, report := reportOf c, target := s.addr, asker := some m } } }
  else { c with dev := { c.dev with sec := s } }

/-! ### The effect of a write -/

/-- Steward space: register `reg`, written with `n` bytes from byte `b` of it. -/
def stewardWrite (m : Master) (reg b n v : Nat) (c : Ctx) : Ctx :=
  let h := half b n v
  if reg = 0x18 then bootControlOp v c
  else if reg = 0x10008 then attestWrite m h c
  else if 0x10080 ≤ reg && reg < 0x100B0 then
    let q := (reg - 0x10080) / 8
    { c with dev := { c.dev with sec := { c.dev.sec with nonce := Tab.set c.dev.sec.nonce q (h.rw 0 64 (Tab.get 0 c.dev.sec.nonce q)) } } }
  else if reg = 0x20000 then c.updColl 4 (fun x => { x with status := h.w1c 4 13 x.status })
  else if reg = 0x20008 then c.updColl 4 (fun x => { x with cause := h.w1c 0 8 x.cause })
  else if reg = 0x20020 then c.updColl 4 (fun x => { x with pvValid := x.pvValid && h.wo 3 1 == 0 })
  else if reg = 0x20030 then fcAckOp 4 v c
  else if reg = 0x30008 then clkPresetOp v c
  else if reg = 0x40000 then
    if b = 4 then c.updStw (fun s => { s with mboxCmd := s.mboxCmd % 2 ^ 32 + v % 2 ^ 32 * 2 ^ 32 })
    else mboxWrite (if n = 8 then v else c.dev.stw.mboxCmd / 2 ^ 32 * 2 ^ 32 + v % 2 ^ 32) c
  else if reg = 0x40018 then irqLevel (c.updStw (fun s => { s with irq := ((h.w1c 0 11 (BitVec.ofNat 64 s.irq))).toNat }))
  else if reg = 0x40020 then irqLevel (c.updStw (fun s => { s with irqEn := h.rw 0 11 s.irqEn, irqCores := h.rw 24 24 s.irqCores }))
  else if 0x40100 ≤ reg && reg < 0x40140 then qcfgWrite ((reg - 0x40100) / 8) h c
  else if 0x40200 ≤ reg && reg < 0x40240 then if b = 4 then c else tailWrite ((reg - 0x40200) / 8) (v % 2 ^ 32) c
  else if 0x40240 ≤ reg && reg < 0x40280 then if b = 4 then c else readWrite ((reg - 0x40240) / 8) (v % 2 ^ 32) c
  else if 0x40300 ≤ reg && reg < 0x40340 then
    let k := (reg - 0x40300) / 8 + 1
    c.updStw (fun s =>
      let w := Tab.get (0, 0) s.vfwin k
      { s with vfwin := Tab.set s.vfwin k (h.rw 0 32 w.1, h.rw 32 20 w.2) })
  else c

/-- The space of die `d`. Writes to unit blocks of a die in partial reset are ignored (R647). -/
def dieWrite (m : Master) (d reg b n v : Nat) (c : Ctx) : Ctx :=
  let h := half b n v
  if reg < 0x80000 then
    if (c.die d).preset ≠ 0 then c
    else match m, reg % 4096 with
      | .control core, 0x580 => stashClaim core v c
      | .control core, 0x584 => stashRelease core v c
      | _, r => unitRegWrite (128 * d + reg / 4096) r b n v c
  else if reg = 0x100000 then c.updColl d (fun x => { x with status := h.w1c 0 48 x.status })
  else if reg = 0x100008 then c.updColl d (fun x => { x with cause := h.w1c 0 36 x.cause })
  else if reg = 0x100010 then c.updColl d (fun x => { x with causeLnk := h.w1c 0 45 x.causeLnk })
  else if reg = 0x100020 then c.updColl d (fun x => { x with pvValid := x.pvValid && h.wo 3 1 == 0 })
  else if reg = 0x100030 then fcAckOp d v c
  else if 0x100100 ≤ reg && reg < 0x100180 then
    let k := (reg - 0x100100) / 8
    c.updColl d (fun x => { x with clerr := Tab.set x.clerr k (h.w1c 0 58 (Tab.get 0 x.clerr k)) })
  else if routeReg reg then
    let x := c.linkCfg d
    let y : LinkCfg := { x with routes := Tab.set x.routes ((reg - 0x121000) / 4) (v % 2 ^ 32) }
    { c with dev := { c.dev with linkCfg := Tab.set c.dev.linkCfg d y } }
  else if reg = 0x140008 then clkUresetOp d (v % 2 ^ 32) c
  else if reg = 0x150030 then if h.wo 0 1 = 1 then jobRestoreCheckOp c else c
  else c

/-- A write of `n` bytes by a master at offset `off` of a space (R560, R640, R642): refused where no register takes the access or the
master may not write it; `a` is the address a refusal records. -/
def spaceWrite (m : Master) (sp : Space) (off n v a : Nat) (c : Ctx) : Ctx :=
  match regFind c sp off n with
  | none => masterRefused m a c
  | some (reg, _, _, b) =>
    if !mayWrite c m sp reg then masterRefused m a c
    else
      let c1 := masterAnswer m {} c
      match sp with
      | .steward => stewardWrite m reg b n v c1
      | .die d => dieWrite m d reg b n v c1

/-- REGISTER_WRITE: a master's write at a package address in a register space. -/
def registerWriteOp (m : Master) (a n v : Nat) (c : Ctx) : Ctx :=
  if !masterActs c m then c
  else match place a with
    | .stewardReg off => spaceWrite m .steward off n v a c
    | .dieReg d off => spaceWrite m (.die d) off n v a c
    | _ => c

/-- STW_QPTR_TAIL: a 32-bit write of TAIL (R567). -/
def stwQptrTailOp (m : Master) (q tail : Nat) (c : Ctx) : Ctx := registerWriteOp m (0xF00000040200 + 8 * q) 4 tail c

/-- STW_RPTR_READ: a 32-bit write of READ (R569). -/
def stwRptrReadOp (m : Master) (q v : Nat) (c : Ctx) : Ctx := registerWriteOp m (0xF00000040240 + 8 * q) 4 v c

/-- SEC_ATTEST_START: a 64-bit write of SEC_ATTEST (R548). -/
def secAttestStartOp (m : Master) (v : Nat) (c : Ctx) : Ctx := registerWriteOp m 0xF00000010008 8 v c

/-- PAIR_DISABLE, PAIR_ENABLE: management firmware writes ENABLE (R566, R570). -/
def pairDisableOp (q : Nat) (c : Ctx) : Ctx := if stwMgmtRuns c then pairOff q c else c
def pairEnableOp (q : Nat) (c : Ctx) : Ctx := if stwMgmtRuns c then pairOn q c else c

/-! ### The commands -/

/-- REGISTER_WRITE (R16). -/
def execRegisterWrite (m : Master) (addr size value : Nat) (s : State) : Host.Outcome State Fault Refusal :=
  perform (.registerWrite m addr size value) s (registerWriteOp m addr size value)
/-- STW_QPTR_TAIL (R567). -/
def execStwQptrTail (m : Master) (q tail : Nat) (s : State) : Host.Outcome State Fault Refusal :=
  perform (.stwQptrTail m q tail) s (stwQptrTailOp m q tail)
/-- STW_RPTR_READ (R569). -/
def execStwRptrRead (m : Master) (q value : Nat) (s : State) : Host.Outcome State Fault Refusal :=
  perform (.stwRptrRead m q value) s (stwRptrReadOp m q value)
/-- SEC_ATTEST_START (R548). -/
def execSecAttestStart (m : Master) (value : Nat) (s : State) : Host.Outcome State Fault Refusal :=
  perform (.secAttestStart m value) s (secAttestStartOp m value)
/-- PAIR_DISABLE (R570). -/
def execPairDisable (q : Nat) (s : State) : Host.Outcome State Fault Refusal := perform (.pairDisable q) s (pairDisableOp q)
/-- PAIR_ENABLE (R566). -/
def execPairEnable (q : Nat) (s : State) : Host.Outcome State Fault Refusal := perform (.pairEnable q) s (pairEnableOp q)

end Sys2Proof.Machine
end

