-- ==== Sys2Proof/Machine/Steward.lean ====
section
/-!
DEFINITION. The steward die and its host (chapter 17): accesses of the steward and die management cores and of the PCIe functions, the
function's disables, the management bridge (R576, R646), the test port (R578), and the end of an attestation (R549).
-/
namespace Sys2Proof.Machine

/-! ### Rights to memory (R245, R264, R278, R518, Table 17-2) -/

/-- A steward application core, or the physical function for it, may reach LPDDR5X here. -/
def appLpddr (c : Ctx) (write : Bool) (a n : Nat) : Bool :=
  a + n ≤ lpSize && !touchesCopies a n &&
  (!c.dev.job.running || inAreas c (fun x => x.host && (!write || (x.write && !x.staging))) a n)

/-- Does the whole access lie in the queue RAM? -/
def inQueueRam (a n : Nat) : Bool := queueRam ≤ a && a + n ≤ queueRam + queueRamSize

/-- Memory that application core `i` reaches. -/
def appMemory (c : Ctx) (i : Nat) (write : Bool) (a n : Nat) : Bool :=
  appLpddr c write a n || inQueueRam a n || (bootWindow i ≤ a && a + n ≤ bootWindow (i + 1))

/-- Memory that management core `core` reaches: the whole map but seedbed regions, the tile registers of a running DISTILL job, the
windows of retired units, and for a die management core boot windows and writes to the image copies. -/
def mgmtMemory (c : Ctx) (core : Nat) (write : Bool) (a n : Nat) : Bool :=
  let steward : Bool := 2068 ≤ core
  (a + n ≤ lpSize && (steward || !write || !touchesCopies a n)) || inQueueRam a n ||
  (steward && bootWindow 0 ≤ a && a + n ≤ bootWindow 24) ||
  (match place a, place (a + n - 1) with
   | .um u _, .um v _ => u == v && !(c.unit u).retired && !overlaps a n (seedbed c u).1 (seedbed c u).2
   | .tr u _, .tr v _ => u == v && !(c.unit u).retired && !(c.dev.job.running && c.dev.job.kind == 0)
   | _, _ => false)

/-! ### Core accesses (R557) -/

/-- Cause of an access fault: instruction, load, store. -/
def accessFault : Access → Nat
  | .fetch => 1 | .load => 5 | .store => 7

/-- An access to memory that the core reaches. A write to a protected page, and any access to a window that its die's return from a
partial reset holds, waits: the core tries again (R267, R602). Poison is a fault without data (R557). -/
def coreMemory (core : Nat) (kind : Access) (a n value rd : Nat) (signed : Bool) (c : Ctx) : Ctx :=
  if windowHeld c a then c
  else match kind with
  | .store =>
    if (firstProtected c a n).isSome then cowWait a [] c else (store a (toBytes n value) c).answer core {}
  | _ =>
    let c1 := eccRead a n c
    if poisonAt c1 a n then trapEnter core (accessFault kind) a (c1.answer core { ok := false, value := 0 })
    else if kind == .fetch then c1.answer core { ok := true, value := c1.readNat a n }
    else deliver core rd n (c1.readNat a n) signed c1

/-- An access to a register space: a read has no side effect (R560). -/
def coreRegister (m : Master) (core : Nat) (sp : Space) (off : Nat) (kind : Access) (a n value rd : Nat) (signed : Bool) (c : Ctx) : Ctx :=
  match kind with
  | .store => spaceWrite m sp off n value a c
  | .fetch => masterRefused m a c
  | .load => match (if mayRead m sp off then regRead c sp off n else none) with
    | some v => deliver core rd n v signed c
    | none => masterRefused m a c

/-- An access of a steward or die management core, `may` telling which memory it reaches. -/
def coreAccess (m : Master) (may : Bool → Bool) (core : Nat) (kind : Access) (a n value rd : Nat) (signed : Bool) (c : Ctx) : Ctx :=
  if kind != .fetch && a % n ≠ 0 && Config.misalignedTraps then
    trapEnter core (if kind == .store then 6 else 4) a (c.answer core { ok := false, value := 0 })
  else match place a with
    | .stewardReg off => coreRegister m core .steward off kind a n value rd signed c
    | .dieReg d off => coreRegister m core (.die d) off kind a n value rd signed c
    | _ => if may (kind == .store) then coreMemory core kind a n value rd signed c else masterRefused m a c

/-- STEWARD_CORE_ACCESS. A released core first takes the access fault of the instruction it was held at (Table 14-6). -/
def stewardCoreAccessOp (core : Nat) (kind : Access) (a n value rd : Nat) (signed : Bool) (c : Ctx) : Ctx :=
  if !c.coreRuns core then c
  else if (c.core core).faultDue then
    trapEnter core (accessFault kind) a ((c.updCore core (fun k => { k with faultDue := false })).answer core { ok := false, value := 0 })
  else coreAccess (.app (core - 2070)) (fun w => appMemory c (core - 2070) w a n) core kind a n value rd signed c

/-- MGMT_CORE_ACCESS. -/
def mgmtCoreAccessOp (core : Nat) (kind : Access) (a n value rd : Nat) (signed : Bool) (c : Ctx) : Ctx :=
  if !c.coreRuns core then c
  else coreAccess (if core < 2068 then .dieMgmt (core - 2064) else .mgmt (core - 2068)) (fun w => mgmtMemory c core w a n)
    core kind a n value rd signed c

/-! ### PCIe (R571–R575) -/

/-- Class code of the physical function and the Device ID of function `f`, by the variant in force (R571). -/
def pcieClass : Nat := 0x120000
def pcieDeviceId (c : Ctx) (f : Nat) : Nat :=
  if f ≠ 0 then 0x96F0 else match c.dev.boot.variant with | 0 => 0x9600 | 1 => 0x8400 | _ => 0x7200

/-- Function `f` as a master. -/
def pcieMaster (f : Nat) : Master := if f = 0 then .pf else .vf f

/-- A read completes with its data, or with a value the spec does not state and the EP bit where it carries poison (R574). -/
def pcieRead (a n : Nat) (c : Ctx) : Ctx :=
  let c1 := eccRead a n c
  if poisonAt c1 a n then
    let (k, c2) := c1.draw 1
    c2.updStw (fun s => { s with pcie := { ok := true, value := Config.freeNat k % 2 ^ (8 * n), ep := true } })
  else c1.updStw (fun s => { s with pcie := { ok := true, value := c1.readNat a n } })

/-- An access of function `f` to memory at package address `a`. -/
def pcieMemory (a n : Nat) (write : Bool) (v : Nat) (c : Ctx) : Ctx :=
  if !write then pcieRead a n c
  else if (firstProtected c a n).isSome then cowWait a [] c
  else (store a (toBytes n v) c).updStw (fun s => { s with pcie := {} })

/-- A register access of function `f` at offset `off` of a space. -/
def pcieRegister (f : Nat) (sp : Space) (off n : Nat) (write : Bool) (v : Nat) (c : Ctx) : Ctx :=
  let m := pcieMaster f
  if write then spaceWrite m sp off n v off c
  else match (if mayRead m sp off then regRead c sp off n else none) with
    | some x => c.updStw (fun s => { s with pcie := { ok := true, value := x } })
    | none => masterRefused m off c

/-- The register behind an offset of a function's BAR0 (R645). -/
def bar0 (f off : Nat) : Option (Space × Nat) :=
  if f = 0 then
    if off < 0x1000000 then some (.steward, off)
    else if off < 0x5000000 then some (.die (off / 0x1000000 - 1), off % 0x1000000)
    else none
  else if off < 8 then some (.steward, 0x401F8 + 8 * f + off)
  else if off < 16 then some (.steward, 0x40230 + 8 * f + off)
  else none

/-- May function `f` reach [off, off + n) of the queue RAM: all of it, or its pair's queue and ring? -/
def bar4Ok (c : Ctx) (f off n : Nat) : Bool :=
  if f = 0 then off + n ≤ queueRamSize
  else
    let p := c.pair (f - 1)
    off + n ≤ queueRamSize &&
    ((p.qbase ≤ off && off + n ≤ p.qbase + 64 * 2 ^ p.log2) || (p.rbase ≤ off && off + n ≤ p.rbase + ringSize p))

/-- The LPDDR5X address behind an offset of BAR2: the whole space, or the function's window. -/
def bar2 (c : Ctx) (f off n : Nat) : Option Nat :=
  if f = 0 then some off
  else
    let w := Tab.get (0, 0) c.dev.stw.vfwin f
    if off + n ≤ w.2 * 65536 then some (w.1 * 65536 + off) else none

/-- PCIE_ACCESS (Table 17-5, R561, R572). -/
def pcieAccessOp (f bar off n : Nat) (write : Bool) (v : Nat) (c : Ctx) : Ctx :=
  let m := pcieMaster f
  if !masterActs c m then c
  else if bar = 0 then
    match bar0 f off with
    | some (sp, o) => pcieRegister f sp o n write v c
    | none => masterRefused m off c
  else if bar = 4 then
    if bar4Ok c f off n then pcieMemory (queueRam + off) n write v c else masterRefused m off c
  else match bar2 c f off n with
    | some a => if appLpddr c write a n then pcieMemory a n write v c else masterRefused m off c
    | none => masterRefused m off c

/-- Is the function there: the physical one, or a virtual one the image offers? -/
def functionThere (c : Ctx) (f : Nat) : Bool := f ≤ c.dev.stw.numVfs

/-- PCIE_FLR: the function is disabled with its pairs and its host moves (R574). -/
def pcieFlrOp (f : Nat) (c : Ctx) : Ctx := if functionThere c f then schedule (functionDisable f c) else c

/-- SRIOV_DISABLE: one virtual function, or all with SR-IOV itself (R574). -/
def sriovDisableOp (vf : Option Nat) (c : Ctx) : Ctx :=
  match vf with
  | some v => if functionThere c v then schedule (functionDisable v c) else c
  | none => schedule (forAll ((List.range c.dev.stw.numVfs).map (fun i => i + 1)) functionDisable c)

/-- BUS_MASTER_DISABLE: blocks that lie in T2 host, or move there, are lost with their requests (R275, R575). -/
def busMasterDisableOp (c : Ctx) : Ctx :=
  if !c.dev.stw.busMaster then c
  else
    let c1 := c.updStw (fun s => { s with busMaster := false })
    if c1.srv.t2Form = 0 then schedule (failAll (fun r => r.tier == 2 || r.moving == some 2) 0x20 c1) else c1

/-- BUS_MASTER_ENABLE: the physical function may act on the host again (R575). -/
def busMasterEnableOp (c : Ctx) : Ctx :=
  schedule ((c.updStw (fun s => { s with busMaster := true })).updJob (fun j => { j with disabled := j.disabled.filter (fun f => f != .pcie 0) }))

/-- PCIE_LINK_TRAINED: a generation up to the cap, and a width (R571). -/
def pcieLinkTrainedOp (gen width : Nat) (c : Ctx) : Ctx :=
  if resetHeld c || c.dev.stw.maxGen < gen || width = 0 then c else c.updStw (fun s => { s with gen := gen, width := width })

/-! ### The management bridge (R576, R646) -/

/-- Does the bridge answer: from stage 1 onward? -/
def bridgeRuns (c : Ctx) : Bool := decide (1 ≤ c.dev.boot.stage) && !resetHeld c

/-- I3C_ADDRESS_WRITE. -/
def i3cAddressWriteOp (v : Nat) (c : Ctx) : Ctx := if bridgeRuns c then c.updStw (fun s => { s with bridgeAddr := v }) else c

/-- What the bridge reads at an address: all ones where no 64-bit register stands, or the die's network has not trained. -/
def bridgeValue (c : Ctx) (a : Nat) : Nat :=
  let v := match place a with
    | .stewardReg off => regRead c .steward off 8
    | .dieReg d off => if Tab.get 0 c.dev.stw.ucie d = 0 then none else regRead c (.die d) off 8
    | _ => none
  v.getD (2 ^ 64 - 1)

/-- I3C_BRIDGE_READ: the register, and the address eight bytes on. -/
def i3cBridgeReadOp (c : Ctx) : Ctx :=
  if bridgeRuns c then
    c.updStw (fun s => { s with bridge := { ok := true, value := bridgeValue c s.bridgeAddr }, bridgeAddr := (s.bridgeAddr + 8) % 2 ^ 64 })
  else c

/-! ### The test port (R578) -/

/-- Does EXTEST take effect: its instruction stands and COLD_RST_N is low? -/
def extestOn (c : Ctx) : Bool := c.dev.stw.jtagInstr == 3 && c.dev.pins.coldRst

/-- BYPASS: its one-bit register captures 0. -/
def bypassOp (c : Ctx) : Ctx := c.updStw (fun s => { s with jtagInstr := 0, jtagOut := 0 })

/-- IDCODE: version, device number of the variant in force, maker, and bit 0 set. Before a variant is in force the number is not stated. -/
def idcodeOp (c : Ctx) : Ctx :=
  let (k, c1) := c.draw (if c.dev.boot.armed then 0 else 1)
  let part := if c.dev.boot.armed then pcieDeviceId c 0 else Config.freeNat k
  c1.updStw (fun s => { s with jtagInstr := 1, jtagOut := word [(1, 1), (11, Config.jtagMaker), (16, part), (4, Config.jtagVersion)] })

/-- SAMPLE_PRELOAD: the boundary register captures the lands; its length and order are not stated. -/
def samplePreloadOp (c : Ctx) : Ctx :=
  let (k, c1) := c.draw 1
  c1.updStw (fun s => { s with jtagInstr := 2, bsr := Config.freeNat k, jtagOut := Config.freeNat k })

/-- EXTEST: effective only while COLD_RST_N is low, else it acts as BYPASS. -/
def extestOp (c : Ctx) : Ctx :=
  c.updStw (fun s => { s with jtagInstr := if c.dev.pins.coldRst then 3 else 0, jtagOut := if c.dev.pins.coldRst then s.bsr else 0 })

/-! ### The end of an attestation (R547, R549) -/

/-- May the master that asked write the report? -/
def reportOk (c : Ctx) (m : Master) (a n : Nat) : Bool :=
  match m with
  | .mgmt i => mgmtMemory c (2068 + i) true a n
  | .dieMgmt d => mgmtMemory c (2064 + d) true a n
  | .app i => appMemory c i true a n
  | .pf => appLpddr c true a n || inQueueRam a n
  | _ => false

/-- ATTESTATION_COMPLETE: the signed report is written with the rights of the master that asked, or refused, and BUSY clears. -/
def attestationCompleteOp (c : Ctx) : Ctx :=
  let s := c.dev.sec
  let done (r : Nat) (a : Ctx) : Ctx :=
    { a with dev := { a.dev with sec := { a.dev.sec with busy := false, result := r, report := [], asker := none } } }
  match s.busy, s.asker with
  | true, some m =>
    if !s.pufOk then done 3 c
    else if !reportOk c m s.target 2400 then done 2 (masterRefused m s.target c)
    else if windowHeld c s.target || (firstProtected c s.target 2400).isSome then cowWait s.target [] c
    else
      let (r, x) := deviceSign c (sha384Nat s.report)
      done 1 (store s.target (s.report ++ toBytesBE 48 r ++ toBytesBE 48 x) c)
  | _, _ => c

/-! ### What the outputs drive (Table 19-6, R620, R621) -/

/-- An output land: released to its board resistor, or driven. -/
inductive Drive where
  | released | low | high
  deriving DecidableEq, Repr

/-- What the link transmitters do: electrical idle, VC0 only, training or in service (Tables 12-4, 12-6, R430, R447, R509). -/
inductive LinkDrive where
  | idle | vc0 | service
  deriving DecidableEq, Repr

/-- The states of Table 19-6. -/
structure Outputs where
  ready : Drive
  alertN : Drive
  safeN : Drive
  thermtripN : Drive
  links : LinkDrive
  deriving DecidableEq, Repr

/-- An open-drain output: low while asserted. -/
def openDrain (asserted : Bool) : Drive := if asserted then .low else .released

/-- The state of the outputs: a condition higher in the table governs. -/
def outputs (c : Ctx) : Outputs :=
  let p := c.dev.pins
  let trip : Drive := openDrain p.thermtrip
  if !p.pwrGood then { ready := .released, alertN := .released, safeN := .released, thermtripN := .released, links := .idle }
  else if p.coldRst || p.warmRst then { ready := .released, alertN := .released, safeN := .released, thermtripN := trip, links := .idle }
  else if c.dev.safe.safe then { ready := .low, alertN := .low, safeN := .low, thermtripN := trip, links := .service }
  else if c.dev.boot.stopped then { ready := .low, alertN := .low, safeN := .released, thermtripN := trip, links := .vc0 }
  else
    { ready := if p.ready then .high else .low, alertN := openDrain p.alert, safeN := .released, thermtripN := trip, links := .service }

/-! ### The commands -/

/-- STEWARD_CORE_ACCESS (R245). -/
def execStewardCoreAccess (core : Nat) (kind : Access) (addr size value rd : Nat) (signed : Bool) (s : State) :
    Host.Outcome State Fault Refusal :=
  perform (.stewardCoreAccess core kind addr size value rd signed) s (stewardCoreAccessOp core kind addr size value rd signed)
/-- MGMT_CORE_ACCESS (R245). -/
def execMgmtCoreAccess (core : Nat) (kind : Access) (addr size value rd : Nat) (signed : Bool) (s : State) :
    Host.Outcome State Fault Refusal :=
  perform (.mgmtCoreAccess core kind addr size value rd signed) s (mgmtCoreAccessOp core kind addr size value rd signed)
/-- PCIE_ACCESS (R572). -/
def execPcieAccess (f bar offset size : Nat) (write : Bool) (value : Nat) (s : State) : Host.Outcome State Fault Refusal :=
  perform (.pcieAccess f bar offset size write value) s (pcieAccessOp f bar offset size write value)
/-- PCIE_FLR (R574). -/
def execPcieFlr (f : Nat) (s : State) : Host.Outcome State Fault Refusal := perform (.pcieFlr f) s (pcieFlrOp f)
/-- SRIOV_DISABLE (R574). -/
def execSriovDisable (vf : Option Nat) (s : State) : Host.Outcome State Fault Refusal := perform (.sriovDisable vf) s (sriovDisableOp vf)
/-- BUS_MASTER_DISABLE (R575). -/
def execBusMasterDisable (s : State) : Host.Outcome State Fault Refusal := perform .busMasterDisable s busMasterDisableOp
/-- BUS_MASTER_ENABLE (R575). -/
def execBusMasterEnable (s : State) : Host.Outcome State Fault Refusal := perform .busMasterEnable s busMasterEnableOp
/-- PCIE_LINK_TRAINED (R571). -/
def execPcieLinkTrained (gen width : Nat) (s : State) : Host.Outcome State Fault Refusal :=
  perform (.pcieLinkTrained gen width) s (pcieLinkTrainedOp gen width)
/-- I3C_ADDRESS_WRITE (R646). -/
def execI3cAddressWrite (value : Nat) (s : State) : Host.Outcome State Fault Refusal :=
  perform (.i3cAddressWrite value) s (i3cAddressWriteOp value)
/-- I3C_BRIDGE_READ (R576). -/
def execI3cBridgeRead (s : State) : Host.Outcome State Fault Refusal := perform .i3cBridgeRead s i3cBridgeReadOp
/-- BYPASS (R578). -/
def execBypass (s : State) : Host.Outcome State Fault Refusal := perform .bypass s bypassOp
/-- IDCODE (R578). -/
def execIdcode (s : State) : Host.Outcome State Fault Refusal := perform .idcode s idcodeOp
/-- SAMPLE_PRELOAD (R578). -/
def execSamplePreload (s : State) : Host.Outcome State Fault Refusal := perform .samplePreload s samplePreloadOp
/-- EXTEST (R578). -/
def execExtest (s : State) : Host.Outcome State Fault Refusal := perform .extest s extestOp
/-- ATTESTATION_COMPLETE (R549). -/
def execAttestationComplete (s : State) : Host.Outcome State Fault Refusal := perform .attestationComplete s attestationCompleteOp

end Sys2Proof.Machine
end

