-- ==== Sys2Proof/Machine/Dispatch.lean ====
section
/-!
DEFINITION. What each command does, one arm per constructor, each one direct call of its meaning.
-/
namespace Sys2Proof.Machine

/-- The effect of a command on everything but the queue. -/
def exec (i : Instr) (s : State) : Host.Outcome State Fault Refusal :=
  match i with
  | .uqPush core rd rs1 rs2 => Sys2Proof.Machine.execUqPush core rd rs1 rs2 s
  | .uqPushnb core rd rs1 rs2 => Sys2Proof.Machine.execUqPushnb core rd rs1 rs2 s
  | .pushAccept core => Sys2Proof.Machine.execPushAccept core s
  | .uqWait core rd rs1 rs2 => Sys2Proof.Machine.execUqWait core rd rs1 rs2 s
  | .waitSatisfied core => Sys2Proof.Machine.execWaitSatisfied core s
  | .uqEvt core rd rs1 => Sys2Proof.Machine.execUqEvt core rd rs1 s
  | .uqSig core rs1 rs2 => Sys2Proof.Machine.execUqSig core rs1 rs2 s
  | .uqEvclr core rs1 => Sys2Proof.Machine.execUqEvclr core rs1 s
  | .uqQstat core rd rs1 => Sys2Proof.Machine.execUqQstat core rd rs1 s
  | .illegalInstruction core word => Sys2Proof.Machine.execIllegalInstruction core word s
  | .controlCoreAccess core kind addr size value rd signed => Sys2Proof.Machine.execControlCoreAccess core kind addr size value rd signed s
  | .meLoad u => Sys2Proof.Machine.execMeLoad u s
  | .meLoadComplete u => Sys2Proof.Machine.execMeLoadComplete u s
  | .meStream u => Sys2Proof.Machine.execMeStream u s
  | .meStreamRowEntry u => Sys2Proof.Machine.execMeStreamRowEntry u s
  | .meOutputRowWrite u => Sys2Proof.Machine.execMeOutputRowWrite u s
  | .meStreamComplete u => Sys2Proof.Machine.execMeStreamComplete u s
  | .meDrain u => Sys2Proof.Machine.execMeDrain u s
  | .meDrainComplete u => Sys2Proof.Machine.execMeDrainComplete u s
  | .meFence u => Sys2Proof.Machine.execMeFence u s
  | .meFenceComplete u => Sys2Proof.Machine.execMeFenceComplete u s
  | .ringRowConsume u t => Sys2Proof.Machine.execRingRowConsume u t s
  | .completionRecordWrite u q => Sys2Proof.Machine.execCompletionRecordWrite u q s
  | .veChain u => Sys2Proof.Machine.execVeChain u s
  | .veChainComplete u => Sys2Proof.Machine.execVeChainComplete u s
  | .veWinnow u => Sys2Proof.Machine.execVeWinnow u s
  | .veWinnowComplete u => Sys2Proof.Machine.execVeWinnowComplete u s
  | .veFence u => Sys2Proof.Machine.execVeFence u s
  | .veFenceComplete u => Sys2Proof.Machine.execVeFenceComplete u s
  | .dmaCopy u => Sys2Proof.Machine.execDmaCopy u s
  | .dmaChunk cluster => Sys2Proof.Machine.execDmaChunk cluster s
  | .dmaCopyComplete u => Sys2Proof.Machine.execDmaCopyComplete u s
  | .dmaFence u => Sys2Proof.Machine.execDmaFence u s
  | .dmaFenceComplete u => Sys2Proof.Machine.execDmaFenceComplete u s
  | .remoteAccessRequest port src addr len write data poison => Sys2Proof.Machine.execRemoteAccessRequest port src addr len write data poison s
  | .remoteResponse u refused data poison => Sys2Proof.Machine.execRemoteResponse u refused data poison s
  | .respTimeout u => Sys2Proof.Machine.execRespTimeout u s
  | .umStashClaim core value => Sys2Proof.Machine.execUmStashClaim core value s
  | .umStashRelease core value => Sys2Proof.Machine.execUmStashRelease core value s
  | .umPatrolScrub u => Sys2Proof.Machine.execUmPatrolScrub u s
  | .lpPatrolScrub ch => Sys2Proof.Machine.execLpPatrolScrub ch s
  | .scrubStarvation u => Sys2Proof.Machine.execScrubStarvation u s
  | .cowFirstWrite addr data => Sys2Proof.Machine.execCowFirstWrite addr data s
  | .cowPageCopied page => Sys2Proof.Machine.execCowPageCopied page s
  | .sheafPageSend => Sys2Proof.Machine.execSheafPageSend s
  | .tierMoveComplete req move => Sys2Proof.Machine.execTierMoveComplete req move s
  | .t2FreeRequest owner block => Sys2Proof.Machine.execT2FreeRequest owner block s
  | .ttlExpiry req => Sys2Proof.Machine.execTtlExpiry req s
  | .furReduce d c => Sys2Proof.Machine.execFurReduce d c s
  | .furScale d c => Sys2Proof.Machine.execFurScale d c s
  | .furCommit d c => Sys2Proof.Machine.execFurCommit d c s
  | .furLoop d c => Sys2Proof.Machine.execFurLoop d c s
  | .furHeader d c hdr => Sys2Proof.Machine.execFurHeader d c hdr s
  | .headlandAdd d c w => Sys2Proof.Machine.execHeadlandAdd d c w s
  | .furSummaryExchange d c others => Sys2Proof.Machine.execFurSummaryExchange d c others s
  | .furPeerAbort d c => Sys2Proof.Machine.execFurPeerAbort d c s
  | .furTimeout d c => Sys2Proof.Machine.execFurTimeout d c s
  | .furChannelDisable d c => Sys2Proof.Machine.execFurChannelDisable d c s
  | .submit src record => Sys2Proof.Machine.execSubmit src record s
  | .cancel src record => Sys2Proof.Machine.execCancel src record s
  | .input src record => Sys2Proof.Machine.execInput src record s
  | .endTurn src record => Sys2Proof.Machine.execEndTurn src record s
  | .quota src record => Sys2Proof.Machine.execQuota src record s
  | .variantDisable src record => Sys2Proof.Machine.execVariantDisable src record s
  | .buildStep => Sys2Proof.Machine.execBuildStep s
  | .stepCommit results failed => Sys2Proof.Machine.execStepCommit results failed s
  | .srvOverrun => Sys2Proof.Machine.execSrvOverrun s
  | .pauseIdle req => Sys2Proof.Machine.execPauseIdle req s
  | .reclaimLate h => Sys2Proof.Machine.execReclaimLate h s
  | .reserve pkg r => Sys2Proof.Machine.execReserve pkg r s
  | .grant req => Sys2Proof.Machine.execGrant req s
  | .defer req => Sys2Proof.Machine.execDefer req s
  | .retryCycles req => Sys2Proof.Machine.execRetryCycles req s
  | .transfer t => Sys2Proof.Machine.execTransfer t s
  | .transferAcknowledge req => Sys2Proof.Machine.execTransferAcknowledge req s
  | .handoffTimeout req => Sys2Proof.Machine.execHandoffTimeout req s
  | .abandon req => Sys2Proof.Machine.execAbandon req s
  | .mboxStart => Sys2Proof.Machine.execMboxStart s
  | .mboxStop => Sys2Proof.Machine.execMboxStop s
  | .mboxQuota => Sys2Proof.Machine.execMboxQuota s
  | .jobRelease => Sys2Proof.Machine.execJobRelease s
  | .timeLimit => Sys2Proof.Machine.execTimeLimit s
  | .jobStalled => Sys2Proof.Machine.execJobStalled s
  | .jobDrainComplete => Sys2Proof.Machine.execJobDrainComplete s
  | .jobDrainLimit => Sys2Proof.Machine.execJobDrainLimit s
  | .jobEndReport => Sys2Proof.Machine.execJobEndReport s
  | .disableDrainLimit fn => Sys2Proof.Machine.execDisableDrainLimit fn s
  | .flitSend p own => Sys2Proof.Machine.execFlitSend p own s
  | .dataFlitReceive p raw fecGood => Sys2Proof.Machine.execDataFlitReceive p raw fecGood s
  | .nullFlit p w => Sys2Proof.Machine.execNullFlit p w s
  | .nak p w => Sys2Proof.Machine.execNak p w s
  | .linkSignalDetect p => Sys2Proof.Machine.execLinkSignalDetect p s
  | .linkSignalLoss p => Sys2Proof.Machine.execLinkSignalLoss p s
  | .rateProposal p proposed rates => Sys2Proof.Machine.execRateProposal p proposed rates s
  | .equalisationComplete p lanes loss delay => Sys2Proof.Machine.execEqualisationComplete p lanes loss delay s
  | .trainTimeout p => Sys2Proof.Machine.execTrainTimeout p s
  | .capabilityRecord p rec => Sys2Proof.Machine.execCapabilityRecord p rec s
  | .admNonce p nonce => Sys2Proof.Machine.execAdmNonce p nonce s
  | .admIdentity p cert => Sys2Proof.Machine.execAdmIdentity p cert s
  | .admOwner p cert => Sys2Proof.Machine.execAdmOwner p cert s
  | .admProof p proof => Sys2Proof.Machine.execAdmProof p proof s
  | .admitTimeout p => Sys2Proof.Machine.execAdmitTimeout p s
  | .discoveryWindow p => Sys2Proof.Machine.execDiscoveryWindow p s
  | .topologyCheck => Sys2Proof.Machine.execTopologyCheck s
  | .sheafStart => Sys2Proof.Machine.execSheafStart s
  | .sheafPageReceive src slot seq index addr page => Sys2Proof.Machine.execSheafPageReceive src slot seq index addr page s
  | .sheafComplete => Sys2Proof.Machine.execSheafComplete s
  | .sheafTimeout => Sys2Proof.Machine.execSheafTimeout s
  | .plan m => Sys2Proof.Machine.execPlan m s
  | .done m => Sys2Proof.Machine.execDone m s
  | .digest m => Sys2Proof.Machine.execDigest m s
  | .notice m => Sys2Proof.Machine.execNotice m s
  | .noticeWait => Sys2Proof.Machine.execNoticeWait s
  | .reformWaitTimeout => Sys2Proof.Machine.execReformWaitTimeout s
  | .reform m => Sys2Proof.Machine.execReform m s
  | .restoreDigest => Sys2Proof.Machine.execRestoreDigest s
  | .survivorReady pkg => Sys2Proof.Machine.execSurvivorReady pkg s
  | .resume m => Sys2Proof.Machine.execResume m s
  | .join m => Sys2Proof.Machine.execJoin m s
  | .jobRestoreCheck => Sys2Proof.Machine.execJobRestoreCheck s
  | .check m => Sys2Proof.Machine.execCheck m s
  | .faultEvent e => Sys2Proof.Machine.execFaultEvent e s
  | .collectorSelfCheck coll => Sys2Proof.Machine.execCollectorSelfCheck coll s
  | .thermalTrip die => Sys2Proof.Machine.execThermalTrip die s
  | .thermalTripClear die => Sys2Proof.Machine.execThermalTripClear die s
  | .supplyWindow rail => Sys2Proof.Machine.execSupplyWindow rail s
  | .pllUnlock pll => Sys2Proof.Machine.execPllUnlock pll s
  | .escalationTimer coll source => Sys2Proof.Machine.execEscalationTimer coll source s
  | .fcAck coll value => Sys2Proof.Machine.execFcAck coll value s
  | .fcAckRelease value => Sys2Proof.Machine.execFcAckRelease value s
  | .fallowTimer => Sys2Proof.Machine.execFallowTimer s
  | .governorWindow region => Sys2Proof.Machine.execGovernorWindow region s
  | .pwrGoodFall => Sys2Proof.Machine.execPwrGoodFall s
  | .coldRstN pulse => Sys2Proof.Machine.execColdRstN pulse s
  | .warmRstN pulse => Sys2Proof.Machine.execWarmRstN pulse s
  | .bootControlWarm value => Sys2Proof.Machine.execBootControlWarm value s
  | .resetRelease => Sys2Proof.Machine.execResetRelease s
  | .bootRom straps slot response => Sys2Proof.Machine.execBootRom straps slot response s
  | .selectImage => Sys2Proof.Machine.execSelectImage s
  | .rootPllLock rails ucieRates => Sys2Proof.Machine.execRootPllLock rails ucieRates s
  | .lockTimeout pll => Sys2Proof.Machine.execLockTimeout pll s
  | .lpddr5xTraining present failing => Sys2Proof.Machine.execLpddr5xTraining present failing s
  | .startTest found badLines => Sys2Proof.Machine.execStartTest found badLines s
  | .imageCopy => Sys2Proof.Machine.execImageCopy s
  | .fastPath selfRefresh => Sys2Proof.Machine.execFastPath selfRefresh s
  | .segment core bytes => Sys2Proof.Machine.execSegment core bytes s
  | .gleanWait core => Sys2Proof.Machine.execGleanWait core s
  | .gleanFetch core seq => Sys2Proof.Machine.execGleanFetch core seq s
  | .coreLoadComplete core => Sys2Proof.Machine.execCoreLoadComplete core s
  | .readyAssert => Sys2Proof.Machine.execReadyAssert s
  | .clkPreset dies => Sys2Proof.Machine.execClkPreset dies s
  | .partialResetRelease d => Sys2Proof.Machine.execPartialResetRelease d s
  | .partialResetReturn d => Sys2Proof.Machine.execPartialResetReturn d s
  | .clkUreset d value => Sys2Proof.Machine.execClkUreset d value s
  | .unitResetComplete u => Sys2Proof.Machine.execUnitResetComplete u s
  | .stwQptrTail m q tail => Sys2Proof.Machine.execStwQptrTail m q tail s
  | .stwRptrRead m q value => Sys2Proof.Machine.execStwRptrRead m q value s
  | .pairDisable q => Sys2Proof.Machine.execPairDisable q s
  | .secAttestStart m value => Sys2Proof.Machine.execSecAttestStart m value s
  | .attestationComplete => Sys2Proof.Machine.execAttestationComplete s
  | .pcieFlr f => Sys2Proof.Machine.execPcieFlr f s
  | .sriovDisable vf => Sys2Proof.Machine.execSriovDisable vf s
  | .busMasterDisable => Sys2Proof.Machine.execBusMasterDisable s
  | .pcieAccess f bar offset size write value => Sys2Proof.Machine.execPcieAccess f bar offset size write value s
  | .stewardCoreAccess core kind addr size value rd signed => Sys2Proof.Machine.execStewardCoreAccess core kind addr size value rd signed s
  | .mgmtCoreAccess core kind addr size value rd signed => Sys2Proof.Machine.execMgmtCoreAccess core kind addr size value rd signed s
  | .nvmWrite offset data ok => Sys2Proof.Machine.execNvmWrite offset data ok s
  | .i3cAddressWrite value => Sys2Proof.Machine.execI3cAddressWrite value s
  | .i3cBridgeRead => Sys2Proof.Machine.execI3cBridgeRead s
  | .bypass => Sys2Proof.Machine.execBypass s
  | .idcode => Sys2Proof.Machine.execIdcode s
  | .samplePreload => Sys2Proof.Machine.execSamplePreload s
  | .extest => Sys2Proof.Machine.execExtest s
  | .registerWrite m addr size value => Sys2Proof.Machine.execRegisterWrite m addr size value s
  | .mboxBadCommand => Sys2Proof.Machine.execMboxBadCommand s
  | .supplyWindowClear rail => Sys2Proof.Machine.execSupplyWindowClear rail s
  | .pllRelock pll => Sys2Proof.Machine.execPllRelock pll s
  | .sheafRefused => Sys2Proof.Machine.execSheafRefused s
  | .resilienceMessageTimeout pkg => Sys2Proof.Machine.execResilienceMessageTimeout pkg s
  | .pairEnable q => Sys2Proof.Machine.execPairEnable q s
  | .busMasterEnable => Sys2Proof.Machine.execBusMasterEnable s
  | .pcieLinkTrained gen width => Sys2Proof.Machine.execPcieLinkTrained gen width s

end Sys2Proof.Machine
end

