-- ==== Sys2Proof/Machine/Step.lean ====
section
/-!
DEFINITION. The step of the block: the command at the front of the queue runs on the state with the queue's rest. On an empty
queue one CLK_SLOW cycle passes (log entry 7); a CLK_SLOW count is the only time the model keeps.
-/
namespace Sys2Proof.Machine

/-- One CLK_SLOW cycle with nothing commanded. -/
def tick (s : State) : State := { s with dev := { s.dev with slow := s.dev.slow + 1 } }

/-- One step: the front command, or a tick. -/
def step (s : State) : Host.Outcome State Fault Refusal :=
  match s.pending with
  | [] => .next (tick s)
  | c :: rest => exec c { s with pending := rest }

/-- Put the command a table word spells at the front of the queue; the table gives no bits, so no word spells one. -/
def State.withFetchWord (s : State) (nbits w : Nat) : State :=
  match Sys2Proof.decodeTableWord nbits w with
  | some c => { s with pending := c :: s.pending }
  | none => s

end Sys2Proof.Machine
end

