-- ==== Sys2Proof/Safety.lean ====
section
/-!
DEFINITION. The terms the claims use: one byte of a state, a command that completes, what memory keeps, the form memory always has,
and a safe run.
-/
namespace Sys2Proof.Machine

/-- One byte of a state's memory, at a package address or a key above the map. -/
def State.byte (s : State) (a : Nat) : Byte := Memory.get s.mem a

/-- `n` bytes of a state's memory. -/
def State.bytes (s : State) (a n : Nat) : List Byte := (List.range n).map (fun i => s.byte (a + i))

/-- Command `i` completes from `s`, in a state of which `P` holds. -/
def Completes (i : Instr) (s : State) (P : State → Prop) : Prop := ∃ t, exec i s = .next t ∧ P t

/-- Every byte of memory is as before. -/
def KeepsMemory (s t : State) : Prop := ∀ a, t.byte a = s.byte a

/-- Every byte of memory outside the `n` bytes from `lo` is as before. -/
def KeepsMemoryBut (lo n : Nat) (s t : State) : Prop := ∀ a, a < lo ∨ lo + n ≤ a → t.byte a = s.byte a

/-- Memory, and every part of the devices but the units and the control cores, are as before; of these, at most unit `u` and core `n`
changed. -/
def OnlyUnitCore (u n : Nat) (s t : State) : Prop :=
  t.mem = s.mem ∧ t.dev = { s.dev with units := t.dev.units, cores := t.dev.cores } ∧
  (∀ v, v ≠ u → t.ctx.unit v = s.ctx.unit v) ∧ (∀ k, k ≠ n → t.ctx.core k = s.ctx.core k)

/-- Every part of the devices but the units is as before; of these, at most unit `u` changed. -/
def OnlyUnit (u : Nat) (s t : State) : Prop :=
  t.dev = { s.dev with units := t.dev.units } ∧ ∀ v, v ≠ u → t.ctx.unit v = s.ctx.unit v

/-- No codeword in memory is poisoned or holds symbol errors. -/
def Clean (s : State) : Prop := s.dev.poison = [] ∧ s.dev.errs = []

/-- Memory is that of `s` with the writes of context `c` in it. -/
def Wrote (s : State) (c : Ctx) (t : State) : Prop := t.mem = applyLog s.mem c.log

/-- The devices are those of context `c`, and memory is that of `s` with the writes of `c` in it. -/
def Becomes (s : State) (c : Ctx) (t : State) : Prop := t.dev = c.dev ∧ Wrote s c t

/-- The sequencer's own work at the end of an action (R381–R383, R390, R399), from context `c`, gives state `t`. -/
def AfterSequencer (s : State) (c : Ctx) (t : State) : Prop := Becomes s (schedule c) t

/-- Of the devices at most die `d`'s furrow engine, and the messages sent, changed. -/
def OnlyDie (d : Nat) (s t : State) : Prop :=
  t.dev = { s.dev with furrows := t.dev.furrows, outbox := t.dev.outbox } ∧ ∀ e, e ≠ d → t.ctx.fur e = s.ctx.fur e

/-- Of the devices at most channel `k` of die `d`'s furrow engine, and the messages sent, changed. -/
def OnlyChannel (d k : Nat) (s t : State) : Prop :=
  OnlyDie d s t ∧ t.ctx.fur d = { s.ctx.fur d with chans := (t.ctx.fur d).chans } ∧ ∀ j, j ≠ k → t.ctx.chan d j = s.ctx.chan d j

/-- Of the devices at most port `p`, and the messages sent, changed. -/
def OnlyPort (p : Nat) (s t : State) : Prop :=
  t.mem = s.mem ∧ t.dev = { s.dev with ports := t.dev.ports, outbox := t.dev.outbox } ∧ ∀ q, q ≠ p → t.ctx.port q = s.ctx.port q

/-- The entries of queue `q` of unit `u` after its command `i`, entry `e`, is over: it waits for its record where one is due, with
the status and detail given, else it has left. -/
def doneEntries (s : State) (u q i : Nat) (e : Entry) (status detail : Nat) : List Entry :=
  if recordDue s.ctx u e then updAt ((s.ctx.unit u).queue q).entries i (fun x => { x with started := true, ended := some (status, detail) })
  else ((s.ctx.unit u).queue q).entries.eraseIdx i

/-- The event counters after that: its signal counts at once where no record is due. -/
def doneEvts (s : State) (u : Nat) (e : Entry) : Tab Evt :=
  if hSig e.desc && !recordDue s.ctx u e then ((addEvt u (hSigEvt e.desc) 1 s.ctx).unit u).evts else (s.ctx.unit u).evts

/-- The sequencer may take an input record: it runs, it is the source's turn, and a pair's record stands at the pair's HEAD. -/
def RecordReady (s : State) (src : Source) (d : Desc) : Prop :=
  seqRuns s.ctx = true ∧ src.wf = true ∧ sourceTurn s.ctx (sourceNo src) = true ∧
  ∀ q, src = .pair q → pairReady s.ctx q = true ∧ recordAt s.ctx q = d

/-- The context with the record taken: a pair's HEAD is one on, and the source was served last. -/
def recordTaken (s : State) (src : Source) : Ctx :=
  match src with
  | .pair q => (s.ctx.updPair q (fun p => { p with head := (p.head + 1) % 2 ^ 32 })).updSrv (fun v => { v with turn := q })
  | .frontEnd pkg => s.ctx.updSrv (fun v => { v with turn := 8 + pkg })

/-- The form every reachable state has: its memory is canonical, so equal memories are equal lists. -/
def Inv (s : State) : Prop := Memory.wf s.mem

/-- A run of `k` steps from `s` meets no fault. -/
def SafeRun (k : Nat) (s : State) : Prop := ∀ r, Host.Core.run Sys2Proof.core k s ≠ .fault r

end Sys2Proof.Machine
end

