-- ==== Sys2Proof/Certificates/Slice0/Obligations.lean ====
section
/-!
DEFINITION. The statements for the provers. A command is quantified over with its operands; `s` is any state, `t` the next one. Where a
statement names a function of the model (the place of a row, the descriptor a push reads), the function is the one the meaning uses.
-/
open Sys2Proof Sys2Proof.Machine

/-! ### The block -/

/-- A step with command `c` at the front of the queue is `exec c` on the state with the queue's rest. -/
def Obligations.StepRunsTheFrontCommand : Prop := ∀ (c : Instr) (s : State), step { s with pending := c :: s.pending } = exec c s

/-- With no command waiting one CLK_SLOW cycle passes and nothing else changes (log entry 7, the model's choice). -/
def Obligations.IdleStepPassesOneSlowCycle : Prop :=
  ∀ s : State, s.pending = [] → step s = .next { s with dev := { s.dev with slow := s.dev.slow + 1 } }

/-- A command is performed exactly when it names hardware that exists; it never faults, and never changes the queue. -/
def Obligations.WellFormedCommandsComplete : Prop :=
  ∀ (i : Instr) (s : State),
    (i.wf = true → ∃ t, exec i s = .next t ∧ t.pending = s.pending) ∧
    (i.wf = false → exec i s = .refused .illFormed)

/-- `k` steps that all answer a next state take the first `k` commands off the queue, oldest first, and add none; no run of the block meets
a fault. -/
def Obligations.RunsTakeCommandsInOrderWithoutFault : Prop :=
  (∀ (k : Nat) (s t : State), Host.Core.run Sys2Proof.core k s = .next t → t.pending = s.pending.drop k) ∧
  (∀ (k : Nat) (s : State), SafeRun k s)

/-- After reset memory is in its canonical form. -/
def Obligations.ResetMemoryIsCanonical : Prop := Inv State.reset

/-- Every step keeps the canonical form of memory, so equal memories stay equal data. -/
def Obligations.StepKeepsMemoryCanonical : Prop := ∀ s t : State, Inv s → step s = .next t → Inv t

/-! ### Control cores -/

/-- Where a running control core pushes: an existing queue, a 64-byte aligned address in its data RAM, and the unit takes work. -/
def Sys2Proof.Machine.PushReady (s : State) (core rs1 rs2 : Nat) : Prop :=
  s.ctx.coreRuns core = true ∧ (s.ctx.core core).reg32 rs2 % 4 ≠ 3 ∧ (s.ctx.core core).reg32 rs1 % 64 = 0 ∧
  0x10000 ≤ (s.ctx.core core).reg32 rs1 ∧ (s.ctx.core core).reg32 rs1 < 0x18000 ∧ pushRefused s.ctx (unitOfCore core) = false

/-- A push of 64 bytes that may enter its queue appends a command of this core and answers 0. On a full queue, or while a lower-numbered core of
the unit waits to push there, UQ.PUSH waits and UQ.PUSHNB answers 1. Where the queue has room but its last push was a lower-numbered core's, the
two may have met in one cycle, which is free (log entry 119): the push either enters or fares as on a full queue. A push that waited is accepted
once its queue has room, the lower-numbered cores of the unit first. Completes: UQ_PUSH, UQ_PUSHNB, PUSH_ACCEPT. -/
def Obligations.PushesAppendStallOrReportFull : Prop :=
  (∀ (s : State) (core rd rs1 rs2 : Nat), core < 2048 → rd < 32 → rs1 < 32 → rs2 < 32 → PushReady s core rs1 rs2 →
      let u := unitOfCore core
      let k := s.ctx.core core
      let q := k.reg32 rs2 % 4
      let y := (s.ctx.unit u).queue q
      let d := pushDesc s.ctx core q (k.reg32 rs1)
      let entered (t : State) : Prop :=
        t.ctx.unit u = (s.ctx.unit u).setQueue q { y with entries := y.entries ++ [{ core := core, desc := d }], lastCore := some core } ∧
        t.ctx.core core = { k.setReg rd 0 with pc := (k.pc + 4) % 2 ^ 32 }
      let waits (t : State) : Prop := t.ctx.core core = { k with stall := .push q d rd } ∧ t.ctx.unit u = s.ctx.unit u
      let fails (t : State) : Prop := t.ctx.core core = { k.setReg rd 1 with pc := (k.pc + 4) % 2 ^ 32 } ∧ t.ctx.unit u = s.ctx.unit u
      let only (t : State) : Prop := OnlyUnitCore u core { s with dev := { s.dev with fresh := s.dev.fresh + 1 } } t
      (y.entries.length < 64 → lowerWaits s.ctx core q = false → mayContend s.ctx core q = false →
        ∀ i ∈ [Instr.uqPush core rd rs1 rs2, Instr.uqPushnb core rd rs1 rs2], Completes i s fun t => entered t ∧ OnlyUnitCore u core s t) ∧
      (y.entries.length < 64 → lowerWaits s.ctx core q = false → mayContend s.ctx core q = true →
        Completes (.uqPush core rd rs1 rs2) s (fun t => (entered t ∨ waits t) ∧ only t) ∧
        Completes (.uqPushnb core rd rs1 rs2) s (fun t => (entered t ∨ fails t) ∧ only t)) ∧
      (64 ≤ y.entries.length ∨ lowerWaits s.ctx core q = true →
        Completes (.uqPush core rd rs1 rs2) s (fun t => waits t ∧ OnlyUnitCore u core s t) ∧
        Completes (.uqPushnb core rd rs1 rs2) s (fun t => fails t ∧ OnlyUnitCore u core s t))) ∧
  (∀ (s : State) (core q rd : Nat) (d : Desc), core < 2048 → (s.ctx.core core).stall = .push q d rd →
      let u := unitOfCore core
      let k := s.ctx.core core
      let y := (s.ctx.unit u).queue q
      k.halted = false → k.frozen = false → s.ctx.dieStopped (dieOfUnit u) = false → pushRefused s.ctx u = false →
      y.entries.length < 64 → (∀ i, i < core % 4 → (s.ctx.core (4 * u + i)).stall = .no) →
      Completes (.pushAccept core) s fun t =>
        t.ctx.unit u = (s.ctx.unit u).setQueue q { y with entries := y.entries ++ [{ core := core, desc := d }], lastCore := some core } ∧
        t.ctx.core core = { CoreSt.setReg { k with stall := .no } rd 0 with pc := (k.pc + 4) % 2 ^ 32 } ∧ OnlyUnitCore u core s t)

/-- UQ.EVT reads a counter, UQ.QSTAT a queue's free entries, UQ.WAIT waits for a counter's value; UQ.SIG adds to a counter, which sticks at its
top, and UQ.EVCLR clears it. Completes: UQ_EVT, UQ_QSTAT, UQ_WAIT, WAIT_SATISFIED, UQ_SIG, UQ_EVCLR. -/
def Obligations.EventCountersReadWaitAndCount : Prop :=
  (∀ (s : State) (core rd rs1 rs2 : Nat), core < 2048 → rd < 32 → rs1 < 32 → rs2 < 32 →
      let u := unitOfCore core
      let k := s.ctx.core core
      let i := k.reg32 rs1 % 16
      let w := evtWord s.ctx u i
      (s.ctx.coreRuns core = true →
        Completes (.uqWait core rd rs1 rs2) s (fun t => OnlyUnitCore u core s t ∧ t.ctx.unit u = s.ctx.unit u ∧
          t.ctx.core core = if k.reg32 rs2 ≤ w then { k.setReg rd (BitVec.ofNat 64 (w % 2 ^ 32)) with pc := (k.pc + 4) % 2 ^ 32 }
            else { k with stall := .wait i (k.reg32 rs2) rd }) ∧
        Completes (.uqEvt core rd rs1) s (fun t => OnlyUnitCore u core s t ∧ t.ctx.unit u = s.ctx.unit u ∧
          t.ctx.core core = { k.setReg rd (BitVec.ofNat 64 (w % 2 ^ 32)) with pc := (k.pc + 4) % 2 ^ 32 }) ∧
        (k.reg32 rs1 % 4 ≠ 3 → Completes (.uqQstat core rd rs1) s (fun t => OnlyUnitCore u core s t ∧ t.ctx.unit u = s.ctx.unit u ∧
          t.ctx.core core = { k.setReg rd (BitVec.ofNat 64 ((64 - ((s.ctx.unit u).queue (k.reg32 rs1 % 4)).entries.length) % 2 ^ 32)) with
            pc := (k.pc + 4) % 2 ^ 32 }))) ∧
      (∀ e v r, k.stall = .wait e v r → k.halted = false → k.frozen = false → s.ctx.dieStopped (dieOfCore core) = false →
        v ≤ evtWord s.ctx u e →
        Completes (.waitSatisfied core) s fun t => OnlyUnitCore u core s t ∧ t.ctx.unit u = s.ctx.unit u ∧
          t.ctx.core core = { CoreSt.setReg { k with stall := .no } r (BitVec.ofNat 64 (evtWord s.ctx u e % 2 ^ 32)) with
            pc := (k.pc + 4) % 2 ^ 32 })) ∧
  (∀ (s : State) (core rs1 rs2 : Nat), core < 2048 → rs1 < 32 → rs2 < 32 → s.ctx.coreRuns core = true →
      let u := unitOfCore core
      let k := s.ctx.core core
      let i := k.reg32 rs1 % 16
      let e := Tab.get {} (s.ctx.unit u).evts i
      let n := e.count + k.reg32 rs2
      Completes (.uqSig core rs1 rs2) s (fun t => OnlyUnitCore u core s t ∧
        Tab.get {} (t.ctx.unit u).evts i = (if 0x7FFFFFFF < n then { count := 0x7FFFFFFF, sticky := true } else { count := n, sticky := e.sticky }) ∧
        (∀ j, j ≠ i → Tab.get {} (t.ctx.unit u).evts j = Tab.get {} (s.ctx.unit u).evts j) ∧
        t.ctx.unit u = { s.ctx.unit u with evts := (t.ctx.unit u).evts } ∧ t.ctx.core core = { k with pc := (k.pc + 4) % 2 ^ 32 }) ∧
      Completes (.uqEvclr core rs1) s (fun t => OnlyUnitCore u core s t ∧ Tab.get {} (t.ctx.unit u).evts i = { count := 0, sticky := false } ∧
        (∀ j, j ≠ i → Tab.get {} (t.ctx.unit u).evts j = Tab.get {} (s.ctx.unit u).evts j) ∧
        t.ctx.unit u = { s.ctx.unit u with evts := (t.ctx.unit u).evts } ∧ t.ctx.core core = { k with pc := (k.pc + 4) % 2 ^ 32 }))

/-- A custom-0 word whose FUNCT7 and FUNCT3 are none of Table 05-8's, and a push or query that names queue 3, raise an illegal-instruction exception:
cause 2, pc saved, machine mode, the handler's base. Completes: ILLEGAL_INSTRUCTION. -/
def Obligations.IllegalWordTrapsWithCauseTwo : Prop :=
  ∀ (s : State) (core w rd rs1 rs2 : Nat), core < 2048 → w < 2 ^ 32 → rd < 32 → rs1 < 32 → rs2 < 32 → s.ctx.coreRuns core = true →
    let k := s.ctx.core core
    let trapped (t : State) : Prop :=
      (t.ctx.core core).mcause = 2 ∧ (t.ctx.core core).mepc = k.pc ∧ (t.ctx.core core).priv = 3 ∧
      (t.ctx.core core).pc = k.mtvec &&& ~~~(3 : Word64) ∧ (t.ctx.core core).regs = k.regs ∧
      (∀ u, t.ctx.unit u = s.ctx.unit u) ∧ OnlyUnitCore (unitOfCore core) core s t
    (bits w 0 7 = 0x0B → ¬ (bits w 25 7 = 0 ∧ bits w 12 3 ≤ 5) → ¬ (bits w 25 7 = 1 ∧ bits w 12 3 = 0) →
      Completes (.illegalInstruction core w) s trapped) ∧
    (k.reg32 rs2 % 4 = 3 → Completes (.uqPush core rd rs1 rs2) s trapped ∧ Completes (.uqPushnb core rd rs1 rs2) s trapped) ∧
    (k.reg32 rs1 % 4 = 3 → Completes (.uqQstat core rd rs1) s trapped)

/-- A running control core's aligned accesses to its own RAMs: a fetch answers the instruction RAM's bytes, a load brings the data RAM's
bytes into its register, a store writes its low bytes, low byte first, and nothing else in memory. Completes: CONTROL_CORE_ACCESS. -/
def Obligations.CoreAccessReachesItsOwnRam : Prop :=
  ∀ (s : State) (core a n v rd : Nat) (signed : Bool), core < 2048 → n ∈ [1, 2, 4] → a % n = 0 → v < 2 ^ 32 → rd < 32 →
    s.ctx.coreRuns core = true →
    (a < 0x10000 → Completes (.controlCoreAccess core .fetch a n v rd signed) s fun t =>
      Tab.get {} t.dev.answers core = { ok := true, value := ofBytes (s.bytes (coreRam core + a) n), ep := false } ∧ t.mem = s.mem ∧
      t.dev = { s.dev with answers := t.dev.answers }) ∧
    (0x10000 ≤ a → a < 0x18000 →
      Completes (.controlCoreAccess core .load a n v rd signed) s (fun t =>
        t.ctx.core core = (s.ctx.core core).setReg rd
          (BitVec.ofNat 64 (extend signed n (ofBytes (s.bytes (coreRam core + a) n)) % 2 ^ 32)) ∧
        t.mem = s.mem ∧ (∀ k, k ≠ core → t.ctx.core k = s.ctx.core k) ∧
        t.dev = { s.dev with cores := t.dev.cores, answers := t.dev.answers }) ∧
      Completes (.controlCoreAccess core .store a n v rd signed) s (fun t =>
        t.bytes (coreRam core + a) n = toBytes n v ∧ KeepsMemoryBut (coreRam core + a) n s t ∧
        t.dev = { s.dev with answers := t.dev.answers }))

/-- The stash allocator: a claim of n pages, 1 ≤ n, that fits the unit's region, or else its spill slice, grants the offset behind the frames
claimed so far and puts a frame on top; one that fits neither exhausts the allocator and freezes the core, with its job's end; a claim of 0
pages is a violation. A release with bit 0 set takes the top frame off and moves its tier's top back, or is a violation while there is none;
with bit 0 clear it has no effect. Completes: UM_STASH_CLAIM, UM_STASH_RELEASE. -/
def Obligations.StashClaimsStackAndReleasesPop : Prop :=
  ∀ (s : State) (core v : Nat), core < 2048 → v < 2 ^ 32 → s.ctx.coreRuns core = true →
    let u := unitOfCore core
    let x := s.ctx.unit u
    let h := x.stash
    let n := v % 2 ^ 20
    let only (t : State) : Prop := t.mem = s.mem ∧ (∀ w, w ≠ u → t.ctx.unit w = s.ctx.unit w) ∧
      t.dev = { s.dev with units := t.dev.units, answers := t.dev.answers }
    let inUnit := h.spillTop = 0 ∧ h.unitTop + n ≤ 16 * x.region.stashSize
    (n ≠ 0 → h.frames.length ≠ 1024 →
      (inUnit → Completes (.umStashClaim core v) s fun t => only t ∧
        t.ctx.unit u = { x with stash := { h with
          frames := (0, n) :: h.frames, unitTop := h.unitTop + n, grants := Tab.set h.grants (core % 4) (0, h.unitTop) } }) ∧
      (¬ inUnit → h.spillTop + n ≤ 16 * h.spillSize → Completes (.umStashClaim core v) s fun t => only t ∧
        t.ctx.unit u = { x with stash := { h with
          frames := (1, n) :: h.frames, spillTop := h.spillTop + n, grants := Tab.set h.grants (core % 4) (1, h.spillTop) } })) ∧
    (n ≠ 0 → h.frames.length = 1024 ∨ (¬ inUnit ∧ 16 * h.spillSize < h.spillTop + n) →
      let c1 := (s.ctx.answer core {}).updUnit u (fun y => { y with stash := { h with exhausted := true } })
      let c2 := endCause 0x10 (c1.updCore core (fun k => { k with frozen := true }))
      Completes (.umStashClaim core v) s fun t => Becomes s (markFroze (dieOfUnit u) (clusterOf u % 16) (unitEvent u 6 c2)) t ∧
        (s.dev.boot.armed = false → t.mem = s.mem ∧ t.ctx.unit u = { x with stash := { h with exhausted := true } } ∧
          t.ctx.core core = { s.ctx.core core with frozen := true } ∧ t.dev.job = (endCause 0x10 s.ctx).dev.job)) ∧
    (∀ tier pages rest, v % 2 = 1 → h.frames = (tier, pages) :: rest →
      Completes (.umStashRelease core v) s fun t => only t ∧
        t.ctx.unit u = { x with stash := { h with
          frames := rest,
          unitTop := if tier = 0 then h.unitTop - pages else h.unitTop,
          spillTop := if tier = 1 then h.spillTop - pages else h.spillTop } }) ∧
    (v % 2 = 0 → Completes (.umStashRelease core v) s fun t => t.mem = s.mem ∧ t.dev = { s.dev with answers := t.dev.answers }) ∧
    (let refused : Ctx := (s.ctx.answer core {}).answer core { ok := false, value := 0 }
     let violates (i : Instr) (a : Nat) : Prop := Completes i s fun t =>
      Becomes s (violateCore core a refused) t ∧ (t.ctx.core core).frozen = true
     (n = 0 → violates (.umStashClaim core v) (unitBlock u + 0x580)) ∧
     (v % 2 = 1 → h.frames = [] → violates (.umStashRelease core v) (unitBlock u + 0x584)))

/-! ### Matrix engine -/

/-- Of the devices at most unit `u` changed, and one free value was drawn. -/
def Sys2Proof.Machine.OnlyUnitDraw (u : Nat) (s t : State) : Prop := OnlyUnit u { s with dev := { s.dev with fresh := s.dev.fresh + 1 } } t

/-- Of the devices at most unit `u`, the governors and the number of free values drawn changed. -/
def Sys2Proof.Machine.OnlyUnitGov (u : Nat) (s t : State) : Prop :=
  t.dev = { s.dev with units := t.dev.units, gov := t.dev.gov, fresh := t.dev.fresh } ∧ (∀ v, v ≠ u → t.ctx.unit v = s.ctx.unit v) ∧
  ∀ r, r ≠ regionOf u → Tab.get {} t.dev.gov r = Tab.get {} s.dev.gov r

/-- A stream's entry without what the feeder has fetched for it (R140, R141); any other entry as it is. -/
def Sys2Proof.Machine.Entry.unfed (e : Entry) : Entry :=
  if hOpcode e.desc == 0x11 then { e with feed := [], fetchNext := none, pos := 0 } else e

/-- A well-formed ME_LOAD that may start takes the array's path: the stationary tile is discarded, the command is under way and holds the tile it
read, and nothing else changes but what the feeder fetches for the streams behind it. A load that read no poison completes: its tile stands in the
array; the command waits for its record where one is due, else it
leaves the queue with its signal. Completes: ME_LOAD, ME_LOAD_COMPLETE. -/
def Obligations.MeLoadReadsAndCompletesItsTile : Prop :=
  (∀ (s : State) (u i : Nat) (e : Entry), u < 512 → startable s.ctx u 0 0x10 = some (i, e) → hOpcode e.desc = 0x10 →
      arrayBusy s.ctx u = false → loadOk e.desc = true → lCols e.desc ≤ (s.ctx.unit u).width →
      (∀ p ∈ loadRecords e.desc, ownUm s.ctx u p.1 p.2 false = true) → (lFromTr e.desc && streamTo (s.ctx.unit u).me i (lTr e.desc)) = false →
      Clean s →
      Completes (.meLoad u) s fun t => t.mem = s.mem ∧ OnlyUnitDraw u s t ∧
        t.ctx.unit u = { s.ctx.unit u with tile := none, me := { (s.ctx.unit u).me with entries := (t.ctx.unit u).me.entries } } ∧
        (t.ctx.unit u).me.entries.map Entry.unfed = (updAt (s.ctx.unit u).me.entries i (fun x =>
          { x with started := true, tile := some (loadTile s.ctx u e.desc), poison := false })).map Entry.unfed) ∧
  (∀ (s : State) (u i : Nat) (e : Entry), u < 512 → findActive s.ctx u 0 0x10 (fun _ => true) = some (i, e) → unitLive s.ctx u = true →
      e.poison = false →
      Completes (.meLoadComplete u) s fun t => t.mem = s.mem ∧ OnlyUnit u s t ∧
        t.ctx.unit u = { s.ctx.unit u with
          tile := e.tile, evts := doneEvts s u e, me := { (s.ctx.unit u).me with entries := doneEntries s u 0 i e 0 0 } } ∧
        (hSig e.desc = true → recordDue s.ctx u e = false →
          let n := (Tab.get {} (s.ctx.unit u).evts (hSigEvt e.desc)).count
          evtWord t.ctx u (hSigEvt e.desc) = (if n < 0x7FFFFFFF then n + 1 else 0x7FFFFFFF) +
            (if n < 0x7FFFFFFF ∧ (Tab.get {} (s.ctx.unit u).evts (hSigEvt e.desc)).sticky = false then 0 else 2 ^ 31)))

/-- A well-formed ME_STREAM whose format pairs with the loaded tile starts: one whose rows the feeder has not begun to fetch, at its first
unmasked row. A ring stream begins with its counts at zero and its consumers at row 0. Of the other entries at most the feeder's rows change.
Completes: ME_STREAM. -/
def Obligations.MeStreamStartsAtItsFirstRow : Prop :=
  ∀ (s : State) (u i : Nat) (e : Entry) (t0 : Tile), u < 512 → startable s.ctx u 0 0x11 = some (i, e) → arrayBusy s.ctx u = false →
    streamOk e.desc = true → (s.ctx.unit u).tile = some t0 → pairs t0 e.desc = true → streamWindow s.ctx u t0 e.desc = none →
    (sDest e.desc ≤ 1 → drainOf (s.ctx.unit u).me i (sTr e.desc) = false) → Clean s →
    let anew (x : Entry) : Entry := if sDest e.desc = 1 ∧ ringConsumer (sTr e.desc) x = true then { x with ringNext := 0 } else x
    Completes (.meStream u) s fun t => t.mem = s.mem ∧ OnlyUnitDraw u s t ∧ (t.ctx.unit u).tile = some t0 ∧
      (t.ctx.unit u).me.entries.map Entry.unfed = (updAt ((s.ctx.unit u).me.entries.map anew) i (fun x =>
        { x with started := true, tile := some { t0 with elems := [], scales := [] } })).map Entry.unfed ∧
      (t.ctx.unit u).ve.entries = (s.ctx.unit u).ve.entries.map anew ∧
      (e.fetchNext = none → e.feed = [] → ∀ x, (t.ctx.unit u).me.entries[i]? = some x →
        x.pos ≤ sN e.desc ∧ (∀ n, n < x.pos → unmasked s.ctx e.desc n = false) ∧
        (x.pos < sN e.desc → unmasked s.ctx e.desc x.pos = true)) ∧
      (sDest e.desc = 1 → Tab.get {} (t.ctx.unit u).rings (sTr e.desc) =
        { written := 0, released := 0, active := true, base := sDestRow e.desc, len := sRingLen e.desc }) ∧
      (sDest e.desc ≠ 1 → (t.ctx.unit u).rings = (s.ctx.unit u).rings)

/-- A row in the feeder queues enters the array as its exact column combinations with the tile; the region's governor counts its issued columns,
and the stream goes on at the next row the feeder holds or will fetch. While no row is there none enters: the feeder, where it feeds this
stream and has room, brings the next row's codes from the stream's source. Completes: ME_STREAM_ROW_ENTRY. -/
def Obligations.MeRowEntersAsItsCombinations : Prop :=
  ∀ (s : State) (u i : Nat) (e : Entry) (t0 : Tile), u < 512 → findActive s.ctx u 0 0x11 (fun e => decide (e.pos < sN e.desc)) = some (i, e) →
    (s.ctx.unit u).tile = some t0 → unitLive s.ctx u = true → govHolds s.ctx u = false → Clean s →
    (sDest e.desc = 1 → e.pos < (Tab.get {} (s.ctx.unit u).rings (sTr e.desc)).len +
      (Tab.get {} (s.ctx.unit u).rings (sTr e.desc)).released) →
    (∀ r rest, e.feed = r :: rest →
      let n := (Tab.get {} s.dev.gov (regionOf u)).count + rowLive t0 e.desc r.codes * govWeight t0.mode t0.fmt
      Completes (.meStreamRowEntry u) s fun t => t.mem = s.mem ∧ OnlyUnitGov u s t ∧
        Tab.get {} t.dev.gov (regionOf u) = { count := n, hold := decide (govBudget s.dev.boot.variant ≤ n) } ∧
        t.ctx.unit u = { s.ctx.unit u with me := { (s.ctx.unit u).me with entries := (t.ctx.unit u).me.entries } } ∧
        (t.ctx.unit u).me.entries.map Entry.unfed = (updAt (s.ctx.unit u).me.entries i (fun x =>
          { x with flight := x.flight ++ [{ n := r.n, sums := rowSums t0 e.desc r.codes r.scales }] })).map Entry.unfed ∧
        ∀ x, (t.ctx.unit u).me.entries[i]? = some x → (∃ more, x.feed = rest ++ more) ∧
          ∀ m, e.fetchNext = some m → x.pos = match rest with | q :: _ => q.n | [] => m) ∧
    (∀ m, e.feed = [] → e.fetchNext = some m → m < sN e.desc → feedTarget s.ctx u = some (i, t0) → feedCount s.ctx u < 32 →
      Completes (.meStreamRowEntry u) s fun t => t.mem = s.mem ∧ OnlyUnitDraw u s t ∧
        (t.ctx.unit u).me.entries.map Entry.unfed = (s.ctx.unit u).me.entries.map Entry.unfed ∧
        ∀ x, (t.ctx.unit u).me.entries[i]? = some x →
          let row := rowOperands s.ctx t0 e.desc (sSrc e.desc + m * sStride e.desc)
          x.feed.head? = some { n := m, codes := row.1, scales := row.2 })

/-- The oldest output row leaves the array: its rounded codes are the 4-byte elements from the row's address on, no other byte changes,
and a ring stream counts the row as written. Completes: ME_OUTPUT_ROW_WRITE. -/
def Obligations.MeOutputRowIsWrittenInPlace : Prop :=
  ∀ (s : State) (u i : Nat) (e : Entry) (r : RowOut) (rest : List RowOut), u < 512 →
    findActive s.ctx u 0 0x11 (fun e => !e.flight.isEmpty) = some (i, e) → e.flight = r :: rest → unitLive s.ctx u = true → Clean s →
    let a := outAddr u e.desc r.n
    Completes (.meOutputRowWrite u) s fun t =>
      t.bytes a (4 * r.sums.length) = elemRowBytes 0 (outCodes s.ctx e a r.sums) ∧ KeepsMemoryBut a (4 * r.sums.length) s t ∧
      OnlyUnit u s t ∧
      (t.ctx.unit u).me.entries = updAt (s.ctx.unit u).me.entries i (fun x => { x with flight := rest }) ∧
      (sDest e.desc = 1 → (Tab.get {} (t.ctx.unit u).rings (sTr e.desc)).written = (Tab.get {} (s.ctx.unit u).rings (sTr e.desc)).written + 1) ∧
      (sDest e.desc ≠ 1 → (t.ctx.unit u).rings = (s.ctx.unit u).rings)

/-- A stream with no row left and none in the array, and a drain with its last row read, complete: each waits for its record where one
is due, else leaves its queue with its signal. Without RELEASE the drain writes nothing more; with it, its records are written now. Completes:
ME_STREAM_COMPLETE, ME_DRAIN_COMPLETE. -/
def Obligations.MeStreamAndDrainComplete : Prop :=
  ∀ (s : State) (u i : Nat) (e : Entry), u < 512 → unitLive s.ctx u = true →
    (findActive s.ctx u 0 0x11 (fun e => decide (sN e.desc ≤ e.pos) && e.flight.isEmpty) = some (i, e) → e.poison = false →
      Completes (.meStreamComplete u) s fun t => t.mem = s.mem ∧ OnlyUnit u s t ∧
        (t.ctx.unit u).me.entries = doneEntries s u 0 i e 0 0 ∧ (t.ctx.unit u).evts = doneEvts s u e ∧
        (sDest e.desc = 1 → (Tab.get {} (t.ctx.unit u).rings (sTr e.desc)).active = false)) ∧
    (findActive s.ctx u 0 0x12 (fun e => decide (dCount e.desc ≤ e.pos)) = some (i, e) → Clean s →
      Completes (.meDrainComplete u) s fun t => OnlyUnit u s t ∧
        t.ctx.unit u = { s.ctx.unit u with
          evts := doneEvts s u e, me := { (s.ctx.unit u).me with entries := doneEntries s u 0 i e 0 0 } } ∧
        (dRelease e.desc = false → t.mem = s.mem) ∧
        (dRelease e.desc = true → Wrote s (drainWrite e.desc e.rows s.ctx) t))

/-- A well-formed drain without RELEASE that may start writes its records, converted from the rows of its tile register, at its
destination and stride; every byte outside its records is as before. With RELEASE it is under way and takes ring rows. Completes: ME_DRAIN. -/
def Obligations.MeDrainWritesItsRecords : Prop :=
  ∀ (s : State) (u i : Nat) (e : Entry), u < 512 → startable s.ctx u 0 0x12 = some (i, e) →
    (s.ctx.unit u).me.entries.any (fun x => x.active && hOpcode x.desc == 0x12) = false → drainOk e.desc = true →
    (∀ r, r < drainRecords e.desc → ownUm s.ctx u (dDst e.desc + r * dStride e.desc) (drainBytes e.desc) false = true) → Clean s →
    (dRelease e.desc = false → streamTo (s.ctx.unit u).me i (dTr e.desc) = false →
      let rows := (List.range (dCount e.desc)).map (fun k => trRow s.ctx u (dTr e.desc) (dFirst e.desc + k) (dCols e.desc))
      Completes (.meDrain u) s fun t => OnlyUnit u s t ∧ Wrote s (drainWrite e.desc rows s.ctx) t ∧
        (∀ a, (∀ r, r < drainRecords e.desc → a < dDst e.desc + r * dStride e.desc ∨
          dDst e.desc + r * dStride e.desc + drainBytes e.desc ≤ a) → t.byte a = s.byte a) ∧
        (t.ctx.unit u).me.entries = updAt (s.ctx.unit u).me.entries i (fun x => { x with pos := dCount e.desc, started := true })) ∧
    (dRelease e.desc = true →
      Completes (.meDrain u) s fun t => t.mem = s.mem ∧ OnlyUnit u s t ∧
        (t.ctx.unit u).me.entries = updAt (s.ctx.unit u).me.entries i (fun x =>
          { x with ringNext := (Tab.get {} (s.ctx.unit u).rings (dTr e.desc)).released, started := true }))

/-- A consumer of a ring, a drain with RELEASE, a chain or a winnow, takes the next row it has not taken, once that is written, and the row is
released: a drain keeps it for its records, a chain runs it with its other operands, a winnow enters it into its states. Of two consumers that
find a row, one takes it; which, is free (log entry 111). Completes: RING_ROW_CONSUME. -/
def Obligations.RingConsumersTakeRowsInOrder : Prop :=
  ∀ (s : State) (u r : Nat), u < 512 → r < 4 → unitLive s.ctx u = true → Clean s →
    let x := s.ctx.unit u
    let g := Tab.get {} x.rings r
    let row (e : Entry) := g.base + e.ringNext % g.len
    let drain := findActive s.ctx u 0 0x12 (fun e => ringReady g r (dCount e.desc) e)
    let chain := findActive s.ctx u 1 0x20 (fun e => chainRing e.desc && ringReady g r (vRows e.desc) e)
    let winnow := findActive s.ctx u 1 0x21 (fun e => ringReady g r (wRows e.desc) e)
    let released (t : State) : Prop := OnlyUnitGov u s t ∧ Tab.get {} (t.ctx.unit u).rings r = { g with released := g.released + 1 } ∧
      ∀ k, k ≠ r → Tab.get {} (t.ctx.unit u).rings k = Tab.get {} x.rings k
    let drained (i : Nat) (e : Entry) (t : State) : Prop := released t ∧ t.mem = s.mem ∧ t.dev.gov = s.dev.gov ∧
      (t.ctx.unit u).me.entries = updAt x.me.entries i (fun y =>
        { y with rows := y.rows ++ [trRow s.ctx u r (row e) (dCols e.desc)], pos := y.pos + 1, ringNext := y.ringNext + 1 }) ∧
      (t.ctx.unit u).ve = x.ve
    let chained (i : Nat) (e : Entry) (t : State) : Prop := released t ∧ t.mem = s.mem ∧
      (Tab.get {} t.dev.gov (regionOf u)).count = (Tab.get {} s.dev.gov (regionOf u)).count + vCols e.desc * chainCost e.desc ∧
      (t.ctx.unit u).ve.entries = updAt x.ve.entries i (fun y => { y with
        rows := y.rows ++ [chainRow s.ctx u e.desc e.pos
          (readElems s.ctx (vSlot e.desc 0).fmt (trAddr u r (row e) 0 + (vSlot e.desc 0).off % 512) (vCols e.desc))]
        pos := y.pos + 1, ringNext := y.ringNext + 1 }) ∧
      (t.ctx.unit u).me = x.me
    let winnowed (i : Nat) (e : Entry) (t : State) : Prop := released t ∧
      Wrote s (winnowRow u e.desc e.pos (readElems s.ctx 0 (trAddr u r (row e) 0 + (wSlot e.desc).off % 512) (wCols e.desc)) (s.ctx, 0)).1 t ∧
      (t.ctx.unit u).ve.entries.map (fun y => { y with lanes := 0 }) =
        (updAt x.ve.entries i (fun y => { y with pos := y.pos + 1, ringNext := y.ringNext + 1 })).map (fun y => { y with lanes := 0 }) ∧
      (t.ctx.unit u).me = x.me
    (∀ i e, drain = some (i, e) → govHolds s.ctx u = true ∨ (chain = none ∧ winnow = none) → Completes (.ringRowConsume u r) s (drained i e)) ∧
    (govHolds s.ctx u = false →
      (∀ i e, chain = some (i, e) →
        (drain = none → Completes (.ringRowConsume u r) s (chained i e)) ∧
        (∀ j f, drain = some (j, f) → Completes (.ringRowConsume u r) s fun t => drained j f t ∨ chained i e t)) ∧
      (∀ i e, chain = none → winnow = some (i, e) → e.poison = false →
        (drain = none → Completes (.ringRowConsume u r) s (winnowed i e)) ∧
        (∀ j f, drain = some (j, f) → Completes (.ringRowConsume u r) s fun t => drained j f t ∨ winnowed i e t)))

/-- A command that has ended writes its record of queue, status, tag and detail into its core's ring, once that has space, in the
core's data RAM; HEAD goes one on, the command's signal counts, and it leaves its queue. While the ring is full nothing of this happens, and
no command behind it may start. With ENABLE clear no record is due. Completes: COMPLETION_RECORD_WRITE. -/
def Obligations.CompletionRecordEntersTheCoresRing : Prop :=
  ∀ (s : State) (u q i status detail : Nat) (e : Entry), u < 512 → q < 3 →
    ((s.ctx.unit u).queue q).entries.findIdx? (fun e => e.ended.isSome) = some i → ((s.ctx.unit u).queue q).entries[i]? = some e →
    e.ended = some (status, detail) →
    (unitLive s.ctx u = true ∨ ((s.ctx.unit u).retired = true ∧ (s.ctx.unit u).resetting = false ∧ s.ctx.dieStopped (dieOfUnit u) = false)) →
    let r := Tab.get {} (s.ctx.unit u).cpls (e.core % 4)
    let a := coreRam e.core + 0x10000 + (r.base + 16 * (r.head % 2 ^ r.lenLog2)) % 0x8000
    let full : Prop := (r.head + 256 - r.tail) % 256 = 2 ^ r.lenLog2
    (full → Completes (.completionRecordWrite u q) s fun t => t.mem = s.mem ∧ t.dev = s.dev) ∧
    (∀ op j x, startable s.ctx u q op = some (j, x) → j ≤ i) ∧
    (r.enable = false → recordDue s.ctx u e = false) ∧
    (¬ full → Completes (.completionRecordWrite u q) s fun t =>
      t.bytes a 16 = recordBytes q status (hTag e.desc) detail ∧ KeepsMemoryBut a 16 s t ∧ OnlyUnit u s t ∧
      (t.ctx.unit u).evts = (if hSig e.desc then ((addEvt u (hSigEvt e.desc) 1 s.ctx).unit u).evts else (s.ctx.unit u).evts) ∧
      ((t.ctx.unit u).queue q).entries = ((s.ctx.unit u).queue q).entries.eraseIdx i ∧
      Tab.get {} (t.ctx.unit u).cpls (e.core % 4) = { r with head := (r.head + 1) % 256 })

/-- The fences of the three queues, with the conditions their descriptors select: no earlier command of the queue left, the counter at its
value. One whose conditions hold, or that selects none, completes in the step it starts; one whose conditions do not is under way, waits,
and completes when they hold. A fence with a record due waits for it. Completes: ME_FENCE, ME_FENCE_COMPLETE, VE_FENCE, VE_FENCE_COMPLETE, DMA_FENCE,
DMA_FENCE_COMPLETE. -/
def Obligations.FencesCompleteWhenTheirConditionsHold : Prop :=
  ∀ (s : State) (u i : Nat) (e : Entry), u < 512 →
    ∀ f ∈ [((0 : Nat), (0x13 : Nat), Instr.meFence u, Instr.meFenceComplete u), (1, 0x22, .veFence u, .veFenceComplete u),
        (2, 0x31, .dmaFence u, .dmaFenceComplete u)],
      let y := (s.ctx.unit u).queue f.1
      let met : Prop := (fld e.desc 8 0 1 = 1 → i = 0) ∧ (fld e.desc 8 1 1 = 1 → fld e.desc 12 0 32 ≤ evtWord s.ctx u (fld e.desc 9 0 4))
      let done (t : State) : Prop := t.mem = s.mem ∧ OnlyUnit u s t ∧
        t.ctx.unit u = { (s.ctx.unit u).setQueue f.1 { y with entries := doneEntries s u f.1 i e 0 0 } with evts := doneEvts s u e }
      (startable s.ctx u f.1 f.2.1 = some (i, e) → fenceOk e.desc = true →
        (met → Completes f.2.2.1 s done) ∧
        (¬ met → Completes f.2.2.1 s fun t => t.mem = s.mem ∧ OnlyUnit u s t ∧
          t.ctx.unit u = (s.ctx.unit u).setQueue f.1 { y with entries := updAt y.entries i (fun x => { x with started := true }) })) ∧
      (findActive s.ctx u f.1 f.2.1 (fun _ => true) = some (i, e) → queueLive s.ctx u f.1 = true →
        (met → Completes f.2.2.2 s done) ∧ (¬ met → Completes f.2.2.2 s fun t => t.mem = s.mem ∧ t.dev = s.dev))

/-! ### Vector engine -/

/-- A well-formed chain that may start is under way: it holds the records ACC combines with and, unless it consumes a ring, the results of its
operations on every row; nothing is written yet. Part of its lanes issue at once and count in the region's governor, the rest later. When it
completes it writes the results to D, and nothing outside D's byte ranges. Completes: VE_CHAIN. -/
def Obligations.VeChainWritesItsResultsToD : Prop :=
  (∀ (s : State) (u i : Nat) (e : Entry), u < 512 → startable s.ctx u 1 0x20 = some (i, e) → govHolds s.ctx u = false →
    chainOk e.desc = true → chainWindow u e.desc = none → Clean s →
    let lanes := if chainRing e.desc then 0 else vRows e.desc * vCols e.desc * chainCost e.desc
    Completes (.veChain u) s fun t => t.mem = s.mem ∧ OnlyUnitGov u s t ∧ ∃ k, k ≤ lanes ∧
      (Tab.get {} t.dev.gov (regionOf u)).count = (Tab.get {} s.dev.gov (regionOf u)).count + k ∧
      t.ctx.unit u = { s.ctx.unit u with ve := { (s.ctx.unit u).ve with entries := updAt (s.ctx.unit u).ve.entries i (fun x => { x with
        started := true
        pos := if chainRing e.desc then 0 else vRows e.desc
        ringNext := (Tab.get {} (s.ctx.unit u).rings ((vSlot e.desc 0).off / 2 ^ 18)).released
        rows := if chainRing e.desc then [] else (List.range (vRows e.desc)).map (fun r => chainRow s.ctx u e.desc r [])
        old := oldRecords s.ctx u e.desc
        lanes := lanes - k
        poison := false }) } }) ∧
  (∀ (s : State) (u i : Nat) (e : Entry), u < 512 → unitLive s.ctx u = true → e.poison = false → Clean s → chainOk e.desc = true →
    findActive s.ctx u 1 0x20 (fun e => decide (vRows e.desc ≤ e.pos)) = some (i, e) → (0 < e.lanes → govHolds s.ctx u = false) →
    Completes (.veChainComplete u) s fun t => OnlyUnitGov u s t ∧ Wrote s (chainWrite u e.desc e.rows e.old s.ctx) t ∧
      (e.rows.length = vRows e.desc → (∀ r ∈ e.rows, r.length = vCols e.desc) →
        ∀ a, (∀ p ∈ destRanges e.desc, a < umBase u + p.1 ∨ umBase u + p.1 + p.2 ≤ a) → t.byte a = s.byte a))

/-- A well-formed winnow of unit 0 of a cluster that reads no ring takes every row into its tokens' states; the states, in the seedbed
region, are all it writes until it finishes. One that consumes a ring sets its states up and takes its rows one by one. Completes: VE_WINNOW. -/
def Obligations.VeWinnowTakesItsRows : Prop :=
  ∀ (s : State) (u i : Nat) (e : Entry), u < 512 → startable s.ctx u 1 0x21 = some (i, e) → govHolds s.ctx u = false →
    winnowOk s.ctx u e.desc = true → isWide u = true →
    outside (if (wSlot e.desc).kind = 1 then 2 ^ 20 else umSize)
      (if wRows e.desc = 0 then [] else slotRanges (wSlot e.desc) (wRows e.desc) (wCols e.desc)) = none → Clean s →
    let c1 := winnowSetup u e.desc s.ctx
    let c2 := ((List.range (wRows e.desc)).foldl (fun a n => winnowRow u e.desc n (readElems a.1 0 (winnowSrc u e.desc n) (wCols e.desc)) a)
      (c1, 0)).1
    Completes (.veWinnow u) s fun t =>
      (∀ a, a < umBase u + wState e.desc ∨ umBase u + wState e.desc + wCols e.desc * (16 + 8 * wK e.desc) ≤ a → t.byte a = s.byte a) ∧
      Wrote s (if (wSlot e.desc).ring then c1 else c2) t ∧ OnlyUnitGov u s t ∧
      (t.ctx.unit u).ve.entries.map (fun x => { x with lanes := 0 }) = (updAt (s.ctx.unit u).ve.entries i (fun x =>
        if (wSlot e.desc).ring then
          { x with started := true, poison := false, ringNext := (Tab.get {} (s.ctx.unit u).rings ((wSlot e.desc).off / 2 ^ 18)).released }
        else { x with started := true, pos := wRows e.desc, poison := false })).map (fun x => { x with lanes := 0 })

/-- A chain or winnow that has taken its rows without poison completes, once the governor lets the rest of its lanes issue: it waits for its
record where one is due, else leaves its queue with its signal. A chain writes its results to D; a winnow
with FINISH writes each token's seedbed entry, and without writes nothing more. Completes: VE_CHAIN_COMPLETE, VE_WINNOW_COMPLETE. -/
def Obligations.VeCommandsComplete : Prop :=
  ∀ (s : State) (u i : Nat) (e : Entry), u < 512 → unitLive s.ctx u = true → e.poison = false → Clean s →
    let done (detail lanes : Nat) (t : State) : Prop := OnlyUnitGov u s t ∧
      (Tab.get {} t.dev.gov (regionOf u)).count = (Tab.get {} s.dev.gov (regionOf u)).count + lanes ∧
      t.ctx.unit u = { s.ctx.unit u with
        evts := doneEvts s u e, ve := { (s.ctx.unit u).ve with entries := doneEntries s u 1 i e 0 detail } }
    (findActive s.ctx u 1 0x20 (fun e => decide (vRows e.desc ≤ e.pos)) = some (i, e) → (0 < e.lanes → govHolds s.ctx u = false) →
      Completes (.veChainComplete u) s fun t => done 0 e.lanes t ∧ Wrote s (chainWrite u e.desc e.rows e.old s.ctx) t) ∧
    (let lanes := winnowLanes e.lanes + (if wFinish e.desc then winnowLanes (wCols e.desc * (4 * wK e.desc + 8)) else 0)
     findActive s.ctx u 1 0x21 (fun e => decide (wRows e.desc ≤ e.pos)) = some (i, e) → (0 < lanes → govHolds s.ctx u = false) →
      Completes (.veWinnowComplete u) s fun t =>
        done ((List.range (wCols e.desc)).filter (fun j => (readWinnow s.ctx u e.desc j).invalid)).length lanes t ∧
        (wFinish e.desc = false → t.mem = s.mem) ∧
        (wFinish e.desc = true → Wrote s ((List.range (wCols e.desc)).foldl (fun a j =>
          store (umBase u + wOut e.desc + j * wOutStride e.desc) (winnowEntry (wK e.desc) (readWinnow a u e.desc j)) a) s.ctx) t))
/-! ### DMA and the memories -/

/-- A well-formed copy whose bytes the engine may name, and whose remote side has a route, starts; its last byte moved and every remote
answer in, it is over: it waits for its record where one is due, else leaves its queue with its signal. Completes: DMA_COPY, DMA_COPY_COMPLETE. -/
def Obligations.DmaCopyStartsAndCompletes : Prop :=
  ∀ (s : State) (u i : Nat) (e : Entry), u < 512 →
    (startable s.ctx u 2 0x30 = some (i, e) → copyOk s.ctx e.desc = true → copyRefused s.ctx e.desc = none →
      (∀ p, cRemote e.desc = some p → (route s.ctx (dieOfUnit u) p s.dev.boot.pkg).isSome = true) →
      Completes (.dmaCopy u) s fun t => t.mem = s.mem ∧ OnlyUnit u s t ∧
        t.ctx.unit u = { s.ctx.unit u with
          dma := { (s.ctx.unit u).dma with entries := updAt (s.ctx.unit u).dma.entries i (fun x => { x with started := true }) } }) ∧
    (findActive s.ctx u 2 0x30 (fun e => !hasChunk e && e.await.isEmpty) = some (i, e) → queueLive s.ctx u 2 = true →
      e.remoteRefused = false → e.poison = false →
      Completes (.dmaCopyComplete u) s fun t => t.mem = s.mem ∧ OnlyUnit u s t ∧
        t.ctx.unit u = { s.ctx.unit u with
          evts := doneEvts s u e
          dma := { (s.ctx.unit u).dma with
            entries := doneEntries s u 2 i e (if e.carried.isEmpty then 0 else 6) e.carried.length } })

/-- The cluster's engine moves one chunk of the unit whose turn it is. A local chunk's bytes stand at the destination afterwards and no other
byte changes; a remote side is asked for the chunk, or sent it, and the copy waits for the answer. The turn passes to the next unit. Completes: DMA_CHUNK. -/
def Obligations.DmaChunkMovesItsBytes : Prop :=
  ∀ (s : State) (u i : Nat) (e : Entry), u < 512 → (s.ctx.cluster (u / 8)).frozen = false → (s.ctx.cluster (u / 8)).turn = u % 8 →
    unitLive s.ctx u = true → findActive s.ctx u 2 0x30 hasChunk = some (i, e) → Clean s →
    let d := e.desc
    let row := e.pos / cRowBytes d
    let off := e.pos % cRowBytes d
    let n := min 4096 (cRowBytes d - off)
    let src := cSrc d + row * cSrcStride d + off
    let dst := cDst d + row * cDstStride d + off
    let turned (t : State) : Prop := t.ctx.cluster (u / 8) = { s.ctx.cluster (u / 8) with turn := (u + 1) % 8 } ∧
      (∀ k, k ≠ u / 8 → t.ctx.cluster k = s.ctx.cluster k) ∧ (∀ v, v ≠ u → t.ctx.unit v = s.ctx.unit v)
    let asked (port : Nat) (x : Entry) : Entry :=
      { x with await := x.await ++ [(x.pos, n)], sentAt := x.sentAt ++ [s.dev.slow], via := x.via ++ [port], pos := x.pos + n }
    (cRemote d = none → windowHeld s.ctx src = false → windowHeld s.ctx dst = false → chunkRefused s.ctx (some src) (some dst) n = none →
      firstProtected s.ctx dst n = none →
      Completes (.dmaChunk (u / 8)) s fun t => t.bytes dst n = s.bytes src n ∧ KeepsMemoryBut dst n s t ∧ turned t ∧
        t.dev = { s.dev with units := t.dev.units, clusters := t.dev.clusters } ∧
        (t.ctx.unit u).dma.entries = updAt (s.ctx.unit u).dma.entries i (fun x => { x with pos := x.pos + n })) ∧
    (∀ pkg port line, cRemote d = some pkg → route s.ctx (dieOfUnit u) pkg s.dev.boot.pkg = some (port, line) →
      (cSrcRemote d = true → windowHeld s.ctx dst = false → chunkRefused s.ctx none (if cDstRemote d then none else some dst) n = none →
        (cDstRemote d = false → firstProtected s.ctx dst n = none) →
        Completes (.dmaChunk (u / 8)) s fun t => t.mem = s.mem ∧ turned t ∧
          t.dev = { s.dev with units := t.dev.units, clusters := t.dev.clusters, outbox := t.dev.outbox } ∧
          t.dev.outbox = s.dev.outbox ++ [.remoteRequest pkg u src n false [] false] ∧
          (t.ctx.unit u).dma.entries = updAt (s.ctx.unit u).dma.entries i (asked port)) ∧
      (cSrcRemote d = false → windowHeld s.ctx src = false → chunkRefused s.ctx (some src) none n = none →
        Completes (.dmaChunk (u / 8)) s fun t => t.mem = s.mem ∧ turned t ∧
          t.dev = { s.dev with units := t.dev.units, clusters := t.dev.clusters, outbox := t.dev.outbox } ∧
          t.dev.outbox = s.dev.outbox ++ [.remoteRequest pkg u dst n true (s.bytes src n) false] ∧
          (t.ctx.unit u).dma.entries = updAt (s.ctx.unit u).dma.entries i (asked port)))

/-- The oldest remote request of a copy is answered: read data land at the chunk's destination and nowhere else; an answered write changes no byte
here; a refusal or poisoned data end the copy. With no answer to one of its requests within RESP_TIMEOUT the copy has been refused.
Completes: REMOTE_RESPONSE, RESP_TIMEOUT. -/
def Obligations.RemoteAnswersReachTheCopy : Prop :=
  ∀ (s : State) (u i pos n : Nat) (e : Entry) (rest : List (Nat × Nat)) (data : List Byte) (poison : Bool), u < 512 →
    findActive s.ctx u 2 0x30 (fun e => !e.await.isEmpty) = some (i, e) → e.await = (pos, n) :: rest →
    let d := e.desc
    let dst := cDst d + pos / cRowBytes d * cDstStride d + pos % cRowBytes d
    let answered (f : Entry → Entry) (t : State) : Prop := OnlyUnit u s t ∧
      (t.ctx.unit u).dma.entries = updAt (s.ctx.unit u).dma.entries i (fun x =>
        f { x with await := rest, sentAt := x.sentAt.drop 1, via := x.via.drop 1 })
    (unitLive s.ctx u = true →
      Completes (.remoteResponse u true data poison) s (fun t => t.mem = s.mem ∧ answered (fun x => { x with remoteRefused := true }) t) ∧
      (cSrcRemote d = false → Completes (.remoteResponse u false data poison) s fun t => t.mem = s.mem ∧ answered id t) ∧
      (cSrcRemote d = true →
        Completes (.remoteResponse u false data true) s fun t => t.mem = s.mem ∧ answered (fun x => { x with poison := true }) t) ∧
      (cSrcRemote d = true → data.length = n → windowHeld s.ctx dst = false → chunkRefused s.ctx none (some dst) n = none →
        firstProtected s.ctx dst n = none → Clean s →
        Completes (.remoteResponse u false data false) s fun t => t.bytes dst n = data ∧ KeepsMemoryBut dst n s t ∧ answered id t)) ∧
    ((∃ x ∈ e.sentAt, (s.ctx.linkCfg (dieOfUnit u)).respTimeout ≤ s.dev.slow - x) →
      Completes (.respTimeout u) s fun t => t.mem = s.mem ∧ OnlyUnit u s t ∧
        (t.ctx.unit u).dma.entries = updAt (s.ctx.unit u).dma.entries i (fun x =>
          { x with await := [], sentAt := [], via := [], remoteRefused := true }))

/-- Another package's access over a port that is UP or DEGRADED, to an area it may reach: a read is answered with the bytes, a write stores
them and nothing else and is answered; one whole cache block in a SERVE job is a T2 block held for its sender. Completes: REMOTE_ACCESS_REQUEST. -/
def Obligations.RemoteAccessIsServed : Prop :=
  ∀ (s : State) (p src a n : Nat) (data : List Byte), p < 36 → src < 2 ^ 18 → a < 2 ^ 48 → n < 2 ^ 32 → n ≠ 0 → Clean s →
    ((s.ctx.port p).state = 2 ∨ (s.ctx.port p).state = 3) → s.dev.safe.safe = false → refusesFrom s.ctx src = false →
    (remoteAllowed s.ctx a n false = true →
      Completes (.remoteAccessRequest p src a n false [] false) s fun t => t.mem = s.mem ∧
        t.dev = { s.dev with outbox := s.dev.outbox ++ [.remoteResponse src p false (s.bytes a n) false] }) ∧
    (remoteAllowed s.ctx a n true = true → isT2Block s.ctx src n true = false → firstProtected s.ctx a n = none → data.length = n →
      Completes (.remoteAccessRequest p src a n true data false) s fun t => t.bytes a n = data ∧ KeepsMemoryBut a n s t ∧
        t.dev = { s.dev with job := t.dev.job, outbox := s.dev.outbox ++ [.remoteResponse src p false [] false] }) ∧
    (remoteAllowed s.ctx a n true = true → isT2Block s.ctx src n true = true → s.dev.job.overQuota = false → firstProtected s.ctx a n = none →
      data.length = n →
      Completes (.remoteAccessRequest p src a n true data false) s fun t => t.bytes a n = data ∧ KeepsMemoryBut a n s t ∧
        t.dev = { s.dev with job := t.dev.job, srv := t.dev.srv, outbox := s.dev.outbox ++ [.remoteResponse src p false [] false] } ∧
        t.dev.srv = { s.dev.srv with t2Held := if s.dev.srv.t2Held.contains (src, a) then s.dev.srv.t2Held else s.dev.srv.t2Held ++ [(src, a)] })

/-- The scrubbers read word by word and page by page, round and round; where no codeword holds errors nothing else changes. A starving request
joins the round robin until the scrubber's next access. Completes: UM_PATROL_SCRUB, LP_PATROL_SCRUB, SCRUB_STARVATION. -/
def Obligations.PatrolScrubVisitsEveryWord : Prop :=
  ∀ (s : State) (u ch : Nat), u < 512 → ch < 128 → s.dev.errs = [] →
    ((s.ctx.unit u).resetting = false →
      Completes (.umPatrolScrub u) s fun t => t.mem = s.mem ∧ OnlyUnit u s t ∧
        t.ctx.unit u = { s.ctx.unit u with scrub := ((s.ctx.unit u).scrub + 1) % 786432, scrubJoins := false }) ∧
    ((s.ctx.die (ch / 32)).trained = true →
      Completes (.lpPatrolScrub ch) s fun t => t.mem = s.mem ∧ t.dev = { s.dev with dies := t.dev.dies } ∧
        (∀ d, d ≠ ch / 32 → t.ctx.die d = s.ctx.die d) ∧
        t.ctx.die (ch / 32) = { s.ctx.die (ch / 32) with
          scrub := Tab.set (s.ctx.die (ch / 32)).scrub (ch % 32) ((Tab.get 0 (s.ctx.die (ch / 32)).scrub (ch % 32) + 1) % 2 ^ 24) }) ∧
    Completes (.scrubStarvation u) s fun t => t.mem = s.mem ∧ OnlyUnit u s t ∧
      t.ctx.unit u = { s.ctx.unit u with scrubJoins := true }

/-- A write to LPDDR5X lands where no page it touches is protected, and waits where one is. Once a protected page has its copy in staging, the
page is marked with the current generation, the copy holds its bytes, and a write that waited for this page alone lands. Completes: COW_FIRST_WRITE,
COW_PAGE_COPIED. -/
def Obligations.CowWriteWaitsForItsCopy : Prop :=
  ∀ (s : State) (a page dst : Nat) (data : List Byte), data ≠ [] → a + data.length ≤ lpSize → Clean s →
    (firstProtected s.ctx a data.length = none →
      Completes (.cowFirstWrite a data) s fun t => t.bytes a data.length = data ∧ KeepsMemoryBut a data.length s t ∧ t.dev = s.dev) ∧
    (firstProtected s.ctx a data.length ≠ none → s.dev.cow.waiting.contains (a, data) = false →
      Completes (.cowFirstWrite a data) s fun t => t.mem = s.mem ∧
        t.dev = { s.dev with cow := { s.dev.cow with waiting := s.dev.cow.waiting ++ [(a, data)] } }) ∧
    (page < 2 ^ 32 → protectedPage s.ctx page = true → s.dev.cow.waiting = [(a, data)] → pagesOf a data.length = [page] →
      stagingFree s.ctx = some dst → s.dev.safe.safe = false → (dst + 65536 ≤ a ∨ a + data.length ≤ dst) →
      Completes (.cowPageCopied page) s fun t => t.bytes dst 65536 = s.bytes (page * 65536) 65536 ∧ t.bytes a data.length = data ∧
        t.dev.cow = { s.dev.cow with
          pageGen := Tab.set s.dev.cow.pageGen page s.dev.cow.gen, staged := Tab.set s.dev.cow.staged page dst, waiting := [] })

/-- The streamer sends the next page of the set, from its copy where it has one: page address and 65,536 bytes go into the home slot and to the
buddy, and the page is marked as sent. With the last page the sheaf's digest is taken over the whole home slot. Completes: SHEAF_PAGE_SEND. -/
def Obligations.SheafStreamerSendsNextPage : Prop :=
  ∀ (s : State) (r : SheafRun) (page : Nat), s.dev.res.run = some r → r.sent < r.pages → furLive s.ctx 0 = true → Clean s →
    s.dev.cow.waiting = [] → s.dev.cow.early = [] → (scopePages s.ctx)[s.dev.cow.next]? = some page →
    let src := Tab.get (page * 65536) s.dev.cow.staged page
    let a := homeSlot s.ctx r.slot + recordOff s.dev.cow.next
    Completes .sheafPageSend s fun t =>
      t.bytes a 65544 = toBytes 8 (page * 65536) ++ s.bytes src 65536 ∧ KeepsMemoryBut a 65544 s t ∧
      t.dev.cow = { s.dev.cow with
        pageGen := Tab.set s.dev.cow.pageGen page s.dev.cow.gen, staged := Tab.del page s.dev.cow.staged, next := s.dev.cow.next + 1 } ∧
      Msg.sheafPage s.dev.res.buddy r.slot r.seq (s.dev.cow.next + 1) (page * 65536) (s.bytes src 65536) [] ∈ t.dev.outbox ∧
      (r.sent + 1 < r.pages → t.dev.res = { s.dev.res with run := some { r with sent := r.sent + 1 } }) ∧
      (r.sent + 1 = r.pages → ∃ x, t.dev.res.run = some x ∧ x.digestSent = true ∧
        x.digest = sha384Nat (t.bytes (homeSlot s.ctx r.slot) (sheafBytes r.pages)))

/-! ### Serving -/

/-- A SUBMIT taken while the job runs on is answered with the first status that applies: 0 and the request joins as `QUEUED`, or the refusal's
status and no request joins. Then the sequencer does its work. Completes: SUBMIT. -/
def Obligations.SubmitJoinsOrIsRefusedInOrder : Prop :=
  ∀ (s : State) (src : Source) (d : Desc), RecordReady s src d → rOpcode d = 1 → s.dev.job.ending = false →
    let c := recordTaken s src
    (submitStatus c d = 0 ↔ submitOk c d = true ∧ c.req? (rId d) = none ∧ (variantOf c (sVariant d)).valid = true ∧
      submitDisabled c d = false ∧ sPromptLen d + 1 ≤ sMaxLen d ∧ sMaxLen d ≤ c.srv.maxLenLimit ∧
      admits c false [] [] (requestOf c d 0) = true ∧ c.srv.reqs.length < 32768) ∧
    (submitStatus c d = 0 → Completes (.submit src d) s fun t =>
      AfterSequencer s (reply src (rId d) 1 0 (c.updSrv (fun v =>
        { v with stamp := v.stamp + 1, reqs := v.reqs ++ [requestOf c d v.stamp] }))) t) ∧
    (submitStatus c d ≠ 0 → Completes (.submit src d) s fun t => AfterSequencer s (reply src (rId d) 1 (submitStatus c d) c) t)

/-- A well-formed CANCEL of a request that is not final ends it as `CANCELLED`. For another, its newest forwarding entry passes the CANCEL on;
else it is answered: 11H completed, 12H final otherwise, 13H unknown. Completes: CANCEL. -/
def Obligations.CancelEndsTheRequest : Prop :=
  ∀ (s : State) (src : Source) (d : Desc), RecordReady s src d → rOpcode d = 2 → s.dev.job.ending = false →
    (zeroBytes d 1 3 && zeroBytes d 8 63) = true →
    let c := recordTaken s src
    (∀ r, c.req? (rId d) = some r →
      let c1 := if r.state = 3 && r.cause = 3 then c.send (.abandon r.decodePkg r.id) else c
      Completes (.cancel src d) s fun t => AfterSequencer s (reply src (rId d) 2 0x10 (finalize r 6 0x10 c1)) t) ∧
    (c.req? (rId d) = none →
      let mine := s.dev.srv.ledger.filter (fun e => e.id == rId d)
      (∀ pkg, mine.reverse.findSome? (fun e => e.forward) = some pkg →
        Completes (.cancel src d) s fun t => AfterSequencer s (c.send (.cancel pkg (rId d))) t) ∧
      (mine.all (fun e => e.forward.isNone) = true →
        Completes (.cancel src d) s fun t => AfterSequencer s (reply src (rId d) 2
          (if mine = [] then 0x13 else if mine.any (fun e => e.state == 5) then 0x11 else 0x12) c) t))

/-- A well-formed INPUT that fits is taken by a conversation waiting in T0, whose next turn begins, or by a paused one, which holds it behind
the inputs it has and becomes runnable. END completes a conversation that waits in T0. Completes: INPUT, END. -/
def Obligations.ConversationsTakeInputAndEnd : Prop :=
  ∀ (s : State) (src : Source) (d : Desc) (r : Req), RecordReady s src d → s.dev.job.ending = false →
    (recordTaken s src).req? (rId d) = some r →
    let c := recordTaken s src
    let a := fld d 16 0 48
    let n := fld d 24 0 32
    (rOpcode d = 3 → (zeroBytes d 1 3 && zeroBytes d 8 15 && zeroBytes d 22 23 && zeroBytes d 28 63 && promptOk c a n) = true →
      takesInput r = true → r.length + r.promptLeft + (r.inputs.map (fun p => p.2)).sum + n ≤ r.maxLen →
      (r.state = 4 → Completes (.input src d) s fun t => AfterSequencer s (reply src (rId d) 3 0
        (c.updReq r.id (fun x => { x with inputs := x.inputs ++ [(a, n)], runnable := true }))) t) ∧
      (r.state ≠ 4 → Completes (.input src d) s fun t => AfterSequencer s (reply src (rId d) 3 0
        (c.updReq r.id (fun x => { x with state := 1, promptAddr := a, promptLeft := n, turnEmitted := 0, turnOver := false }))) t)) ∧
    (rOpcode d = 4 → (zeroBytes d 1 3 && zeroBytes d 8 63) = true → waits r = true → r.state = 3 →
      Completes (.endTurn src d) s fun t => AfterSequencer s (reply src (rId d) 4 0 (finalize r 5 4 c)) t)

/-- A QUOTA within the image's value sets the holder's quota: not below its use, the holder is within quota; below it, OVER_QUOTA with a
reclaim to its limit. VARIANT_DISABLE starts the variant's drain. Completes: QUOTA, VARIANT_DISABLE. -/
def Obligations.QuotaAndVariantDisableTakeEffect : Prop :=
  ∀ (s : State) (src : Source) (d : Desc), RecordReady s src d → s.dev.job.ending = false →
    let c := recordTaken s src
    let ix := fld d 2 0 16
    let h : Holder := if fld d 1 0 8 = 0 then .variant ix else .tenant ix
    let n := fld d 8 0 32
    (rOpcode d = 5 → fld d 1 0 8 ≤ 1 → ix < (if fld d 1 0 8 = 0 then 1024 else 256) → (zeroBytes d 4 7 && zeroBytes d 12 63) = true →
      s.dev.srv.quotaAdjust = true → n ≤ holderImage c h →
      (holderUse c (ofHolder h) ≤ n → Completes (.quota src d) s fun t =>
        AfterSequencer s (reply src (rId d) 5 0x14 (setHolder h n false none c)) t) ∧
      (n < holderUse c (ofHolder h) →
        Completes (.quota src d) s fun t =>
          AfterSequencer s (reply src (rId d) 5 0x14
            (reclaim h (setHolder h n true (some (s.dev.slow + s.dev.srv.reclaimLimit, false)) c))) t)) ∧
    (rOpcode d = 6 → fld d 1 0 8 = 0 → ix < 1024 → zeroBytes d 4 63 = true → (variantOf c ix).valid = true →
      Completes (.variantDisable src d) s fun t => AfterSequencer s (reply src (rId d) 6 0 (disableFn (.variant ix) c)) t)

/-- BUILD_STEP with work: the step in flight is made of the READY requests in scan order and the chunks that fit, with their worst case; nothing
is written to memory. Completes: BUILD_STEP. -/
def Obligations.BuildStepTakesReadyRequestsInOrder : Prop :=
  ∀ (s : State), seqRuns s.ctx = true → s.dev.job.ending = false → s.dev.srv.plan = none →
    let c0 := unblock s.ctx
    let b := (if s.dev.srv.role = 1 then [] else [0, 1, 2, 3].flatMap (scanOrder c0)).foldl (takeDecode c0) {}
    let prefill := sortBy (fun r => r.cls) (sortBy (fun r => r.admittedAt)
      (c0.srv.reqs.filter (fun r => r.state == 1 && r.admitted && !r.pauseDue && chunkRole c0 r)))
    let w := takeChunks c0 ((deadlineOf c0 (admittedSet c0)).getD 0) prefill b.variants (decodePart c0 b)
    (b.decodes ≠ [] ∨ w.1 ≠ []) →
    Completes .buildStep s fun t => t.mem = s.mem ∧ t.dev = { s.dev with srv := t.dev.srv } ∧
      t.dev.srv.plan = some { decodes := b.decodes, chunks := w.1, worst := w.2, since := s.dev.slow, overran := false, lost := false }

/-- A step whose results are all there commits whole: its entries, the step counter's rise, then the sequencer's work, the STATE
entries, each a free choice (log entry 77, the model's), and one batch to each destination. A step with failed requests ends only those, and does not count. Either way a variant whose expert weights were read poisoned
is disabled first. Completes: STEP_COMMIT. -/
def Obligations.StepCommitsWholeOrFailsItsRequests : Prop :=
  ∀ (s : State) (p : StepPlan) (results : List StepResult) (weights : List Nat), s.dev.srv.plan = some p → seqRuns s.ctx = true →
    weights.all (fun v => v < 1024) = true →
    let c0 := weightsPoisoned weights s.ctx
    (p.lost = false → resultsOk s.ctx p results = true →
      let c := stepRise (p.chunks.foldl (commitChunk results) (p.decodes.foldl (commitDecode results) c0))
      Completes (.stepCommit results { reqs := [], weights := weights }) s fun t => Becomes s (flushBatch false (stateEntries p (consider (planOver c)))) t) ∧
    (∀ r why, s.ctx.req? r = some why → inPlan s.ctx why.id = true →
      Completes (.stepCommit results { reqs := [(r, 0x20)], weights := weights }) s fun t =>
        AfterSequencer s (planOver ((finalize why 8 0x20 c0).updJob (fun j => { j with flown := j.flown + (s.dev.slow - p.since) }))) t)

/-- A step past its worst case, and a reclaim past its limit, are recorded once, each as a NOTE of die 0's management source. A conversation
waiting in T0 is paused after its class's PAUSE_IDLE, a cache whose time in its tier is over moves on to T2 or ends the request. A move that
has ended has copied the cache's blocks to their new places, or sent them to T2 with their CRC-32Cs; a cache back from T2 whose CRCs differ is
lost; the cache of a request in `SHIP` is followed by its TRANSFER. An owner may free a block it holds here. Completes: SRV_OVERRUN, RECLAIM_LATE,
PAUSE_IDLE, TTL_EXPIRY, TIER_MOVE_COMPLETE,
T2_FREE_REQUEST. -/
def Obligations.ServingTimersAndMovesTakeEffect : Prop :=
  (∀ (s : State) (p : StepPlan) (v : Nat) (lim : Nat), (s.ctx.coll 0).episodes.find? (fun p => p.1 == 42) = none →
      let noted (b : Nat) (t : State) : Prop := t.mem = s.mem ∧ (t.ctx.coll 0).status = setBit (s.ctx.coll 0).status 42 ∧
        (t.ctx.coll 0).cause = setBit (s.ctx.coll 0).cause b ∧ (t.ctx.coll 0).episodes = (s.ctx.coll 0).episodes
      (s.dev.srv.plan = some p → p.overran = false → p.worst < s.dev.slow - p.since →
        Completes .srvOverrun s fun t => noted 32 t ∧ t.dev.srv = { s.dev.srv with overrun := true, plan := some { p with overran := true } }) ∧
      ((variantOf s.ctx v).reclaim = some (lim, false) → seqRuns s.ctx = true → lim ≤ s.dev.slow →
        Completes (.reclaimLate (.variant v)) s fun t => noted 33 t ∧ t.dev.srv.reclaimLate = true ∧
          Tab.get {} t.dev.srv.variants v = { variantOf s.ctx v with reclaim := some (lim, true) })) ∧
  (∀ (s : State) (id owner block : Nat) (src dst : List Nat) (data : List (List Byte)) (r : Req), id < 2 ^ 32 →
      (src ++ dst).all (fun a => a < 2 ^ 48) = true → owner < 2 ^ 18 → s.ctx.req? id = some r → seqRuns s.ctx = true →
      let n := s.dev.srv.blockBytes
      let move : MoveEnd := { src := src, dst := dst, data := data }
      let done (c : Ctx) : Prop := Completes (.tierMoveComplete id move) s fun t => AfterSequencer s c t
      (r.state = 3 → r.cause = 2 → (classOf s.ctx r.cls).idle ≤ s.dev.slow - r.since →
        Completes (.pauseIdle id) s fun t => AfterSequencer s (pauseNow r false s.ctx) t) ∧
      (r.state = 4 → r.moving = none → r.tier = 1 → (classOf s.ctx r.cls).ttl1 ≤ s.dev.slow - r.since →
        Completes (.ttlExpiry id) s fun t => AfterSequencer s
          (if (classOf s.ctx r.cls).ttl2 = 0 then finalize r 7 0x11 s.ctx
           else if t2Room s.ctx r.blocks then startMove r.id 2 s.ctx else finalize r 7 0x12 s.ctx) t) ∧
      (r.state = 4 → r.moving = none → r.tier = 2 → (classOf s.ctx r.cls).ttl2 ≤ s.dev.slow - r.since →
        Completes (.ttlExpiry id) s fun t => AfterSequencer s (finalize r 7 0x11 s.ctx) t) ∧
      (r.hand ≠ 4 → moveTurn s.ctx r = true →
        (r.moving = some 0 → freshPlaces s.ctx r 0 dst = true →
          (r.tier = 2 → data.length = r.blocks → data.all (fun b => b.length == n) = true →
            done (if data.map crc32c = r.crcs
              then arriveT0 { r with addrs := dst } ((dst.zip data).foldl (fun a p => store p.1 p.2 a) s.ctx)
              else finalize r 8 0x20 s.ctx)) ∧
          (r.tier ≠ 2 → sourcePlaces s.ctx r 1 src = true →
            done (arriveT0 { r with addrs := dst } (copyBlocks n src dst s.ctx)))) ∧
        (r.moving = some 1 → fitsT1 s.ctx r = true → sourcePlaces s.ctx r 0 src = true → freshPlaces s.ctx r 1 dst = true →
          done (arriveTier { r with addrs := dst } 1 (copyBlocks n src dst s.ctx))) ∧
        (r.moving = some 2 → sourcePlaces s.ctx r r.tier src = true →
          let c1 := src.foldl (fun a x => eccRead x n a) s.ctx
          let blocks := blockData c1 src
          done (if src.any (fun x => poisonAt c1 x n) then finalize r 8 0x21 c1
            else arriveTier { r with addrs := [], crcs := blocks.map crc32c } 2
              (sendBlocks r.id (t2Pkg c1) (r.t2.map (t2Addr c1)) blocks c1)))) ∧
      (r.hand = 4 → moveTurn s.ctx r = true → sourcePlaces s.ctx r 0 src = true → placesApart n r.blocks dst = true →
        let c1 := src.foldl (fun a x => eccRead x n a) s.ctx
        let sent := (sendBlocks r.id (some r.decodePkg) dst (blockData c1 src) c1).updReq r.id (fun _ => { r with hand := 5, handAt := s.dev.slow })
        Completes (.tierMoveComplete id move) s fun t =>
          if src.any (fun x => poisonAt c1 x n) then AfterSequencer s (finalize r 8 0x21 c1) t
          else Becomes s (actionEnd (sent.send (.transfer r.decodePkg
            { req := r.id, emitted := r.emitted, turnEmitted := r.turnEmitted, length := r.length, dCur := r.dCur, zeroStreak := r.zeroStreak,
              fullStreak := r.fullStreak, seed := r.seed, dest := r.dest, destPkg := r.destPkg }))) t) ∧
      (refusesFrom s.ctx owner = false → Completes (.t2FreeRequest owner block) s fun t => t.mem = s.mem ∧
        t.dev.srv = { s.dev.srv with t2Held := s.dev.srv.t2Held.filter (fun p => !(p.1 == owner && p.2 == block)) } ∧
        t.dev = { s.dev with srv := t.dev.srv, job := t.dev.job }) ∧
      (refusesFrom s.ctx owner = true → Completes (.t2FreeRequest owner block) s fun t =>
        t = { s with dev := { s.dev with outbox := s.dev.outbox ++ [.refused owner] } }))

/-- On the prefill package GRANT lets the request in, DEFER keeps it queued until RETRY_CYCLES have passed, the acknowledged TRANSFER leaves a
forwarding entry. On the decode package a RESERVE that R380 admits joins as a queued record and is granted, any other is deferred; the
TRANSFER brings the request's counts and its cache's move into T0; a late or abandoned hand-off is freed. A package in reset, or whose
requests are frozen out here, gets a refusal for a RESERVE or TRANSFER. Completes: GRANT, DEFER, RETRY_CYCLES, TRANSFER_ACKNOWLEDGE,
RESERVE, TRANSFER, HANDOFF_TIMEOUT, ABANDON. -/
def Obligations.HandoffOnBothPackages : Prop :=
  (∀ (s : State) (id : Nat) (r : Req), id < 2 ^ 32 → s.ctx.req? id = some r → seqRuns s.ctx = true →
      let put (x : Req) : Ctx := s.ctx.updReq r.id (fun _ => x)
      (r.hand = 1 → Completes (.grant id) s fun t => AfterSequencer s (put { r with hand := 2 }) t) ∧
      (r.hand = 1 → Completes (.defer id) s fun t => Becomes s (actionEnd (put { r with hand := 3, handAt := s.dev.slow })) t) ∧
      (r.hand = 3 → s.dev.srv.retryCycles ≤ s.dev.slow - r.handAt →
        Completes (.retryCycles id) s fun t => AfterSequencer s (put { r with hand := 0 }) t) ∧
      (r.hand = 5 → Completes (.transferAcknowledge id) s fun t =>
        AfterSequencer s (dropReq r (ledgerAdd { id := r.id, state := r.state, forward := some r.decodePkg } s.ctx)) t)) ∧
  (∀ (s : State) (pkg : Nat) (m : Reserve) (x : Transfer) (id : Nat) (r : Req), pkg < 2 ^ 18 → id < 2 ^ 32 → seqRuns s.ctx = true →
      (let n := s.dev.srv.stamp
       let q : Req :=
        { id := m.req, cls := m.cls, converse := m.converse, spec := m.spec, sample := m.sample, variant := m.variant, tenant := m.tenant,
          dest := m.dest, destPkg := m.destPkg, maxNew := m.maxNew, maxLen := m.maxLen, stops := m.stops, dCur := s.dev.srv.dMax,
          admitted := true, admittedAt := n, acceptedAt := n, hand := 6, handAt := s.dev.slow, handPkg := pkg }
       let refused (p : Nat) (t : State) : Prop := t = { s with dev := { s.dev with outbox := s.dev.outbox ++ [.refused p] } }
       (refusesFrom s.ctx pkg = true → Completes (.reserve pkg m) s (refused pkg)) ∧
       (s.ctx.req? id = some r → r.hand = 6 → x.req = id → refusesFrom s.ctx r.handPkg = true →
          Completes (.transfer x) s (refused r.handPkg)) ∧
       (refusesFrom s.ctx pkg = false → s.dev.job.ending = false → s.ctx.req? m.req = none → (variantOf s.ctx m.variant).valid = true →
          isDisabled s.ctx (.variant m.variant) = false → s.dev.srv.reqs.length < 32768 →
          admits s.ctx true s.dev.srv.leaving (admittedSet s.ctx) q = true →
          Completes (.reserve pkg m) s fun t => AfterSequencer s
            ((s.ctx.updSrv (fun v => { v with stamp := n + 1, reqs := v.reqs ++ [q] })).send (.grant pkg m.req)) t) ∧
       (refusesFrom s.ctx pkg = false → admits s.ctx true s.dev.srv.leaving (admittedSet s.ctx) q = false →
          Completes (.reserve pkg m) s fun t => AfterSequencer s (s.ctx.send (.defer pkg m.req)) t)) ∧
      (s.ctx.req? id = some r → r.hand = 6 →
        (x.req = id → r.admitted = true → refusesFrom s.ctx r.handPkg = false →
          Completes (.transfer x) s fun t => AfterSequencer s (quotaCheck (startMove r.id 0
            ((s.ctx.send (.transferAck r.handPkg r.id)).updReq r.id (fun _ =>
              { r with
                emitted := x.emitted, turnEmitted := x.turnEmitted, length := x.length, dCur := x.dCur, zeroStreak := x.zeroStreak,
                fullStreak := x.fullStreak, seed := x.seed, dest := x.dest, destPkg := x.destPkg, hand := 7, tier := 1,
                since := s.dev.slow, state := 3, cause := 0 })))) t) ∧
        (s.dev.srv.handoffTimeout ≤ s.dev.slow - r.handAt →
          Completes (.handoffTimeout id) s fun t => AfterSequencer s (dropReq r s.ctx) t) ∧
        Completes (.abandon id) s fun t => AfterSequencer s (dropReq r s.ctx) t))

/-! ### Furrows -/

/-- Of the devices at most channel `k` of die `d`'s furrow engine, its rotation over the modules of a crossing, and the messages sent, changed. -/
def Sys2Proof.Machine.OnlyChannelRot (d k : Nat) (s t : State) : Prop :=
  OnlyDie d s t ∧ t.ctx.fur d = { s.ctx.fur d with chans := (t.ctx.fur d).chans, rot := (t.ctx.fur d).rot } ∧
  ∀ j, j ≠ k → t.ctx.chan d j = s.ctx.chan d j

/-- The descriptor at PC of a WAITING channel, its trigger met, has its effect: FUR_LOOP returns to entry 0 with ITER one on; FUR_COMMIT
writes the step latch and clears it; FUR_REDUCE and FUR_SCALE start: headers to every ring, and the words this die begins, which a crossing's
four modules take in turn. Completes: FUR_LOOP, FUR_COMMIT, FUR_REDUCE, FUR_SCALE. -/
def Obligations.FurChannelTakesItsDescriptor : Prop :=
  ∀ (s : State) (d k : Nat) (D : Desc), chanOk d k = true → nextDesc s.ctx d k = some D → (s.ctx.chan d k).state = 1 → Clean s →
    let x := s.ctx.chan d k
    let f := s.ctx.fur d
    (hOpcode D = 0x43 →
      Completes (.furLoop d k) s fun t => t.mem = s.mem ∧ OnlyChannel d k s t ∧ t.dev.outbox = s.dev.outbox ∧
        t.ctx.chan d k = { x with pc := 0, iter := min 0x7FFFFFFF (x.iter + 1), iterSticky := x.iterSticky || decide (0x7FFFFFFF ≤ x.iter) }) ∧
    (trigger D x.iter ≤ evtWord s.ctx (notifyUnit d D) (uWaitEvt D) →
      (let v := umBase (notifyUnit d D) + uCondOff D
       hOpcode D = 0x42 → commitOk D = true → furReach s.ctx true v 1 = true →
       (hCpl D = true → furReach s.ctx true (umBase (notifyUnit d D) + uCplOff D) 64 = true) →
        (atSheafPoint s.ctx d = true → Completes (.furCommit d k) s fun t => t.mem = s.mem ∧ OnlyDie d s t ∧ t.dev.outbox = s.dev.outbox ∧
          t.ctx.fur d = { f with held := some (k, x.iter) }) ∧
        (atSheafPoint s.ctx d = false → Completes (.furCommit d k) s fun t => Becomes s (commitDo d k D x.iter s.ctx) t) ∧
        (atSheafPoint s.ctx d = false → d ≠ 0 → (f.latch && f.nanPolicy) = false → hCpl D = false → hSig D = false →
          Completes (.furCommit d k) s fun t =>
          t.byte v = BitVec.ofNat 8 (b2n f.latch) ∧ KeepsMemoryBut v 1 s t ∧
          OnlyDie d s t ∧ t.dev.outbox = s.dev.outbox ∧ (t.ctx.fur d).latch = false ∧ (t.ctx.fur d).held = none ∧
          (t.ctx.fur d).skipCount = (if f.latch then min 65535 (f.skipCount + 1) else f.skipCount) ∧
          (∀ j, j ≠ k → t.ctx.chan d j = s.ctx.chan d j) ∧
          t.ctx.chan d k = { x with pc := x.pc + 1, state := if x.len ≤ x.pc + 1 then 0 else 1 })) ∧
      ∀ i ∈ [((0x40 : Nat), Instr.furReduce d k), (0x41, .furScale d k)],
        let g := geoOf s.ctx d D
        let words := (ownersAt g 0 0 (fun b => d == (b + 1) % 4)).flatMap (wordsOfOwner s.ctx D g)
        hOpcode D = i.1 → uCondEn D = false → groupOk s.ctx d (uGroup D) = true → portGone s.ctx d (uGroup D) = false →
        reduceOk D = true → furReach s.ctx false (listSpan D).1 (listSpan D).2 = true → listsOk s.ctx D = true →
        (∀ p ∈ furSpans s.ctx d D g, furReach s.ctx p.1 p.2.1 p.2.2 = true) → sums? D = true →
        let next := (d + 1) % 4
        let module (i : Nat) : FurHop := .crossing (4 * (if next < d then next else next - 1) + (f.rot + i) % 4) next
        let headers := (usedLevels D g).map (fun l => Msg.furHeader d k (hopOf s.ctx d k (uGroup D) l) (headerOf s.ctx D g l))
        let started := { s.ctx.updChan d k (fun x => { x with state := 2, run := some { desc := D, iter := x.iter, since := s.dev.slow } }) with
          dev := { (s.ctx.updChan d k (fun x => { x with state := 2, run := some { desc := D, iter := x.iter, since := s.dev.slow } })).dev with
            outbox := s.dev.outbox ++ headers } }
        Completes i.2 s fun t => t.mem = s.mem ∧ OnlyChannelRot d k s t ∧
          t.dev = (words.foldl (fun a e => sendWord d k D (contributionWord s.ctx D g 0 e) a) started).dev ∧
          t.ctx.chan d k = { x with state := 2, run := some { desc := D, iter := x.iter, since := s.dev.slow } } ∧
          (uFormat D ≠ 9 → (t.ctx.fur d).rot % 4 = (f.rot + words.length) % 4 ∧
            t.dev.outbox = s.dev.outbox ++ headers ++ (List.range words.length).map (fun i =>
              Msg.furWord d k (module i) (contributionWord s.ctx D g 0 (words.getD i 0)))))

/-- A travelling partial sum has this die's part added, the travelling word first, and goes to the next die; a finished word that travels
round a ring is written at the destination. When every word has been taken and the counts exchanged, the reduction completes with the
exponents written. Completes: HEADLAND_ADD, FUR_SUMMARY_EXCHANGE. -/
def Obligations.FurWordsAddTravelAndLand : Prop :=
  ∀ (s : State) (d k : Nat) (w : FurWord) (others : FurCounts) (r : FurRun), chanOk d k = true → w.level < 4 →
    (s.ctx.chan d k).run = some r → furLive s.ctx d = true →
    let x := s.ctx.chan d k
    let g := geoOf s.ctx d r.desc
    let o := g.ownerOf w.first
    let r1 : FurRun := { r with taken := (w.level, w.gather, w.first) :: r.taken, since := s.dev.slow }
    let reached := ∀ p ∈ wordSpans s.ctx r.desc g w, furReach s.ctx p.1 p.2.1 p.2.2 = true
    (wordTaken s.ctx r g w = true → reached → w.gather = false → w.level = 0 → g.pos 0 ≠ g.ownerPos o 0 →
      let own := contributionWord s.ctx r.desc g 0 w.first
      Completes (.headlandAdd d k w) s fun t => t.mem = s.mem ∧ OnlyChannelRot d k s t ∧
        t.dev.outbox = s.dev.outbox ++ [Msg.furWord d k (hopOf s.ctx d k (uGroup r.desc) 0) (addWord r.desc w own)] ∧
        (addWord r.desc w own).elems = headland r.desc w.elems own.elems ∧ (addWord r.desc w own).poison = (w.poison || own.poison) ∧
        (t.ctx.fur d).rot = ((s.ctx.fur d).rot + crossingWords r.desc (addWord r.desc w own)) % 4 ∧
        t.ctx.chan d k = { x with run := some { r1 with
          sums := r.sums.filter (fun s => !(s.level == w.level && s.first == w.first)) } }) ∧
    (wordTaken s.ctx r g w = true → reached → w.gather = true → w.poison = false → uScale r.desc = false → Clean s →
      firstProtected s.ctx (resultSpan r.desc g w.first).1 (resultSpan r.desc g w.first).2 = none →
      let a := dstAddr r.desc g w.first
      let data := w.elems.flatMap (toBytes (dstWidth r.desc))
      Completes (.headlandAdd d k w) s fun t => t.bytes a data.length = data ∧ KeepsMemoryBut a data.length s t ∧ OnlyChannel d k s t ∧
        ((t.ctx.chan d k).run.map (fun q => q.taken)) = some r1.taken) ∧
    (∀ n, agreedCounts s.ctx d k r others = some n → r.exps.all (fun p => furReach s.ctx true (uAux r.desc + p.1) 1) = true →
      r.exps.find? (fun p => (firstProtected s.ctx (uAux r.desc + p.1) 1).isSome) = none →
      let lit := uGrad r.desc && (n.nan != 0 || n.poisonWords != 0)
      let c0 := writeExps r.desc r.exps r.badExps s.ctx
      let sent := (usedLevels r.desc g).map (fun l => Msg.furCounts d k (hopOf c0 d k (uGroup r.desc) l) r.counts)
      let c1 := [0, 1, 2, 3].foldl (fun a e => updRun e k (fun q => { q with agreed := some n }) a)
        { c0 with dev := { c0.dev with outbox := c0.dev.outbox ++ sent } }
      let c2 := if lit then c1.updFur d (fun f => { f with latch := true }) else c1
      Completes (.furSummaryExchange d k others) s fun t => Becomes s (furEnd d k r.desc r.iter 0 n false c2) t ∧
        (hCpl r.desc = false → hSig r.desc = false → x.state = 2 → Clean s →
          Wrote s c0 t ∧ t.dev = { c0.dev with furrows := t.dev.furrows, outbox := c0.dev.outbox ++ sent } ∧ (t.ctx.fur d).latch = ((s.ctx.fur d).latch || lit) ∧
          (∀ j, j ≠ k → t.ctx.chan d j = s.ctx.chan d j) ∧
          t.ctx.chan d k = { x with pc := x.pc + 1, run := none, state := if x.len ≤ x.pc + 1 then 0 else 1 }))

/-- A header that fits is noted. A header of other fields, a stale epoch, a peer's abort and a timeout end the reduction, halt its channel
with their status, and send a peer abort on every ring of the group. A channel disabled takes nothing new. Completes: FUR_HEADER,
FUR_PEER_ABORT, FUR_TIMEOUT, FUR_CHANNEL_DISABLE. -/
def Obligations.FurReductionsStopWithTheirStatus : Prop :=
  ∀ (s : State) (d k : Nat) (h : FurHeader), chanOk d k = true →
    let x := s.ctx.chan d k
    (∀ r : FurRun, x.run = some r → furLive s.ctx d = true → hOpcode r.desc ≠ 0x43 →
      let g := geoOf s.ctx d r.desc
      let after (st : Nat) : Ctx := sendAbort d k (uGroup r.desc) (furEnd d k r.desc r.iter st noCounts false s.ctx)
      let stopped (st : Nat) (t : State) : Prop := hCpl r.desc = false → hSig r.desc = false → t.mem = s.mem ∧ OnlyChannel d k s t ∧
        t.dev.outbox = s.dev.outbox ++
          (ringLevels s.ctx d (uGroup r.desc)).map (fun l => Msg.peerAbort d k (hopOf s.ctx d k (uGroup r.desc) l)) ∧
        t.ctx.chan d k = { x with
          pc := x.pc + 1, run := none, state := if x.state = 4 then 4 else 3, haltStatus := st, haltTag := hTag r.desc }
      (headerFits r.desc g h = true → h.epoch = s.dev.epoch → Completes (.furHeader d k h) s fun t => t.mem = s.mem ∧ OnlyChannel d k s t ∧
        t.dev.outbox = s.dev.outbox ∧ t.ctx.chan d k = { x with run := some { r with
          headers := if r.headers.contains h.level then r.headers else r.headers ++ [h.level], since := s.dev.slow } }) ∧
      (headerFits r.desc g h = false → Completes (.furHeader d k h) s fun t => Becomes s (after 0x41) t ∧ stopped 0x41 t) ∧
      (headerFits r.desc g h = true → h.epoch ≠ s.dev.epoch →
        Completes (.furHeader d k h) s fun t => Becomes s (after 0x42) t ∧ stopped 0x42 t) ∧
      Completes (.furPeerAbort d k) s (fun t => Becomes s (after 0x44) t ∧ stopped 0x44 t) ∧
      ((s.ctx.fur d).timeout ≤ s.dev.slow - r.since → Completes (.furTimeout d k) s fun t =>
        Becomes s ((lateTrays s.ctx d r).foldl (fun a t => sendNotice t 3 a) (after 0x43)) t ∧ (lateTrays s.ctx d r = [] → stopped 0x43 t))) ∧
    (x.state = 1 ∨ x.state = 2 → Completes (.furChannelDisable d k) s fun t => t.mem = s.mem ∧
      t.ctx.chan d k = { x with state := 4 } ∧ t.dev = { s.dev with furrows := t.dev.furrows, job := t.dev.job } ∧
      (∀ j, j ≠ k → t.ctx.chan d j = s.ctx.chan d j) ∧ (s.dev.job.running = false → t.dev.job = s.dev.job) ∧
      (s.dev.job.running = true → isDisabled s.ctx (.furrow d k) = false → t.dev.job = { s.dev.job with
        drains := s.dev.job.drains ++ [{ fn := .furrow d k, since := s.dev.slow, limit := s.dev.job.drainLimit }] }))

/-! ### Jobs -/

/-- The controller takes the waiting mailbox command: its reply names the OP and the code, and BUSY clears. START starts the job, or is refused
with the first code that applies; STOP is an end cause; QUOTA sets the job's memory quota; anything else is turned away. Completes:
MBOX_START, MBOX_STOP, MBOX_QUOTA, MBOX_BAD_COMMAND. -/
def Obligations.MailboxCommandsAreAnswered : Prop :=
  ∀ (s : State) (v : Nat), s.dev.stw.mboxPending = some v → ctlRuns s.ctx = true →
    let answered (code : Nat) (t : State) : Prop :=
      t.dev.stw.replyCode = code ∧ t.dev.stw.replyOp = v % 256 ∧ t.dev.stw.busy = false ∧ t.dev.stw.mboxPending = none ∧
      t.dev.stw.irq = s.dev.stw.irq ||| 2 ^ 8
    let quiet (t : State) : Prop := t.mem = s.mem ∧
      t.dev = { s.dev with job := t.dev.job, stw := t.dev.stw, cores := t.dev.cores, outbox := t.dev.outbox }
    let live := s.dev.job.running && !s.dev.job.ending
    (mboxKind v = 1 →
      (startRefusal true (bits v 8 6) s.ctx = 0 →
        Completes .mboxStart s fun t => Becomes s (mboxReply (v % 256) 0 (startAccept (bits v 8 6) s.ctx)) t) ∧
      (∀ code, startRefusal true (bits v 8 6) s.ctx = code → code ≠ 0 → Completes .mboxStart s fun t => answered code t ∧ quiet t ∧
        t.dev.job = { s.dev.job with refusal := code })) ∧
    (mboxKind v = 2 →
      (live = true → Completes .mboxStop s fun t => answered 0 t ∧ quiet t ∧
        t.dev.job = { s.dev.job with ending := true, endCode := 1, endedAt := s.dev.slow }) ∧
      (live = false → Completes .mboxStop s fun t => answered 0x20 t ∧ quiet t ∧ t.dev.job = s.dev.job)) ∧
    (mboxKind v = 3 →
      (live = true → bits v 32 32 ≤ s.dev.job.memQuota → Completes .mboxQuota s fun t =>
        Becomes s (mboxReply (v % 256) 0 (quotaCheck (s.ctx.updJob (fun j => { j with quota := bits v 32 32 })))) t) ∧
      ((live = true → s.dev.job.memQuota < bits v 32 32) → Completes .mboxQuota s fun t => answered 0x21 t ∧ quiet t ∧
        t.dev.job = s.dev.job)) ∧
    (mboxKind v = 0 → Completes .mboxBadCommand s fun t => answered 0x22 t ∧ quiet t ∧ t.dev.job = s.dev.job)

/-- A job accepted runs when its loads have ended: its cores are released in one cycle and every channel with a program waits at entry 0. Its
limits are end causes. Its end stops the work once it has drained or DRAIN_LIMIT has passed, then is reported once every record is written. A
disabled function's drain ends with what remains aborted. Completes: JOB_RELEASE, TIME_LIMIT, JOB_STALLED, JOB_DRAIN_COMPLETE,
JOB_DRAIN_LIMIT, JOB_END_REPORT, DISABLE_DRAIN_LIMIT. -/
def Obligations.JobsReleaseLimitAndEnd : Prop :=
  ∀ (s : State) (fn : DisFn), let j := s.dev.job
    (j.running = true → j.released = false → j.ending = false → s.dev.safe.safe = false → s.dev.res.restore = 0 →
      loadsEnded s.ctx = true → s.dev.units.any (fun p => p.2.resetting) = false → s.dev.res.present = false →
      Completes .jobRelease s fun t => Wrote s (epochAll (admitAll s.ctx)) t ∧
        t.dev = { (epochAll (admitAll s.ctx)).dev with furrows := t.dev.furrows, job := t.dev.job } ∧
        t.dev.job = { j with released := true, releasedAt := s.dev.slow, stepAt := s.dev.slow, stepStart := s.dev.slow } ∧
        ∀ d k, d < 4 → (s.ctx.chan d k).len ≠ 0 →
          (t.ctx.chan d k).state = 1 ∧ (t.ctx.chan d k).pc = 0 ∧ (t.ctx.chan d k).iter = 0 ∧ (t.ctx.chan d k).run = none) ∧
    (limitsCount s.ctx = true → j.timeLimit ≠ 0 → j.timeLimit ≤ s.dev.slow - j.releasedAt → Completes .timeLimit s fun t =>
      t.mem = s.mem ∧ t.dev = { s.dev with job := { j with ending := true, endCode := 2, endedAt := s.dev.slow } }) ∧
    (limitsCount s.ctx = true → j.stallLimit ≠ 0 → j.stallLimit ≤ stalledFor s.ctx → Completes .jobStalled s fun t =>
      t.mem = s.mem ∧ t.dev = { s.dev with job := { j with ending := true, endCode := 0x13, endedAt := s.dev.slow } }) ∧
    (j.ending = true → j.stopped = false → s.dev.safe.safe = false →
      (drainsCode j.endCode = false ∨ workDrained s.ctx = true →
        Completes .jobDrainComplete s fun t => Becomes s (jobStopNotice s.ctx) t) ∧
      (drainsCode j.endCode = true → j.drainLimit < s.dev.slow - j.endedAt →
        Completes .jobDrainLimit s fun t => Becomes s (jobStopNotice s.ctx) t)) ∧
    (j.ending = true → j.stopped = true → s.dev.safe.safe = false → (flushBatch true s.ctx).srv.batch = [] →
      (j.endCode = 0 → Completes .jobEndReport s fun t => Becomes s (autoStart 2 j.index (jobReport (flushBatch true s.ctx))) t) ∧
      (j.endCode ≠ 0 → Completes .jobEndReport s fun t => Wrote s (flushBatch true s.ctx) t ∧
        t.dev.job = { j with running := false, ending := false, overQuota := false, areas := [] } ∧
        t.dev.stw.endIndex = j.index ∧ t.dev.stw.endCode = j.endCode ∧ t.dev.stw.endStep = j.step ∧ bit t.dev.stw.irq 9 = true ∧
        t.dev.frozenRemotes = [])) ∧
    (∀ d, fn.wf = true → j.drains.find? (fun d => d.fn == fn) = some d → s.dev.safe.safe = false → j.ending = false →
      (workLeft s.ctx fn = false ∨ d.limit < s.dev.slow - d.since) → Completes (.disableDrainLimit fn) s fun t =>
        Becomes s ((abortWork fn s.ctx).updJob (fun j => { j with
          drains := j.drains.filter (fun x => x.fn != fn), disabled := j.disabled ++ [fn] })) t ∧
        fn ∈ t.dev.job.disabled)

/-! ### Links -/

/-- A trained port sends, in each flit time, a flit to be replayed, else a data flit against a credit with the next SEQ, else a null flit;
each carries the link word. It takes the data flit next in order: its own is delivered, a transit flit goes to its next port with one hop
less, and its buffer is returned. Every good flit's link word frees what it acknowledges and returns credits; a NAK replays the rest, a bad
flit opens a discard episode. The 256 bytes of a flit are those of Tables 12-2 and 12-3, its CRC among them. Completes: FLIT_SEND,
DATA_FLIT_RECEIVE, NULL_FLIT, NAK. -/
def Obligations.LinkFlitsAreSentAndTakenInOrder : Prop :=
  ∀ (s : State) (p : Nat) (f : Flit) (raw : List Byte) (fec : Bool) (lw : LinkWord), p < 36 → f.wf = true → lw.wf = true →
    raw.length = 256 → (s.ctx.port p).trained = true →
    let x := s.ctx.port p
    let l := x.link
    let w := (linkWordMake l).1
    let l1 := (linkWordMake l).2
    let sent (f : Flit) (seq : Nat) : Flit :=
      { f with seq := seq, ack := w.ack, creditVc := w.creditVc, creditCls := w.creditCls, credit := w.credit, nak := w.nak }
    let taken (v : LinkWord) : LinkLayer := { l with
      replay := unacked l.replay v.ack
      resend := unacked l.resend v.ack
      replayFails := if (unacked l.replay v.ack).length < l.replay.length then 0 else l.replayFails
      used := Tab.set l.used (vcIdx v.creditVc v.creditCls) (Tab.get 0 l.used (vcIdx v.creditVc v.creditCls) - v.credit) }
    let fw : LinkWord := { ack := f.ack, creditVc := f.creditVc, creditCls := f.creditCls, credit := f.credit, nak := f.nak }
    let inOrder : LinkLayer := { taken fw with rxNext := (l.rxNext + 1) % 4096, discarding := false }
    ((flitBytes f).length = 256 ∧ crcGood (flitBytes f) = true ∧ flitOf (flitBytes f) = some f) ∧
    (∀ g rest, l.resend = g :: rest → Completes (.flitSend p []) s fun t => OnlyPort p s t ∧
      t.ctx.port p = { x with link := { l1 with resend := rest } } ∧ t.dev.outbox = s.dev.outbox ++ [.flit p (sent g g.seq)]) ∧
    (l.resend = [] → (4095 ≤ l.replay.length ∨ nextFlit s.ctx p = none) → Completes (.flitSend p []) s fun t => OnlyPort p s t ∧
      t.ctx.port p = { x with link := l1 } ∧ t.dev.outbox = s.dev.outbox ++ [.nullFlit p w]) ∧
    (∀ q turn n, l.resend = [] → l.replay.length < 4095 → nextFlit s.ctx p = some (q, turn, n) → q.origin = none →
      Completes (.flitSend p []) s fun t => OnlyPort p s t ∧ t.dev.outbox = s.dev.outbox ++ [.flit p (sent q.flit l.txSeq)] ∧
        t.ctx.port p = { x with link := { l1 with
          txq := l1.txq.erase q, replay := l1.replay ++ [sent q.flit l.txSeq], txSeq := (l.txSeq + 1) % 4096
          used := Tab.set l1.used (vcIdx q.flit.vc q.flit.cls) (Tab.get 0 l1.used (vcIdx q.flit.vc q.flit.cls) + 1), turn := turn
          turnSent := n } }) ∧
    (∀ q turn n o k, l.resend = [] → l.replay.length < 4095 → nextFlit s.ctx p = some (q, turn, n) → q.origin = some (o, k) → o ≠ p →
      Completes (.flitSend p []) s fun t => t.mem = s.mem ∧ t.dev.outbox = s.dev.outbox ++ [.flit p (sent q.flit l.txSeq)] ∧
        Tab.get 0 (t.ctx.port o).link.owed k = Tab.get 0 (s.ctx.port o).link.owed k + 1) ∧
    (∀ own : List (Nat × Flit), own.all (fun m => m.1 < 4 && m.2.wf) = true → Completes (.flitSend p own) s fun t =>
      Becomes s (flitSendOp p [] (ownFlits p own s.ctx)) t) ∧
    (crcGood raw = true → flitOf raw = some f → f.nak = false → f.seq = l.rxNext → vcOpen s.ctx p f.vc = true →
      (forUs s.ctx f = true → Completes (.dataFlitReceive p raw true) s fun t => OnlyPort p s t ∧
        t.dev.outbox = s.dev.outbox ++ [.delivered p f] ∧
        t.ctx.port p = { x with link := { inOrder with
          owed := Tab.set l.owed (vcIdx f.vc f.cls) (Tab.get 0 l.owed (vcIdx f.vc f.cls) + 1) } }) ∧
      (∀ q line, forUs s.ctx f = false → s.dev.safe.safe = false → f.hops ≠ 1 → f.hops ≠ 0 → routeVc s.ctx (p / 9) f.vc f.dst f.src = some (q, line) →
        let cls := if line then 1 else if phaseAt x.partner.pkg f.dst < phaseAt s.dev.boot.pkg f.dst then 0 else f.cls
        Completes (.dataFlitReceive p raw true) s fun t => t.mem = s.mem ∧ t.dev = { s.dev with ports := t.dev.ports } ∧
          (t.ctx.port q).link.txq = (s.ctx.port q).link.txq ++
            [{ flit := { f with hops := f.hops - 1, cls := cls }, origin := some (p, vcIdx f.vc f.cls) }] ∧
          (t.ctx.port p).link.rxNext = (l.rxNext + 1) % 4096 ∧ (∀ k, k ≠ p → k ≠ q → t.ctx.port k = s.ctx.port k))) ∧
    (crcGood raw = true → flitOf raw = some f → f.nak = false → f.seq ≠ l.rxNext → Completes (.dataFlitReceive p raw true) s fun t => OnlyPort p s t ∧ t.dev.outbox = s.dev.outbox ∧
      t.ctx.port p = { x with link := taken fw }) ∧
    ((fec && crcGood raw) = false →
      let opened (c : Ctx) : Ctx := linkErr p 0 (c.updLink p (fun l => { l with discarding := true, nakDue := true }))
      (l.discarding = false → Completes (.dataFlitReceive p raw fec) s fun t => Becomes s (opened s.ctx) t) ∧
      (l.discarding = true → l.nakDue = true → Completes (.dataFlitReceive p raw fec) s fun t => t.mem = s.mem ∧ t.dev = s.dev) ∧
      (l.discarding = true → l.nakDue = false → Completes (.dataFlitReceive p raw fec) s fun t =>
        Becomes s (s.ctx.draw 1).2 t ∨ Becomes s (opened (s.ctx.draw 1).2) t)) ∧
    (lw.nak = false → Completes (.nullFlit p lw) s fun t => OnlyPort p s t ∧ t.dev.outbox = s.dev.outbox ∧
      t.ctx.port p = { x with link := taken lw }) ∧
    (unacked l.replay lw.ack = [] → Completes (.nak p lw) s fun t =>
      Becomes s (linkErr p 1 (s.ctx.updLink p (fun _ => taken lw))) t) ∧
    (unacked l.replay lw.ack ≠ [] → (taken lw).replayFails = 8 → Completes (.nak p lw) s fun t =>
      Becomes s (retrain p (s.ctx.updLink p (fun _ => { taken lw with replayFails := 0 }))) t) ∧
    (unacked l.replay lw.ack ≠ [] → (taken lw).replayFails ≠ 8 → Completes (.nak p lw) s fun t =>
      Becomes s (linkErr p 1 (s.ctx.updLink p (fun _ => { taken lw with
        resend := unacked l.replay lw.ack, replayFails := (taken lw).replayFails + 1 }))) t)

/-- A port's training: its signal begins the attempts, a proposal agrees the lower code, a passed equalisation fixes lanes, loss and length
and sends the capability record, a failed attempt is repeated three times at each code, and a port that failed trains again after the
discovery window. A trained port whose signal is lost, or to which its partner proposes a rate, retrains. Completes: LINK_SIGNAL_DETECT,
LINK_SIGNAL_LOSS, RATE_PROPOSAL, EQUALISATION_COMPLETE, TRAIN_TIMEOUT, DISCOVERY_WINDOW. -/
def Obligations.PortsTrainStepByStep : Prop :=
  ∀ (s : State) (p lanes loss delay proposed rates : Nat), p < 36 → lanes < 16 → loss < 256 → delay < 65536 → proposed < 3 → rates < 8 →
    let x := s.ctx.port p
    let tries (y : Port) (code : Nat) (t : State) : Prop := OnlyPort p s t ∧
      t.ctx.port p = { y with step := 2, code := code, agreed := false, since := s.dev.slow } ∧
      t.dev.outbox = s.dev.outbox ++ [.rateProposal p code ownRates]
    (x.signal = false → x.state = 1 → x.step = 1 →
      Completes (.linkSignalDetect p) s (tries { x with signal := true, attempts := 0, again := false } (firstCode x))) ∧
    (x.signal = false → x.state = 5 → x.downCause ∈ [1, 2, 6] → x.step ≤ 1 →
      Completes (.linkSignalDetect p) s (tries { x with signal := true, attempts := 0, again := true } (firstCode x))) ∧
    (x.trained = true → Completes (.linkSignalLoss p) s fun t =>
      Becomes s (retrain p (s.ctx.updPort p (fun y => { y with signal := false }))) t) ∧
    (x.trained = false → Completes (.linkSignalLoss p) s fun t => OnlyPort p s t ∧ t.dev.outbox = s.dev.outbox ∧
      t.ctx.port p = { x with signal := false, lost := x.lost || x.state == 4 }) ∧
    (x.trained = true → Completes (.rateProposal p proposed rates) s fun t => Becomes s (rateTake p proposed rates (retrain p s.ctx)) t) ∧
    (∀ own, x.trained = false → x.step = 2 → x.signal = true →
      bestRate (if x.attempts = 0 ∧ x.code = firstCode x then x.expRate else x.code) rates = some own →
      Completes (.rateProposal p proposed rates) s fun t => OnlyPort p s t ∧
        t.dev.outbox = s.dev.outbox ++ (if own = x.code then [] else [.rateProposal p own ownRates]) ∧
        t.ctx.port p = { x with
          partner := { x.partner with rates := rates, heard := true }, code := min own proposed, agreed := true
          attempts := if min own proposed = x.code then x.attempts else 0 }) ∧
    (∀ set, x.step = 2 → x.agreed = true → x.signal = true → x.state ≠ 4 →
      let pass := maskOf 4 (fun i => bit lanes i && !bit (lanesHeld s.ctx p) i)
      laneSet pass = some set → Completes (.equalisationComplete p lanes loss delay) s fun t => OnlyPort p s t ∧
        t.dev.outbox = s.dev.outbox ++ [.capability p (capOf s.ctx p pass s.dev.boot.deviceId8)] ∧
        t.ctx.port p = { x with
          step := 7, rate := x.code, lanes := set, lanesOk := pass, loss := loss, length := min 255 ((2 * delay + 94) / 188), link := {} }) ∧
    Completes (.trainTimeout p) s (fun t => Becomes s (attemptFailed p (overdue p s.ctx)) t) ∧
    (x.step = 2 → (s.ctx.linkCfg (p / 9)).trainTimeout ≤ s.dev.slow - x.since →
      ¬ (x.state = 4 ∧ x.lost = true ∧ 9 * (s.ctx.linkCfg (p / 9)).trainTimeout ≤ s.dev.slow - x.retrainAt) →
      (x.attempts + 1 < 3 → Completes (.trainTimeout p) s (tries { x with attempts := x.attempts + 1 } x.code)) ∧
      (3 ≤ x.attempts + 1 → x.code ≠ 0 → Completes (.trainTimeout p) s (tries { x with attempts := 0 } (x.code - 1))) ∧
      (3 ≤ x.attempts + 1 → x.code = 0 → Completes (.trainTimeout p) s fun t => Becomes s (stageStep (trainFailed p s.ctx)) t)) ∧
    (x.state = 5 → x.downCause ∈ [2, 6] → x.signal = true → x.step ≤ 1 → (s.ctx.linkCfg (p / 9)).discoveryWindow ≤ s.dev.slow - x.lastEnd →
      Completes (.discoveryWindow (some p)) s (tries { x with attempts := 0, again := true } (firstCode x))) ∧
    (s.dev.topo.started = true → (s.ctx.linkCfg 0).discoveryWindow ≤ s.dev.slow - s.dev.topo.since →
      Completes (.discoveryWindow none) s fun t => Becomes s (stageStep (forAll (usedPorts s.ctx)
        (fun q a => if (a.port q).state = 1 && (a.port q).step = 1 then portDown q 1 a else a) s.ctx)) t)

/-- The records and admission that end a training: a capability record is kept, and begins the admission exchange where either side asks for
it, else settles the port's state; each part of the exchange is kept, the nonce answered with a signed proof, and the proof or its timeout
settles the port. A partner that has become UNAVAILABLE is a notice. The topology check then records its outcome and counts. Completes:
CAPABILITY_RECORD, ADM_NONCE, ADM_IDENTITY, ADM_OWNER, ADM_PROOF, ADMIT_TIMEOUT, TOPOLOGY_CHECK. -/
def Obligations.PortsAdmitAndSettle : Prop :=
  ∀ (s : State) (p nonce : Nat) (r : CapRecord) (cert : List Byte) (m : AdmProof), p < 36 → nonce < 2 ^ 384 →
    (Instr.capabilityRecord p r).wf = true →
    let x := s.ctx.port p
    let c1 := s.ctx.updPort p (fun y => { y with partner := partnerOf r, busy := r.busy })
    let keeps (a : Admission) (t : State) : Prop := OnlyPort p s t ∧ t.ctx.port p = { x with admission := a }
    let c2 := match duplicate c1 p r with | some id => dupFound p id c1 | none => c1
    let c3 := if r.unavailable = true ∧ x.partner.unavailable = false then sendNotice (r.pkg / 8) 2 c2 else c2
    let asks := x.state ≠ 4 ∧ ((s.ctx.linkCfg (p / 9)).admOn = true ∨ r.admOn = true)
    ((x.step = 7 → asks → Completes (.capabilityRecord p r) s fun t => Becomes s (admissionStart p c3) t ∧
        (duplicate c1 p r = none → r.unavailable = false → t.mem = s.mem ∧ (t.ctx.port p).step = 8 ∧
          (t.ctx.port p).partner = partnerOf r ∧
          t.dev.outbox = s.dev.outbox ++ [.admNonce p (t.ctx.port p).admission.ownNonce, .admIdentity p (identityCert s.ctx),
            .admOwner p (ownerCertOf s.ctx (imgBase s.ctx))])) ∧
      (x.step = 7 → ¬ asks → Completes (.capabilityRecord p r) s fun t => Becomes s (stageStep (portSettle p c3)) t) ∧
      (x.step = 8 → Completes (.capabilityRecord p r) s fun t => Becomes s c3 t) ∧
      (x.step ≠ 7 → x.step ≠ 8 → x.trained = true → Completes (.capabilityRecord p r) s fun t => Becomes s (followPartner p c3) t)) ∧
    (x.step = 8 →
      (x.admission.haveNonce = false → Completes (.admNonce p nonce) s fun t =>
        let h := proofDigest nonce s.dev.sec.ownerDigest s.dev.boot.pkg p
        keeps { x.admission with peerNonce := nonce, haveNonce := true } t ∧
        t.dev.outbox = s.dev.outbox ++ [.admProof p
          { ownerDigest := s.dev.sec.ownerDigest, pkg := s.dev.boot.pkg, port := p, r := (deviceSign s.ctx h).1, s := (deviceSign s.ctx h).2 }]) ∧
      Completes (.admIdentity p cert) s (fun t => t.dev.outbox = s.dev.outbox ∧
        keeps { x.admission with devX := (certKey cert).1, devY := (certKey cert).2, idOk := certValid s.ctx 1 cert, haveId := true } t) ∧
      Completes (.admOwner p cert) s (fun t => t.dev.outbox = s.dev.outbox ∧
        keeps { x.admission with
          ownerOk := certValid s.ctx 2 cert, ownerDigest := keyDigest (certKey cert).1 (certKey cert).2, haveOwner := true } t) ∧
      (let ok := !(s.ctx.linkCfg (p / 9)).admOn || admitOk s.ctx x m
       Completes (.admProof p m) s fun t => Becomes s (stageStep (portSettle p (s.ctx.updPort p (fun y => { y with
         admitted := ok, admission := { y.admission with proofOk := ok, haveProof := true, failed := !ok } })))) t) ∧
      ((s.ctx.linkCfg (p / 9)).admitTimeout ≤ s.dev.slow - x.since → Completes (.admitTimeout p) s fun t =>
        Becomes s (stageStep (portSettle p (s.ctx.updPort p (fun y => { y with admission := { y.admission with failed := true } })))) t)) ∧
    (s.dev.boot.stage = 7 → s.dev.boot.stopped = false → s.dev.topo.outcome = 0 → linksSettled s.ctx = true →
      let c0 := windowEnd s.ctx
      let n (k : Nat) : Nat := ((usedPorts c0).filter (fun q => (c0.port q).state == k)).length
      let c2 := loadRoutes (c0.updTopo (fun t => { t with outcome := topologyOutcome c0, down := n 5, degraded := n 3, held := n 6 }))
      (topologyOutcome c0 ≠ 3 → Completes .topologyCheck s fun t => t.mem = s.mem ∧ t.dev.boot = { s.dev.boot with stage := 8 } ∧
        t.dev = { s.dev with boot := t.dev.boot, topo := t.dev.topo, linkCfg := c2.dev.linkCfg, ports := c0.dev.ports } ∧
        t.dev.topo = { s.dev.topo with outcome := topologyOutcome c0, down := n 5, degraded := n 3, held := n 6 }) ∧
      (topologyOutcome c0 = 3 → Completes .topologyCheck s fun t => Becomes s (bootStop 8 c2) t))

/-! ### Sheaves and the survivors -/

/-- A sheaf point whose four commits are held starts the sheaf, its manifest in the home slot and on its way to the buddy, or skips and reports
it; either way the held verdicts are written. It ends complete, with its digest record, once buddy and witness have both acknowledged it, or
abandoned. A buddy takes its ward's pages into the ward slot, poisoned lines poisoned, a witness its ward's digest, each acknowledged; what
belongs to no ward, and what comes from a package turned away, is refused. Completes: SHEAF_START, SHEAF_COMPLETE, SHEAF_REFUSED,
SHEAF_TIMEOUT, SHEAF_PAGE_RECEIVE, DIGEST. -/
def Obligations.SheafPointsAreHandled : Prop :=
  ∀ (s : State) (st : Nat) (r : SheafRun) (src slot seq index addr : Nat) (data : List Byte) (poison : List Nat)
    (m : ResMsg), src < 2 ^ 18 → addr < 2 ^ 48 → data.length ≤ 65536 → poison.all (fun l => l < 512) = true →
    (s.dev.res.planned = some st → furLive s.ctx 0 = true → allHeld s.ctx = true →
      (sheafSkips s.ctx = true → Completes .sheafStart s fun t =>
        let c1 := releaseHeld (s.ctx.updRes (fun r => { r with planned := none, nextSeq := s.dev.res.nextSeq + 1, lastResult := 1 }))
        Becomes s (reportDone (doneMsg c1 st s.dev.res.nextSeq 1 1) c1) t) ∧
      (sheafSkips s.ctx = false → Completes .sheafStart s fun t =>
        let c1 := cowStart s.ctx
        let slot := if c1.res.valid then 1 - c1.res.committedSlot else 0
        let r : SheafRun :=
          { seq := s.dev.res.nextSeq, step := st, slot := slot, startStep := st + 1, since := c1.dev.slow, pages := (scopePages c1).length }
        let m := manifest c1 r
        let c2 := store (homeSlot c1 slot) m (setHome slot { seq := r.seq, step := st, pages := r.pages } c1)
        let c3 := (c2.send (.sheafPage c2.res.buddy slot r.seq 0 0 m [])).updRes (fun x =>
          { x with planned := none, nextSeq := r.seq + 1, state := 1, run := some r })
        Becomes s (releaseHeld (if r.pages = 0 then sendDigest r c3 else c3)) t)) ∧
    (s.dev.res.run = some r →
      (r.digestSent = true →
        let acks (b w : Bool) : SheafRun := { r with buddyAck := b, witnessAck := w }
        let left := s.dev.res.awaiting.filter (fun p => p.1 != s.dev.res.witness)
        let finished (c : Ctx) (t : State) : Prop :=
          let c0 := c.updRes (fun x => { x with run := some (acks true true), awaiting := left })
          let c1 := store (s.dev.res.restartAddr + 2048 + 64 * r.slot) (digestRecord r) (cowComplete c0)
          let c2 := (setHome r.slot { valid := true, seq := r.seq, step := r.step, pages := r.pages, got := r.pages } c1).updRes (fun x =>
            { x with run := none, state := 0, lastResult := 0 })
          Becomes s (reportDone (doneMsg c2 r.step r.seq (sheafCost s.ctx r) 0) c2) t
        let waits (b : Bool) (t : State) : Prop := t.mem = s.mem ∧ t.dev = { s.dev with
          fresh := s.dev.fresh + 1
          res := { s.dev.res with run := some (acks b (!b)), awaiting := if b then s.dev.res.awaiting else left } }
        ((r.buddyAck || r.witnessAck) = true → Completes .sheafComplete s (finished (s.ctx.draw 1).2)) ∧
        ((r.buddyAck || r.witnessAck) = false → Completes .sheafComplete s fun t => finished (s.ctx.draw 1).2 t ∨ waits true t ∨ waits false t)) ∧
      Completes .sheafRefused s (Becomes s (abandonSheaf s.ctx)) ∧
      (s.dev.res.sheafTimeout ≤ s.dev.slow - r.since → Completes .sheafTimeout s (Becomes s (abandonSheaf s.ctx)))) ∧
    (let refused (t : State) : Prop := t.mem = s.mem ∧ t.dev = { s.dev with outbox := s.dev.outbox ++ [.sheafAck src seq false false] }
     s.dev.safe.safe = false → (s.dev.job.running = false ∨ refusesFrom s.ctx src = true) →
       Completes (.sheafPageReceive src slot seq index addr { bytes := data, poison := poison }) s refused) ∧
    (s.dev.safe.safe = true → Completes (.sheafPageReceive src slot seq index addr { bytes := data, poison := poison }) s fun t => t.mem = s.mem ∧ t.dev = s.dev) ∧
    (s.dev.job.running = true →
      let off := if index = 0 then 0 else recordOff (index - 1)
      let bytes := if index = 0 then data else toBytes 8 addr ++ data
      let fits := slot < 2 ∧ off + bytes.length ≤ s.dev.res.slotPages * 65536 ∧ bytes.length = (if index = 0 then 16384 else 65544)
      let takes (base : Nat) (t : State) : Prop :=
        t.bytes (base + off) bytes.length = bytes ∧ KeepsMemoryBut (base + off) bytes.length s t ∧
        ∀ b, b ∈ t.dev.poison ↔ ∃ l ∈ poison, b ∈ wordsOf (base + off + (if index = 0 then 0 else 8) + 128 * l) 128
      (refusesFrom s.ctx src = false → s.dev.safe.safe = false → Clean s →
        (s.dev.res.restore ≠ 1 → src = s.dev.res.ward → fits → s.dev.res.present = true →
          Completes (.sheafPageReceive src slot seq index addr { bytes := data, poison := poison }) s fun t => takes (wardSlot s.ctx slot) t ∧
            t.dev = { s.dev with res := t.dev.res, poison := t.dev.poison, outbox := s.dev.outbox ++ [.sheafAck src seq false true] } ∧
            t.dev.res = { s.dev.res with wards := t.dev.res.wards } ∧
            (t.dev.res.wards.getD slot {}).got = (if index = 0 then 0 else (s.dev.res.wards.getD slot {}).got + 1)) ∧
        (s.dev.res.restore = 1 → s.dev.res.refetched = true → src = s.dev.res.buddy → slot = s.dev.res.committedSlot → fits →
          Completes (.sheafPageReceive src slot seq index addr { bytes := data, poison := poison }) s fun t => takes (homeSlot s.ctx slot) t ∧
            t.dev = { s.dev with poison := t.dev.poison
                                 res := { s.dev.res with awaiting := s.dev.res.awaiting.filter (fun p => p.1 != s.dev.res.buddy) } }) ∧
        (s.dev.res.restore ≠ 1 → (src ≠ s.dev.res.ward ∨ ¬ fits ∨ s.dev.res.present = false) →
          Completes (.sheafPageReceive src slot seq index addr { bytes := data, poison := poison }) s fun t => t.mem = s.mem ∧
            t.dev = { s.dev with outbox := s.dev.outbox ++ [.sheafAck src seq false false] })) ∧
      (m.sender = s.dev.res.witnessed → s.dev.res.present = true → Completes (.digest m) s fun t => t.mem = s.mem ∧ t.dev = { s.dev with
        res := { s.dev.res with witnessDigests := (m.digest :: s.dev.res.witnessDigests).take 2 }
        outbox := s.dev.outbox ++ [.sheafAck m.sender m.seq true true] }) ∧
      (m.sender ≠ s.dev.res.witnessed → m.sender = s.dev.res.ward → s.dev.res.present = true →
        Completes (.digest m) s (Becomes s (serveRefetch s.ctx))) ∧
      ((m.sender ≠ s.dev.res.witnessed ∧ m.sender ≠ s.dev.res.ward ∨ s.dev.res.present = false) → Completes (.digest m) s fun t => t.mem = s.mem ∧ t.dev =
        if s.dev.res.restore = 1 then { s.dev with res := { s.dev.res with wardDigest := some m.digest } }
        else { s.dev with outbox := s.dev.outbox ++ [.sheafAck m.sender m.seq true false] }))

/-- Messages between members. PLAN commits SEQ and plans the next sheaf point, or reports it missed; slot 0 gathers the DONEs; a NOTICE names
its tray, and once NOTICE_WAIT has passed the acting coordinator advances the epoch and sends REFORM, whose absence ends the job. A
coordinator remembers JOINs. A member that does not answer is named in a notice. The replica check compares the tray's digests. Completes:
PLAN, DONE, NOTICE, NOTICE_WAIT, REFORM_WAIT_TIMEOUT, JOIN, RESILIENCE_MESSAGE_TIMEOUT, JOB_RESTORE_CHECK, CHECK. -/
def Obligations.MembersExchangeTheirMessages : Prop :=
  ∀ (s : State) (m : ResMsg) (pkg : Nat), inJob s.ctx = true → pkg < 2 ^ 18 →
    let r := s.dev.res
    let onlyRes (t : State) : Prop := t.mem = s.mem ∧ t.dev = { s.dev with res := t.dev.res, ports := t.dev.ports, outbox := t.dev.outbox }
    let p0 := commitSeq m.seq (passOn 1 m s.ctx)
    let p := if m.seq = noSeq then p0 else p0.updRes (fun x => { x with nextSeq := max x.nextSeq (m.seq + 1) })
    (s.dev.job.step ≤ m.step → (∀ d, d < 4 → (s.ctx.fur d).commits ≤ m.step) → Completes (.plan m) s fun t => onlyRes t ∧
      Becomes s (setPlan m.step p) t ∧ t.dev.res.planned = some m.step ∧ t.dev.res.lastPoint = m.step) ∧
    ((m.step < s.dev.job.step ∨ ∃ d, d < 4 ∧ m.step < (s.ctx.fur d).commits) → Completes (.plan m) s fun t =>
      let c1 := p.updRes (fun x =>
        { x with nextSeq := x.nextSeq + 1, lastResult := 1, planned := none, lastPoint := m.step })
      Becomes s (reportDone (doneMsg c1 m.step p.res.nextSeq 1 1) c1) t) ∧
    (ownSlot s.ctx = 0 →
      (Completes (.done m) s (Becomes s (doneTake 3 m s.ctx))) ∧
      (let others := r.trayDones.filter (fun x => x.sender != m.sender || x.seq != m.seq)
       m.sender / 8 = ownTray s.ctx → (ofSeq m.seq others).length < 7 → Completes (.done m) s fun t =>
        t.mem = s.mem ∧ t.dev = { s.dev with res := { r with trayDones := others ++ [m] } })) ∧
    ((noticeTakers s.ctx).contains s.dev.boot.pkg = true →
      (Completes (.notice m) s (Becomes s (noticeTake m.subject s.ctx))) ∧
      ((memberTrays s.ctx).contains m.subject = true → r.run = none → Completes (.notice m) s fun t => t.mem = s.mem ∧
        t.dev = { s.dev with res := { r with
          notices := (s.dev.job.step :: r.notices).take 16, namedAt := if r.named.isEmpty then s.dev.slow else r.namedAt
          named := if r.named.contains m.subject then r.named else r.named ++ [m.subject] } }) ∧
      (r.named ≠ [] → r.noticeWait ≤ s.dev.slow - r.namedAt → actsAsCoordinator s.ctx = true → Completes .noticeWait s fun t =>
        Becomes s (sendReform (r.removed ++ r.named) (memberTrays s.ctx) (s.ctx.updRes (fun r => { r with named := [] }))) t ∧
        (s.dev.epoch < 0xFFFFFFFF → t.dev.epoch = s.dev.epoch + 1))) ∧
    (∀ a, r.noticeAt = some a → 2 * r.noticeWait + (s.ctx.linkCfg 0).respTimeout ≤ s.dev.slow - a →
      Completes .reformWaitTimeout s (Becomes s (endCause 0x14 (s.ctx.updRes (fun r => { r with noticeAt := none }))))) ∧
    (coordinator s.ctx = s.dev.boot.pkg → Completes (.join m) s fun t => t.mem = s.mem ∧
      t.dev = { s.dev with res := { r with joins := insNat m.sender r.joins } }) ∧
    (r.awaiting.any (fun p => p.1 == pkg && decide ((s.ctx.linkCfg 0).respTimeout ≤ s.dev.slow - p.2)) = true →
      Completes (.resilienceMessageTimeout pkg) s (Becomes s
        (sendNotice (pkg / 8) 4 (s.ctx.updRes (fun r => { r with awaiting := r.awaiting.filter (fun p => p.1 != pkg) }))))) ∧
    (r.checkBytes ≠ 0 → Clean s →
      let h := sha384Nat (s.ctx.read r.checkBase r.checkBytes)
      let c1 := s.ctx.updRes (fun r => { r with checkSent := true })
      (ownSlot s.ctx ≠ 0 → Completes .jobRestoreCheck s fun t =>
        Becomes s (sendRes (8 * ownTray s.ctx) 8 { resMsg s.ctx with digest := h } c1) t ∧
        t.mem = s.mem ∧ t.dev = { s.dev with
          res := { r with checkSent := true }, ports := t.dev.ports
          outbox := s.dev.outbox ++ [.resilience (8 * ownTray s.ctx) 8 { resMsg s.ctx with digest := h }] }) ∧
      (ownSlot s.ctx = 0 → Completes .jobRestoreCheck s (Becomes s (checkTake s.dev.boot.pkg h c1)))) ∧
    (ownSlot s.ctx = 0 → m.sender / 8 = ownTray s.ctx →
      ((Tab.set r.checks m.sender m.digest).length < 8 → Completes (.check m) s fun t => t.mem = s.mem ∧
        t.dev = { s.dev with res := { r with checks := Tab.set r.checks m.sender m.digest } }) ∧
      Completes (.check m) s (Becomes s (checkTake m.sender m.digest s.ctx)))

/-- REFORM starts the restore of a training job's survivor, re-forms only the links of another job, and ends the job of a removed package. The
restore's digest checks end with READY, or the home copy is fetched again; the last READY brings RESUME, and a survivor resumes at the step
that REFORM named with its channels at entry 0. Completes: REFORM, RESTORE_DIGEST, SURVIVOR_READY, RESUME. -/
def Obligations.SurvivorsRestoreAndResume : Prop :=
  ∀ (s : State) (m : ResMsg) (pkg : Nat), inJob s.ctx = true → pkg < 2 ^ 18 →
    let r := s.dev.res
    let c1 := (passOn 4 m s.ctx).updRes (fun r => { r with named := [], noticeAt := none })
    (m.removed.contains (ownTray s.ctx) = true → Completes (.reform m) s (Becomes s (endCause 0x14 c1))) ∧
    (m.removed.contains (ownTray s.ctx) = false → s.dev.job.kind ≤ 1 → Completes (.reform m) s (Becomes s (restoreStart m c1))) ∧
    (m.removed.contains (ownTray s.ctx) = false → 1 < s.dev.job.kind → Completes (.reform m) s (Becomes s (reformLinks m c1))) ∧
    (r.restore = 3 → r.state = 3 → loadsEnded s.ctx = true → s.dev.units.all (fun p => !p.2.resetting) = true →
      Completes .restoreDigest s (Becomes s (restoreReady s.ctx))) ∧
    (r.restore = 1 → (wardRemoved s.ctx = false ∨ r.wardDigest ≠ none) →
      let c0 := restoreRead s.ctx
      let wardPasses := wardRemoved c0 = false ∨ wardOk c0 (c0.res.wardDigest.getD 0) = true
      (homeOk c0 = true → wardPasses → Completes .restoreDigest s
        (Becomes s (restoreReady (regroupAll c0.res.removed (homeBack c0))))) ∧
      (homeOk c0 = true → ¬ wardPasses → Completes .restoreDigest s (Becomes s (endCause 0x14 c0))) ∧
      (homeOk c0 = false → c0.res.refetched = false → Completes .restoreDigest s (Becomes s
        ((sendRes c0.res.buddy 7 (resMsg c0) c0).updRes (fun x =>
          { x with refetched := true, awaiting := x.awaiting ++ [(x.buddy, c0.dev.slow)] })))) ∧
      (homeOk c0 = false → c0.res.refetched = true → Completes .restoreDigest s (Becomes s (sendNotice (ownTray c0) 6 c0)))) ∧
    (coordinator s.ctx = s.dev.boot.pkg →
      let c2 := s.ctx.updRes (fun r => { r with readies := insNat pkg r.readies, awaiting := r.awaiting.filter (fun p => p.1 != pkg) })
      let c3 := resumeTake (resMsg s.ctx) (sendTrays 5 (resMsg s.ctx) (memberTrays s.ctx) c2)
      ((allReady c2 = false ∨ r.restore ≠ 2) → Completes (.survivorReady pkg) s fun t => t.mem = s.mem ∧ t.dev = c2.dev) ∧
      (allReady c2 = true → r.restore = 2 → Completes (.survivorReady pkg) s (Becomes s
        (if c3.res.planned.isNone && c3.res.enable then
          planNextWith reportDone 1 c3.res.lastPoint (if c3.res.valid then c3.res.seq else noSeq) c3
         else c3)))) ∧
    (r.restore = 2 → Completes (.resume m) s fun t => Becomes s (resumeTake m s.ctx) t ∧
      t.dev.job = { s.dev.job with
        step := r.reformStep, released := true, flown := 0
        drains := s.dev.job.drains.filter (fun d => match d.fn with | .furrow _ _ => false | _ => true)
        disabled := s.dev.job.disabled.filter (fun f => match f with | .furrow _ _ => false | _ => true)
        stepAt := s.dev.slow, stepStart := s.dev.slow } ∧
      t.dev.res = { r with restore := 0, state := 0 } ∧
      ∀ d k, d < 4 → (s.ctx.chan d k).len ≠ 0 →
        (t.ctx.chan d k).state = 1 ∧ (t.ctx.chan d k).pc = 0 ∧ (t.ctx.chan d k).iter = 0 ∧ (t.ctx.chan d k).run = none)

/-! ### Faults -/

/-- An event sets its causes and its source's status bit and count, then the ladder acts on the gravest class; before the collectors are armed
it is only recorded. Then each COLUMN cause enters its column in the defect list and each STASH cause freezes the core that claimed. A FATAL
event and a failed self-check enter the safe state. Completes: FAULT_EVENT, COLLECTOR_SELF_CHECK. -/
def Obligations.FaultEventsAreRecordedAndRaised : Prop :=
  ∀ (s : State) (e : FaultEvent) (coll : Nat), e.wf = true → coll < 5 → collectorsLive s.ctx = true →
    let c1 := e.causes.foldl (fun a k => causeSet e.coll e.source k a) s.ctx
    let cls := e.causes.foldl (fun m k => max m (causeClass e.coll e.source k.cause)) 0
    let cluster : Bool := e.coll < 4 && e.source < 16
    let unit (k : FaultCause) : Nat := 128 * e.coll + 8 * e.source + k.unit
    let columns := e.causes.filter (fun k => cluster && k.cause == 4)
    let stashes := e.causes.filter (fun k => cluster && k.cause == 6)
    let acts : Bool := s.dev.boot.armed && !s.dev.safe.safe
    let noted (k src : Nat) (t : State) : Prop := t.mem = s.mem ∧ t.dev = { s.dev with colls := t.dev.colls } ∧
      (t.ctx.coll k).status = setBit (s.ctx.coll k).status src ∧ (∀ j, j ≠ k → t.ctx.coll j = s.ctx.coll j) ∧
      Tab.get 0 (t.ctx.coll k).counts src = min 255 (Tab.get 0 (s.ctx.coll k).counts src + 1) ∧
      (t.ctx.coll k).episodes = (s.ctx.coll k).episodes
    let self (k : Nat) := if k < 4 then 47 else 16
    (e.source ≠ self e.coll →
      let c2 := columns.foldl (fun a k => columnFault (unit k) k.ident a) (raise e.coll e.source cls (identsOf e) c1)
      Completes (.faultEvent e) s fun t =>
        Becomes s (if acts then stashes.foldl (fun a k => stashFreeze e.coll e.source (unit k) k.ident a) c2 else c2) t ∧
        (columns = [] → s.dev.boot.armed = false → noted e.coll e.source t) ∧
        (acts = true → cls = 4 → episodeOf s.ctx e.coll e.source = none → t.dev.safe.safe = true) ∧
        (acts = true → ∀ k ∈ stashes, unitOfCore k.ident = unit k → (t.ctx.core k.ident).frozen = true)) ∧
    (∀ k, e.causes = [k] → cluster = true → k.cause < 7 → identsOf e = [k.unit]) ∧
    (∀ k i, (k = coll ∧ i = Instr.collectorSelfCheck coll) ∨ (k = e.coll ∧ e.source = self e.coll ∧ i = Instr.faultEvent e) →
      (s.dev.boot.armed = false → Completes i s (noted k (self k))) ∧
      (s.dev.boot.armed = true → s.dev.safe.safe = true → Completes i s fun t =>
        Becomes s ((recordEvent k (self k) s.ctx).updSafe (fun x => { x with since := s.dev.slow })) t) ∧
      (s.dev.boot.armed = true → s.dev.safe.safe = false → Completes i s fun t =>
        Becomes s (safeEnter (if k = 4 then 16 else k) (recordEvent k (self k) s.ctx)) t ∧ t.dev.safe.safe = true ∧ t.dev.pins.ready = false))

/-- An escalation timer raises its episode to its ceiling. An acknowledgement closes the episode, raising it first where its LEVEL is higher;
with RELEASE the application cores the source froze go on. Completes: ESCALATION_TIMER, FC_ACK, FC_ACK_RELEASE. -/
def Obligations.EpisodesEscalateAndClose : Prop :=
  ∀ (s : State) (coll source v : Nat) (e : Episode), v < 2 ^ 32 →
    (sourceOk coll source = true → episodeOf s.ctx coll source = some e → e.timer = true →
      (s.ctx.coll coll).escTimer ≤ s.dev.slow - e.since → Completes (.escalationTimer coll source) s fun t =>
        Becomes s (updAlert (episodeRaise coll source e.ceiling { e with timer := false } s.ctx)) t) ∧
    (collectorsLive s.ctx = true → bits v 6 3 < 6 →
      (coll < 5 → (coll = 4 → bit v 9 = false) → episodeOf s.ctx coll (bits v 0 6) = none → Completes (.fcAck coll v) s fun t => t.mem = s.mem ∧ t.dev = s.dev) ∧
      (coll < 5 → (coll = 4 → bit v 9 = false) → episodeOf s.ctx coll (bits v 0 6) = some e →
        let c1 := if e.level < bits v 6 3 then episodeRaise coll (bits v 0 6) (bits v 6 3) e s.ctx else s.ctx
        Completes (.fcAck coll v) s fun t =>
          Becomes s (updAlert (c1.updColl coll (fun x => { x with episodes := Tab.del (bits v 0 6) x.episodes }))) t ∧
          episodeOf t.ctx coll (bits v 0 6) = none) ∧
      (bit v 9 = true → Completes (.fcAckRelease v) s (Becomes s (ackWrite 4 v s.ctx))) ∧
      (bit v 9 = true → episodeOf s.ctx 4 (bits v 0 6) = none → Completes (.fcAckRelease v) s fun t => t.mem = s.mem ∧
        t.dev = { s.dev with cores := t.dev.cores } ∧ (∀ n, n < 2070 ∨ 2094 ≤ n → t.ctx.core n = s.ctx.core n) ∧
        ∀ i, i < 24 →
          let k := s.ctx.core (2070 + i)
          t.ctx.core (2070 + i) = if k.frozen = true ∧ k.frozenBy = bits v 0 6 then
            { k with frozen := false, frozenBy := 0, faultDue := true } else k))

/-- A thermal, supply or PLL comparator that asserts raises its FATAL source and the armed package enters the safe state; its clearing starts
the fallow timer once no other is asserted. The timer's end leaves the safe state, or holds it until a cold reset at the recovery limit.
A governor window's end empties its region's count, and the VE commands under way issue in the window that begins. Completes: THERMAL_TRIP,
THERMAL_TRIP_CLEAR, SUPPLY_WINDOW, SUPPLY_WINDOW_CLEAR, PLL_UNLOCK, PLL_RELOCK, FALLOW_TIMER, GOVERNOR_WINDOW. -/
def Obligations.ComparatorsAndFallowTakeEffect : Prop :=
  ∀ (s : State) (d r p g : Nat), d < 5 → r < 7 → p < 5 → g < 16 →
    let k (x : Nat) : Nat := if x < 4 then x else 4
    let heat := tripPin (setThermal d true s.ctx)
    let volt := if r < 4 then s.ctx.updDie r (fun x => { x with supply := true }) else s.ctx.updSafe (fun x => { x with supply := r :: x.supply })
    let lost := if p < 4 then s.ctx.updDie p (fun x => { x with locked := false, pllLost := true })
      else (s.ctx.updStw (fun x => { x with locked := false })).updSafe (fun x => { x with pllLost := true })
    (∀ i ∈ [(Instr.thermalTrip d, k d, if d < 4 then 43 else 11, heat, s.dev.pins.pwrGood && !thermalOf s.ctx d),
        (.supplyWindow r, k r, if r < 4 then 44 else 12, volt, supplyWatched s.ctx && !supplyOf s.ctx r),
        (.pllUnlock p, k p, if p < 4 then 45 else 13, lost, if p < 4 then (s.ctx.die p).locked else s.dev.stw.locked)],
      i.2.2.2.2 = true →
        (collectorsLive s.ctx = false → Completes i.1 s (Becomes s i.2.2.2.1)) ∧
        (collectorsLive s.ctx = true → Completes i.1 s fun t => Becomes s (raise i.2.1 i.2.2.1 4 [] i.2.2.2.1) t ∧
          (s.dev.boot.armed = true → s.dev.safe.safe = false → episodeOf s.ctx i.2.1 i.2.2.1 = none → t.dev.safe.safe = true))) ∧
    (let cool := tripPin (setThermal d false s.ctx)
     let back := if r < 4 then s.ctx.updDie r (fun x => { x with supply := false })
       else s.ctx.updSafe (fun x => { x with supply := x.supply.filter (fun k => k != r) })
     let found := if p < 4 then s.ctx.updDie p (fun x => { x with locked := true, pllLost := false })
       else (s.ctx.updStw (fun x => { x with locked := true })).updSafe (fun x => { x with pllLost := false })
     ∀ i ∈ [(Instr.thermalTripClear d, cool, thermalOf s.ctx d), (.supplyWindowClear r, back, supplyOf s.ctx r),
         (.pllRelock p, found, if p < 4 then (s.ctx.die p).pllLost else s.dev.safe.pllLost)],
       i.2.2 = true → Completes i.1 s fun t => t.mem = s.mem ∧ t.dev =
         (if s.dev.safe.safe = true ∧ anyComparator i.2.1 = false then i.2.1.updSafe (fun x => { x with since := s.dev.slow }) else i.2.1).dev) ∧
    (s.dev.safe.safe = true → s.dev.safe.held = false → s.dev.safe.leaving = false → anyComparator s.ctx = false →
      s.dev.safe.fallow ≤ s.dev.slow - s.dev.safe.since →
      (s.dev.safe.recoveryLimit = 0 ∨ s.dev.safe.recoveryCount < s.dev.safe.recoveryLimit →
        Completes .fallowTimer s (Becomes s (safeLeave s.ctx))) ∧
      (s.dev.safe.recoveryLimit ≠ 0 → s.dev.safe.recoveryLimit ≤ s.dev.safe.recoveryCount → Completes .fallowTimer s fun t =>
        t.mem = s.mem ∧ t.dev = { s.dev with safe := { s.dev.safe with held := true } })) ∧
    Completes (.governorWindow g) s fun t =>
      Becomes s (forAll ((List.range 32).map (fun i => 32 * g + i)) windowIssue
        { s.ctx with dev := { s.dev with gov := Tab.set s.dev.gov g {} } }) t ∧
      ((∀ u, u / 32 = g → (s.ctx.unit u).ve.entries.all (fun e => !e.active || e.lanes == 0) = true) →
        t.mem = s.mem ∧ t.dev = { s.dev with gov := t.dev.gov } ∧ Tab.get {} t.dev.gov g = {} ∧
        ∀ j, j ≠ g → Tab.get {} t.dev.gov j = Tab.get {} s.dev.gov j)

/-! ### Resets and start-up -/

/-- After reset every register reads the value its table gives: 0 but for STW_ID.SILICON 1, the END_CODE fields FFH, SRV_STATUS.IDLE 1 and the
WIDE bit of the wide units; no command waits. -/
def Obligations.ResetLeavesTheResetValues : Prop :=
  (∀ (off w v : Nat), spaceReg State.reset.ctx .steward off = some (w, v) →
    v = if off = 0 then 0x100000 else if off = 0x40010 then 0xFF00 else 0) ∧
  (∀ (d off w v : Nat), spaceReg State.reset.ctx (.die d) off = some (w, v) →
    v = if off < 0x80000 then (if off % 4096 = 0x400 ∧ (off / 4096) % 8 = 0 then 4 else 0)
      else if off = 0x150000 then 0xFF00 else if off = 0x150048 then 2 ^ 34 else 0) ∧
  State.reset.pending = []

/-- A cold reset loses the contents of every memory but the NVM and puts every register at its Reset value; a warm one keeps LPDDR5X, the counts
and EPOCH, and clears the core RAMs and tile registers. A pulse under 10 cycles starts none, one of 10 to 99 may, one while a reset is held is
absorbed. Their end, or
the WARM bit, starts stage 1. Completes: COLD_RST_N, WARM_RST_N, PWR_GOOD_FALL, BOOT_CONTROL_WARM, RESET_RELEASE. -/
def Obligations.PackageResetsClearAndKeep : Prop :=
  ∀ (s : State) (pulse v : Nat), v < 2 ^ 32 → let p := s.dev.pins
    let low (q : Pins) : Pins := { q with ready := false, alert := false, safe := false }
    let lost (t : State) : Prop := (∀ a, nvmBase ≤ a → t.byte a = s.byte a) ∧
      ∀ a, (a < lpSize ∨ (umBase 0 ≤ a ∧ a < umBase 512) ∨ (trBase 0 ≤ a ∧ a < trBase 512) ∨ (coreRam 0 ≤ a ∧ a < coreRam 2094)) → t.byte a = 0
    let warmed (c : Ctx) (t : State) : Prop := (∀ a, a < lpSize → t.byte a = s.byte a) ∧
      (∀ a, ((trBase 0 ≤ a ∧ a < trBase 512) ∨ (coreRam 0 ≤ a ∧ a < coreRam 2094)) → t.byte a = 0) ∧
      t.dev = { c.dev.warm with pins := low c.dev.pins, poison := t.dev.poison, errs := t.dev.errs }
    (100 ≤ pulse →
      (p.coldRst = false → p.pwrGood = true → Completes (.coldRstN pulse) s fun t => lost t ∧
        t.dev = { s.dev.cold with pins := low { p with coldRst := true } }) ∧
      (p.coldRst = true ∨ p.pwrGood = false → Completes (.coldRstN pulse) s fun t => t.mem = s.mem ∧
        t.dev = { s.dev with pins := { p with coldRst := true } }) ∧
      (s.dev.safe.held = false → resetHeld s.ctx = false → Completes (.warmRstN pulse) s
        (warmed (s.ctx.updPins (fun p => { p with warmRst := true })))) ∧
      (s.dev.safe.held = false → resetHeld s.ctx = true → Completes (.warmRstN pulse) s fun t => t.mem = s.mem ∧
        t.dev = { s.dev with pins := { p with warmRst := true } }) ∧
      (s.dev.safe.held = true → Completes (.warmRstN pulse) s fun t => t.mem = s.mem ∧ t.dev = s.dev)) ∧
    (pulse < 10 → ∀ i ∈ [Instr.coldRstN pulse, .warmRstN pulse], Completes i s fun t => t.mem = s.mem ∧ t.dev = s.dev) ∧
    (10 ≤ pulse → pulse < 100 → (∀ i ∈ [Instr.coldRstN pulse, .warmRstN pulse], Completes i s fun t =>
        Config.freeBool s.dev.fresh = false → t.mem = s.mem ∧ t.dev = { s.dev with fresh := s.dev.fresh + 1 }) ∧
      (p.coldRst = false → p.pwrGood = true → Completes (.coldRstN pulse) s fun t => Config.freeBool s.dev.fresh = true → lost t)) ∧
    (p.pwrGood = true → Completes .pwrGoodFall s fun t => lost t ∧ t.dev.pins.pwrGood = false ∧ t.dev.pins.thermtrip = false ∧
      t.dev.boot = {} ∧ t.dev.colls = [] ∧ t.dev.units = [] ∧
      outputs t.ctx = { ready := .released, alertN := .released, safeN := .released, thermtripN := .released, links := .idle }) ∧
    (bit v 0 = true → stwMgmtRuns s.ctx = true → resetHeld s.ctx = false → s.dev.safe.held = false → Completes (.bootControlWarm v) s fun t =>
      Becomes s (stageOne (warmReset s.ctx)) t ∧ t.dev.boot.stage = 1 ∧ t.dev.epoch = s.dev.epoch ∧ ∀ a, a < lpSize → t.byte a = s.byte a) ∧
    (resetHeld s.ctx = true → Completes .resetRelease s fun t => t.mem = s.mem ∧ t.dev.pins.coldRst = false ∧ t.dev.pins.warmRst = false ∧
      t.dev.pins.pwrGood = true ∧ t.dev.boot = { s.dev.boot with stage := 1, stageAt := s.dev.slow })

/-- A compute partial reset of a die stops it and empties its units' queues, its release zeroes the unit memories and tile registers, its
return applies the defect list and what was retired meanwhile, and admits the die at the package's epoch. A unit reset is refused for a unit in
service while a job runs, and absorbed by a reset of its die or of the package; it clears the unit, its tile registers, its seedbed and its
cores. Completes: CLK_PRESET, PARTIAL_RESET_RELEASE, PARTIAL_RESET_RETURN, CLK_URESET, UNIT_RESET_COMPLETE. -/
def Obligations.DiesAndUnitsReset : Prop :=
  ∀ (s : State) (d v u : Nat), d < 4 → v < 2 ^ 32 → u < 512 → let x := s.ctx.die d
    (v < 16 → resetHeld s.ctx = false → Completes (.clkPreset v) s
      (Becomes s (forAll ((List.range 4).filter (fun d => bit v d)) presetStart s.ctx))) ∧
    (v = 2 ^ d → resetHeld s.ctx = false → s.dev.safe.safe = false → x.preset = 0 → Completes (.clkPreset v) s fun t =>
      (t.ctx.die d).preset = 1 ∧ (t.ctx.die d).stopped = true ∧
      ∀ k, dieOfUnit k = d → (t.ctx.unit k).me.entries = [] ∧ (t.ctx.unit k).ve.entries = [] ∧ (t.ctx.unit k).dma.entries = [] ∧
        (t.ctx.unit k).tile = none ∧ (t.ctx.unit k).width = (s.ctx.unit k).width ∧ (t.ctx.unit k).region = (s.ctx.unit k).region) ∧
    (x.preset = 1 → (s.dev.safe.safe = true → s.dev.safe.leaving = true) → Completes (.partialResetRelease d) s fun t =>
      (t.ctx.die d).preset = 2 ∧
      (∀ k i, dieOfUnit k = d → (i < umSize → t.byte (umBase k + i) = 0) ∧ (i < 2 ^ 20 → t.byte (trBase k + i) = 0)) ∧
      (∀ a, (a < umBase (128 * d) ∨ umBase (128 * (d + 1)) ≤ a) → (a < trBase (128 * d) ∨ trBase (128 * (d + 1)) ≤ a) → t.byte a = s.byte a)) ∧
    (x.preset = 2 → (∀ r, r < 4 → (s.ctx.loader (2048 + 4 * d + r)).active = false) →
      let mine := (List.range 128).map (fun i => 128 * d + i)
      let c1 := forAll mine (applyUnit (listNow s.ctx) true) s.ctx
      let c2 := (forAll (lateUnits s.ctx d) unitGone c1).updBoot (fun b =>
        { b with late := b.late.filter (fun e => (if e.kind = 7 then e.index / 9 else dieOfUnit e.index) != d) })
      let c3 := forAll mine unitLoads (forAll (latePorts s.ctx d) (portDisable true)
        (c2.updDie d (fun x => { x with preset := 0, stopped := false, epoch := s.dev.epoch })))
      Completes (.partialResetReturn d) s fun t =>
        Becomes s (if anyPreset c3 then c3 else if (sendCaps c3).dev.safe.leaving then readyAgain (safeOver (sendCaps c3)) else sendCaps c3) t ∧
        (s.dev.safe.leaving = false → t.mem = s.mem ∧ t.ctx.die d = { x with preset := 0, stopped := false, epoch := s.dev.epoch })) ∧
    (bit v 7 = true → resetHeld s.ctx = true → Completes (.clkUreset d v) s fun t => t.mem = s.mem ∧ t.dev = s.dev) ∧
    (bit v 7 = true → resetHeld s.ctx = false → let k := 128 * d + v % 128
      (s.dev.job.running = true → (s.ctx.unit k).retired = false → Completes (.clkUreset d v) s fun t => t.mem = s.mem ∧
        t.dev = { s.dev with dies := t.dev.dies } ∧ t.ctx.die d = { x with uresetRefused := true }) ∧
      ((s.dev.job.running = false ∨ (s.ctx.unit k).retired = true) → x.preset = 0 → Completes (.clkUreset d v) s fun t => t.mem = s.mem ∧
        t.dev = { s.dev with dies := t.dev.dies, units := t.dev.units } ∧ t.ctx.die d = { x with uresetRefused := false } ∧
        t.ctx.unit k = { s.ctx.unit k with resetting := true } ∧ ∀ j, j ≠ k → t.ctx.unit j = s.ctx.unit j) ∧
      ((s.dev.job.running = false ∨ (s.ctx.unit k).retired = true) → x.preset ≠ 0 → Completes (.clkUreset d v) s fun t => t.mem = s.mem ∧
        t.dev = { s.dev with dies := t.dev.dies } ∧ t.ctx.die d = { x with uresetRefused := false })) ∧
    ((s.ctx.unit u).resetting = true → (s.ctx.die (dieOfUnit u)).preset ≠ 1 → Completes (.unitResetComplete u) s fun t =>
      t.ctx.unit u = (s.ctx.unit u).cleared ∧ (∀ k, k ≠ u → t.ctx.unit k = s.ctx.unit k) ∧
      (∀ i, i < 2 ^ 20 → t.byte (trBase u + i) = 0) ∧ (∀ i, i < 2 ^ 19 → t.byte (coreRam (4 * u) + i) = 0) ∧
      (∀ a, (seedbed s.ctx u).1 ≤ a → a < (seedbed s.ctx u).1 + (seedbed s.ctx u).2 → t.byte a = 0) ∧
      (s.dev.job.running = false → ∀ k, k / 4 = u → t.ctx.core k = {}))

/-- Start-up runs through its stages: the boot ROM, the selection of an image slot, the clocks and rails, LPDDR5X training and tests or the fast
path, the image copy, and READY with the automatic start; stage 5 tests the lanes before the links train. What a stage does not allow stops
start-up with its code. Completes: BOOT_ROM, SELECT_IMAGE, ROOT_PLL_LOCK, LOCK_TIMEOUT, LPDDR5X_TRAINING, START_TEST, IMAGE_COPY, FAST_PATH,
READY_ASSERT. -/
def Obligations.StartUpRunsItsStages : Prop :=
  ∀ (s : State) (straps present failing : List Nat) (slot response pll : Nat) (rails : List RailMeasure) (ucie : List (Nat × Nat))
    (found : List Defect) (bad : List Nat), straps.length = 8 → straps.all (fun v => v ≤ 1980) = true → slot < 8 → rails.length = 5 →
    ucie.length = 4 → ucie.all (fun r => r.1 ≤ 2 && (r.1 != 2 || r.2 ≤ 2)) = true → present.length = 32 → failing.length = 128 → pll < 5 →
    let c := s.ctx
    let b := s.dev.boot
    (stageOpen c 1 = true →
      let c1 := c.updBoot (fun b => { b with straps := (List.range 8).map (fun i => (i, strapLevel (straps.getD i 0))), slotPin := slot })
      (3 ≤ strapLevel (straps.getD 0 0) → Completes (.bootRom straps slot response) s fun t => Becomes s (bootStop 1 c1) t ∧ t.dev.boot.stopped = true ∧
        t.dev.boot.error = 1) ∧
      (strapLevel (straps.getD 0 0) < 3 → Completes (.bootRom straps slot response) s fun t => t.mem = s.mem ∧ t.dev.boot.stage = 2 ∧
        t.dev.boot.slotPin = slot ∧ ∀ k, chooseDir c1 = some k →
          let c2 := c1.updBoot (fun b => { b with dirCopy := k })
          Becomes s (stageBegin 2 (identityLoad (seedOf response c2) c2)) t)) ∧
    (stageOpen c 2 = true →
      (chooseDir c = none → Completes .selectImage s fun t => Becomes s (bootStop 2 c) t ∧ t.dev.boot.error = 2) ∧
      (∀ k, chooseDir c = some k →
        let c1 := clearRecord (c.updBoot (fun b => { b with dirCopy := k }))
        let first := dirField c1 36 1 % 2
        ([first, 1 - first].find? (slotPasses c1) = none → Completes .selectImage s fun t => Becomes s (bootStop 3 c1) t ∧ t.dev.boot.error = 3) ∧
        Completes .selectImage s (Becomes s (match [first, 1 - first].find? (slotPasses c1) with
          | none => bootStop 3 c1
          | some n =>
            let c2 := startNumberRise c1
            let c3 := idCertCheck (certInstall (imageSlot c2 n) 1 (certInstall (imageSlot c2 n) 0 c2))
            mgmtLoad (imageSlot c3 n) (slotLoad n ((checkSignature c1 (imageSlot c1 n)).getD 0) c3))))) ∧
    (stageOpen c 3 = true →
      (let c1 := forAll (List.range 4) (fun d a => ucieTrain d (ucie.getD d (0, 0)) a) (clocksStart c)
       let p := sectionAt c (imageSlot c b.slot) 3
       let c2 := forAll [4, 0, 1, 2, 3] (fun r a => railSet p r (rails.getD r { readback := 0, measured := 0, failures := 3 }) a) c1
       Completes (.rootPllLock rails ucie) s (Becomes s (if c2.dev.boot.stopped || c2.dev.safe.safe then c2
         else (stageBegin 4 c2).updBoot (fun b => { b with sub := if b.stage4Ever then 0 else 1 })))) ∧
      ((if pll < 4 then (c.die pll).locked else s.dev.stw.locked) = false → b.lockTimeout ≤ s.dev.slow - b.stageAt →
        Completes (.lockTimeout pll) s fun t => Becomes s (bootStop 4 c) t ∧ t.dev.boot.error = 4)) ∧
    (stageOpen c 4 = true →
      (b.sub = 1 → (∀ k, k < 32 → present.getD k 0 = 128) → (∀ k, k < 128 → 8 ≤ failing.getD k 0) →
        Completes (.lpddr5xTraining present failing) s fun t => t.dev.boot = { b with sub := 2 } ∧ (∀ a, a < lpSize → t.byte a = 0) ∧
          (∀ a, lpSize ≤ a → t.byte a = s.byte a) ∧ ∀ d, d < 4 → (t.ctx.die d).trained = true ∧ (t.ctx.die d).chTrained = 2 ^ 32 - 1) ∧
      (b.sub = 2 → Completes (.startTest found bad) s (Becomes s
        ((((bad.filter (fun a => decide (a < lpSize))).map wordBase).foldl (fun a l => eccEvent l true (setPoison l a))
          ((found.filter (fun e => e.kind != 3)).foldl (fun a e => testEntry e a) (sramZero c))).updBoot (fun b => { b with sub := 3 })))) ∧
      (b.sub = 3 →
        let image := imageSlot c b.slot
        let c1 := store (imageCopy 0) (c.read image (imgField c image 12 4)) c
        Completes .imageCopy s (Becomes s (if imageOk c1 (imageCopy 0) then stageFourEnd 0 false c1
          else stageBegin 2 (c1.updBoot (fun x => { x with exclA := x.exclA || x.slot == 0, exclB := x.exclB || x.slot == 1 })))) ∧
        (imageOk c1 (imageCopy 0) = false → Completes .imageCopy s fun t => t.dev.boot.stage = 2 ∧
          (b.slot = 0 → t.dev.boot.exclA = true) ∧ (b.slot = 1 → t.dev.boot.exclB = true))) ∧
      (b.sub = 0 →
        (Completes (.fastPath false) s fun t => t.mem = s.mem ∧ t.dev = { s.dev with boot := { b with sub := 1 } }) ∧
        (∀ k, Clean s → [0, 1].find? (copyMatches c) = some k → Completes (.fastPath true) s (Becomes s (stageFourEnd k true
          (forAll (List.range 4) (fun d a => a.updDie d (fun x => { x with trained := x.chTrained == 0xFFFFFFFF })) (sramZero c))))))) ∧
    (stageOpen c 5 = true → b.sub = 1 → Completes (.startTest found bad) s (Becomes s (linkStage (applyDefects
      ((found.filter (fun e => e.kind == 3 && (usedPorts c).contains e.index && decide (e.sub < 4))).foldl (fun a e => testEntry e a) c))))) ∧
    (stageOpen c 8 = true → b.readyEver = false →
      let c1 := applyDefects c
      let c2 := c1.updBoot (fun b => { b with digest := sha384Nat (listEntries c1).flatten, appended := 0, readyEver := true })
      let c3 := forAll (List.range 4) (fun d a => a.updDie d (fun x => { x with epoch := s.dev.epoch })) c2
      Completes .readyAssert s (Becomes s (autoStart 1 0 (c3.updPins (fun p => { p with ready := true })))))

/-- A loader at work takes each segment of its group's broadcast in order, a good one to its core's RAM, changes to glean at the group's end
marker or after GLEAN_WAIT, and fetches each segment once an attempt. The load ends LOADED, its core at its entry, with every segment and the
digest right, else is tried again, three times in all. Completes: SEGMENT, GLEAN_WAIT, GLEAN_FETCH, CORE_LOAD_COMPLETE. -/
def Obligations.LoadersLoadTheirCores : Prop :=
  ∀ (s : State) (n q : Nat) (bs : List Byte), n < 2094 → loaderRuns s.ctx n = true →
    let l := s.ctx.loader n
    let key := loadKey n (bit (ofBytes ((bs.drop 6).take 1)) 1) (ofBytes ((bs.drop 8).take 4))
    let len := ofBytes ((bs.drop 12).take 2) % 8192
    let load := (bs.drop 32).take len
    let only (t : State) : Prop := t.mem = s.mem ∧ t.dev = { s.dev with boot := t.dev.boot } ∧
      t.dev.boot = { s.dev.boot with loaders := t.dev.boot.loaders } ∧ ∀ k, k ≠ n → t.ctx.loader k = s.ctx.loader k
    (l.gleaning = false →
      (drillTurn s.ctx n = true →
        let mine := ofBytes ((bs.drop 4).take 2) = l.group
        let count := groupCount s.ctx l.plan l.group
        let l1 : Loader := { l with next := l.next + 1, since := s.dev.slow }
        (count ≤ l.next → mine → bit (ofBytes ((bs.drop 6).take 1)) 0 = true → Completes (.segment n bs) s fun t => only t ∧
          t.ctx.loader n = { l with since := s.dev.slow, gleaning := true }) ∧
        (l.next < count → segCrcOk bs = false → Clean s → Completes (.segment n bs) s fun t => only t ∧ t.ctx.loader n = l1) ∧
        (l.next < count → segCrcOk bs = true → bs = s.bytes (l.segs + 4128 * (groupFirst s.ctx l.plan l.group + l.next)) 4128 → Clean s →
          (¬ mine → Completes (.segment n bs) s fun t => only t ∧ t.ctx.loader n = l1) ∧
          (mine → Completes (.segment n bs) s fun t =>
            t.bytes key load.length = load ∧ KeepsMemoryBut key load.length s t ∧ t.dev = { s.dev with boot := t.dev.boot } ∧
            (t.ctx.loader n).next = l1.next ∧ (t.ctx.loader n).since = s.dev.slow ∧
            (t.ctx.loader n).has (ofBytes (bs.take 4)) = true))) ∧
      (s.ctx.readNat (l.plan + 8) 4 ≤ s.dev.slow - l.since → Completes (.gleanWait n) s fun t => only t ∧
        t.ctx.loader n = { l with gleaning := true })) ∧
    (l.gleaning = true →
      ((groupSeqs s.ctx l).contains q = true → l.has q = false → l.tried.contains q = false → Clean s →
        let b := s.bytes (l.segs + 4128 * q) 4128
        (segCrcOk b = false → Completes (.gleanFetch n q) s fun t => only t ∧ t.ctx.loader n = { l with tried := q :: l.tried }) ∧
        (segCrcOk b = true → Completes (.gleanFetch n q) s (Becomes s
          (segTake n b (s.ctx.updLoader n (fun l => { l with tried := q :: l.tried })))))) ∧
      ((groupSeqs s.ctx l).all (fun q => l.has q || l.tried.contains q) = true →
        let complete := (groupSeqs s.ctx l).all l.has
        let payload := (groupSeqs s.ctx l).flatMap (fun q => match l.got.find? (fun p => p.1 == q) with
          | some (_, key, len) => s.ctx.read key len
          | none => [])
        let good := complete && sha384 payload == s.ctx.read (groupAt l.plan l.group + 8) 48
        (good = true → Completes (.coreLoadComplete n) s fun t => t.mem = s.mem ∧ t.ctx.core n = { s.ctx.core n with load := .loaded, pc := entryPc n } ∧
          t.ctx.loader n = { l with active := false } ∧ ∀ k, k ≠ n → t.ctx.core k = s.ctx.core k) ∧
        (good = false → l.attempt ≠ 3 → Completes (.coreLoadComplete n) s fun t => only t ∧
          t.ctx.loader n = { l with attempt := l.attempt + 1, tried := [], got := if complete then [] else l.got }) ∧
        (good = false → l.attempt = 3 → Completes (.coreLoadComplete n) s (Becomes s
          (loadStageEnd (coreDefective n (s.ctx.updLoader n (fun l => { l with active := false }))))))))

/-! ### The steward die and its host -/

/-- A queue pair's TAIL and READ are taken where they stay within the queue and the ring, else ignored with QERR or RERR; ENABLE put in or out of
service. SEC_ATTEST latches the report and is BUSY until the signed report is written with the asker's rights. A register write by a master
that may not write it is refused; a written half leaves the other as it was. Completes: STW_QPTR_TAIL, STW_RPTR_READ, PAIR_DISABLE,
PAIR_ENABLE, SEC_ATTEST_START, ATTESTATION_COMPLETE, REGISTER_WRITE. That RESULT reads 0 while BUSY is set is the model's choice (log
entry 141). -/
def Obligations.HostRegistersTakeEffect : Prop :=
  ∀ (s : State) (m : Master) (q v a n : Nat), q < 8 → v < 2 ^ 32 → m.wf = true → masterActs s.ctx m = true →
    let p := s.ctx.pair q
    let ok : Ctx := masterAnswer m {} s.ctx
    (mayWrite s.ctx m .steward (0x40200 + 8 * q) = true →
      (2 ^ p.log2 < (v + 2 ^ 32 - p.head) % 2 ^ 32 → Completes (.stwQptrTail m q v) s fun t => t.mem = s.mem ∧
        t.ctx.pair q = { p with qerr := true } ∧ ∀ k, k ≠ q → t.ctx.pair k = s.ctx.pair k) ∧
      ((v + 2 ^ 32 - p.head) % 2 ^ 32 ≤ 2 ^ p.log2 → Completes (.stwQptrTail m q v) s
        (AfterSequencer s (ok.updPair q (fun x => { x with tail := v }))))) ∧
    (mayWrite s.ctx m .steward (0x40240 + 8 * q) = true →
      (ringSize p < (p.write + 2 ^ 32 - v) % 2 ^ 32 → Completes (.stwRptrRead m q v) s fun t => t.mem = s.mem ∧
        t.ctx.pair q = { p with rerr := true } ∧ ∀ k, k ≠ q → t.ctx.pair k = s.ctx.pair k) ∧
      ((p.write + 2 ^ 32 - v) % 2 ^ 32 ≤ ringSize p → Completes (.stwRptrRead m q v) s
        (AfterSequencer s (unblock (ok.updPair q (fun x => { x with read := v })))))) ∧
    (stwMgmtRuns s.ctx = true →
      (p.enable = true → Completes (.pairDisable q) s
        (AfterSequencer s (disableFn (.pair q) (s.ctx.updPair q (fun x => { x.leave with enable := false }))))) ∧
      (p.enable = false → Completes (.pairEnable q) s (AfterSequencer s
        ((s.ctx.updPair q (fun x => { x.skip with enable := true, qerr := false, rerr := false })).updJob (fun j => { j with
          drains := j.drains.filter (fun d => d.fn != .pair q), disabled := j.disabled.filter (fun f => f != .pair q) }))))) ∧
    (∀ w, w < 2 ^ 64 → mayWrite s.ctx m .steward 0x10008 = true → w % 2 = 1 → s.dev.sec.busy = false →
      Completes (.secAttestStart m w) s fun t => t.mem = s.mem ∧ t.dev.sec = { s.dev.sec with
        addr := w / 2 ^ 16, busy := true, result := 0, report := reportOf s.ctx, target := w / 2 ^ 16, asker := some m }) ∧
    (s.dev.sec.busy = true → s.dev.sec.asker = some m →
      let k := s.dev.sec
      let done (r : Nat) (d : Dev) : Dev := { d with sec := { d.sec with busy := false, result := r, report := [], asker := none } }
      (k.pufOk = false → Completes .attestationComplete s fun t => t.mem = s.mem ∧ t.dev = done 3 s.dev) ∧
      (k.pufOk = true → reportOk s.ctx m k.target 2400 = false → Completes .attestationComplete s fun t =>
        t.dev = done 2 (masterRefused m k.target s.ctx).dev ∧ Wrote s (masterRefused m k.target s.ctx) t) ∧
      (k.pufOk = true → reportOk s.ctx m k.target 2400 = true → windowHeld s.ctx k.target = false →
        firstProtected s.ctx k.target 2400 = none → Clean s →
        let g := deviceSign s.ctx (sha384Nat k.report)
        let data := k.report ++ toBytesBE 48 g.1 ++ toBytesBE 48 g.2
        Completes .attestationComplete s fun t => t.bytes k.target data.length = data ∧ KeepsMemoryBut k.target data.length s t ∧
          t.dev = done 1 s.dev)) ∧
    (∀ sp off w, a < 2 ^ 48 → sizeOk n = true → w < 2 ^ 64 →
      (place a = .stewardReg off ∧ sp = .steward) ∨ (∃ d, place a = .dieReg d off ∧ sp = .die d) →
      ((∀ reg i, regFind s.ctx sp off n = some (reg, i) → mayWrite s.ctx m sp reg = false) →
        Completes (.registerWrite m a n w) s (Becomes s (masterRefused m a s.ctx))) ∧
      (∀ k b, k < 6 → b = 0 ∨ b = 4 → place a = .stewardReg (0x10080 + 8 * k + b) → n = 4 → w < 2 ^ 32 →
        mayWrite s.ctx m .steward (0x10080 + 8 * k) = true → Completes (.registerWrite m a n w) s fun t => t.mem = s.mem ∧
          let old := Tab.get 0 s.dev.sec.nonce k
          Tab.get 0 t.dev.sec.nonce k = if b = 0 then old / 2 ^ 32 % 2 ^ 32 * 2 ^ 32 + w else old % 2 ^ 32 + w * 2 ^ 32))

/-- The cores of the steward die and of die management, and the PCIe functions, read and write the memory they reach and nothing else; what they do
not reach is refused, poison read by a core is an access fault. The firmware writes the NVM outside its guarded regions. Functions are
disabled with their pairs, bus mastering is put off and on, and the link shows what it trained to. Completes: STEWARD_CORE_ACCESS,
MGMT_CORE_ACCESS, PCIE_ACCESS, NVM_WRITE, PCIE_FLR, SRIOV_DISABLE, BUS_MASTER_DISABLE, BUS_MASTER_ENABLE, PCIE_LINK_TRAINED. -/
def Obligations.MastersReachTheirMemory : Prop :=
  ∀ (s : State) (core a n v rd f bar off : Nat) (sg w : Bool) (kind : Access) (data : List Byte), Clean s → a < 2 ^ 48 → sizeOk n = true →
    v < 2 ^ 64 → rd < 32 → f < 9 → (bar = 0 ∨ bar = 2 ∨ bar = 4) → off + data.length ≤ 2 ^ 32 →
    (∀ i ∈ [(Instr.stewardCoreAccess core kind a n v rd sg, decide (2070 ≤ core && core < 2094) && !(s.ctx.core core).faultDue, Master.app (core - 2070),
          fun x => appMemory s.ctx (core - 2070) x a n),
        (.mgmtCoreAccess core kind a n v rd sg, decide (2064 ≤ core && core < 2070),
          if core < 2068 then .dieMgmt (core - 2064) else .mgmt (core - 2068), fun x => mgmtMemory s.ctx core x a n)],
      i.2.1 = true → s.ctx.coreRuns core = true → (a % n = 0 ∨ kind = .fetch) → (∀ o, place a ≠ .stewardReg o) → (∀ d o, place a ≠ .dieReg d o) →
        (i.2.2.2 (kind == .store) = false → Completes i.1 s (Becomes s (masterRefused i.2.2.1 a s.ctx))) ∧
        (i.2.2.2 (kind == .store) = true → windowHeld s.ctx a = false →
          (kind = .store → firstProtected s.ctx a n = none → Completes i.1 s fun t => t.bytes a n = toBytes n v ∧ KeepsMemoryBut a n s t ∧
            t.dev = { s.dev with answers := t.dev.answers }) ∧
          (kind = .load → Completes i.1 s fun t => t.mem = s.mem ∧ t.dev = { s.dev with cores := t.dev.cores, answers := t.dev.answers } ∧
            Tab.get {} t.dev.answers core = { ok := true, value := extend sg n (s.ctx.readNat a n) % 2 ^ 64 } ∧
            t.ctx.core core = (s.ctx.core core).setReg rd (BitVec.ofNat 64 (extend sg n (s.ctx.readNat a n))) ∧
            ∀ k, k ≠ core → t.ctx.core k = s.ctx.core k) ∧
          (kind = .fetch → Completes i.1 s fun t => t.mem = s.mem ∧ t.dev = { s.dev with answers := t.dev.answers } ∧
            Tab.get {} t.dev.answers core = { ok := true, value := s.ctx.readNat a n }))) ∧
    (masterActs s.ctx (pcieMaster f) = true → bar ≠ 0 →
      let target := if bar = 4 then (if bar4Ok s.ctx f off n then some (queueRam + off) else none)
        else (bar2 s.ctx f off n).filter (fun b => appLpddr s.ctx w b n)
      (target = none → Completes (.pcieAccess f bar off n w v) s (Becomes s (masterRefused (pcieMaster f) off s.ctx))) ∧
      (∀ b, target = some b →
        (w = false → Completes (.pcieAccess f bar off n w v) s fun t => t.mem = s.mem ∧
          t.dev = { s.dev with stw := { s.dev.stw with pcie := { ok := true, value := s.ctx.readNat b n } } }) ∧
        (w = true → firstProtected s.ctx b n = none → Completes (.pcieAccess f bar off n w v) s fun t => t.bytes b n = toBytes n v ∧
          KeepsMemoryBut b n s t ∧ t.dev = { s.dev with stw := { s.dev.stw with pcie := {} } }))) ∧
    (stwMgmtRuns s.ctx = true → resetHeld s.ctx = false → data ≠ [] →
      (nvmRefused s.ctx off data.length = true → Completes (.nvmWrite off data true) s (Becomes s (violateMgmt 2068 s.ctx))) ∧
      (nvmRefused s.ctx off data.length = false → Completes (.nvmWrite off data true) s fun t => t.bytes (nvmBase + off) data.length = data ∧
        KeepsMemoryBut (nvmBase + off) data.length s t ∧ t.dev = { s.dev with boot := { s.dev.boot with dirCopy := t.dev.boot.dirCopy } })) ∧
    (f ≤ s.dev.stw.numVfs → Completes (.pcieFlr f) s (AfterSequencer s (functionDisable f s.ctx))) ∧
    (1 ≤ f → f ≤ 8 → f ≤ s.dev.stw.numVfs → Completes (.sriovDisable (some f)) s (AfterSequencer s (functionDisable f s.ctx))) ∧
    (Completes (.sriovDisable none) s (AfterSequencer s
      (forAll ((List.range s.dev.stw.numVfs).map (fun i => i + 1)) functionDisable s.ctx))) ∧
    (s.dev.stw.busMaster = true →
      let c1 := s.ctx.updStw (fun x => { x with busMaster := false })
      (s.dev.srv.t2Form ≠ 0 → Completes .busMasterDisable s fun t => t.mem = s.mem ∧ t.dev = c1.dev) ∧
      (s.dev.srv.t2Form = 0 → Completes .busMasterDisable s
        (AfterSequencer s (failAll (fun r => r.tier == 2 || r.moving == some 2) 0x20 c1)))) ∧
    (Completes .busMasterEnable s (AfterSequencer s
      ((s.ctx.updStw (fun x => { x with busMaster := true })).updJob (fun j => { j with disabled := j.disabled.filter (fun g => g != .pcie 0) })))) ∧
    (resetHeld s.ctx = false → v ≤ s.dev.stw.maxGen → v < 3 → 1 ≤ rd → rd ≤ 16 → Completes (.pcieLinkTrained v rd) s fun t => t.mem = s.mem ∧
      t.dev = { s.dev with stw := { s.dev.stw with gen := v, width := rd } })

/-- The management bridge reads the register at its address and moves eight bytes on. The test port's instructions select what it shifts out: a
zero, the device's identity, the boundary register. Completes: I3C_ADDRESS_WRITE, I3C_BRIDGE_READ, BYPASS, IDCODE, SAMPLE_PRELOAD, EXTEST. -/
def Obligations.BridgeAndTestPortRead : Prop :=
  ∀ (s : State) (v : Nat), v < 2 ^ 64 → let x := s.dev.stw
    let identity (part : Nat) : Nat := word [(1, 1), (11, Config.jtagMaker), (16, part), (4, Config.jtagVersion)]
    let sets (y : StwSt) (t : State) : Prop := t.mem = s.mem ∧ t.dev = { s.dev with stw := y }
    (bridgeRuns s.ctx = true →
      Completes (.i3cAddressWrite v) s (sets { x with bridgeAddr := v }) ∧
      Completes .i3cBridgeRead s (sets { x with
        bridge := { ok := true, value := bridgeValue s.ctx x.bridgeAddr }, bridgeAddr := (x.bridgeAddr + 8) % 2 ^ 64 })) ∧
    Completes .bypass s (sets { x with jtagInstr := 0, jtagOut := 0 }) ∧
    (s.dev.boot.armed = true → Completes .idcode s (sets { x with jtagInstr := 1, jtagOut := identity (pcieDeviceId s.ctx 0) })) ∧
    (s.dev.boot.armed = false → Completes .idcode s fun t => t.mem = s.mem ∧
      t.dev.stw = { x with jtagInstr := 1, jtagOut := identity (Config.freeNat s.dev.fresh) }) ∧
    (Completes .samplePreload s fun t => t.mem = s.mem ∧ t.dev = { s.dev with
      fresh := s.dev.fresh + 1
      stw := { x with jtagInstr := 2, bsr := Config.freeNat s.dev.fresh, jtagOut := Config.freeNat s.dev.fresh } }) ∧
    (s.dev.pins.coldRst = true → Completes .extest s (sets { x with jtagInstr := 3, jtagOut := x.bsr })) ∧
    (s.dev.pins.coldRst = false → Completes .extest s (sets { x with jtagInstr := 0, jtagOut := 0 }))
end

