-- ==== Sys2Proof/Laws/Memory.lean ====
section
/-!
SUPPORT. The memory operations: a read after a write, every other byte kept, the canonical form kept, and what `run` makes of a
meaning's log of writes.
-/
namespace Sys2Proof.Machine

/-! ### Reading -/

@[simp] theorem Memory.get_nil (a : Nat) : Memory.get [] a = 0 := rfl

theorem Memory.get_cons (p : Host.Cell) (m : List Host.Cell) (a : Nat) :
    Memory.get (p :: m) a = if p.1 = a then p.2 else Memory.get m a := by
  by_cases h : p.1 = a <;> simp [Memory.get, h]

theorem Memory.get_append (l m : List Host.Cell) (a : Nat) :
    Memory.get (l ++ m) a = if l.any (fun p => p.1 == a) then Memory.get l a else Memory.get m a := by
  induction l with
  | nil => simp
  | cons p l ih => by_cases h : p.1 = a <;> simp [Memory.get_cons, h, ih]

/-- Filtering by a predicate on addresses keeps what it keeps and loses the rest. -/
theorem Memory.get_filter (q : Nat → Bool) (m : List Host.Cell) (a : Nat) :
    Memory.get (m.filter (fun p => q p.1)) a = if q a then Memory.get m a else 0 := by
  induction m with
  | nil => simp
  | cons p m ih =>
    by_cases hq : q p.1
    · by_cases h : p.1 = a
      · subst h; simp [hq, Memory.get_cons]
      · simp [hq, Memory.get_cons, h, ih]
    · by_cases h : p.1 = a
      · subst h; simp [hq, ih]
      · simp [hq, Memory.get_cons, h, ih]

theorem Memory.any_filter_ne (q : Nat → Bool) (m : List Host.Cell) (a : Nat) (h : q a = false) :
    (m.filter (fun p => q p.1)).any (fun p => p.1 == a) = false := by
  induction m with
  | nil => rfl
  | cons p m ih =>
    by_cases hq : q p.1
    · have : p.1 ≠ a := fun e => by simp [e, h] at hq
      simp only [List.filter_cons, hq, ite_true, List.any_cons, ih]
      simp [this]
    · simpa [List.filter_cons, hq] using ih

/-- A byte not listed reads zero. -/
theorem Memory.get_eq_zero_of_any (m : List Host.Cell) (a : Nat) (h : m.any (fun p => p.1 == a) = false) :
    Memory.get m a = 0 := by
  induction m with
  | nil => rfl
  | cons p m ih =>
    simp only [List.any_cons, Bool.or_eq_false_iff] at h
    have : p.1 ≠ a := by simpa using h.1
    simp [Memory.get_cons, this, ih h.2]

/-- A list of the cells below `a` in front of cells at `a` and above. -/
theorem Memory.get_split (m r : List Host.Cell) (a b : Nat) (hr : b < a → Memory.get r b = 0) :
    Memory.get (m.filter (fun p => decide (p.1 < a)) ++ r) b = if b < a then Memory.get m b else Memory.get r b := by
  have hlo := Memory.get_filter (fun x => decide (x < a)) m b
  rw [Memory.get_append]
  by_cases h : b < a
  · rw [if_pos h]
    split
    · simpa [h] using hlo
    · next hany =>
      have hz := Memory.get_eq_zero_of_any _ b (Bool.eq_false_iff.mpr hany)
      rw [hlo] at hz
      rw [hr h]
      simpa [h] using hz.symm
  · rw [if_neg h, Memory.any_filter_ne (fun x => decide (x < a)) m b (by simpa using h), if_neg (by simp)]

/-- A read after a write: the byte written at its address, every other byte as before. -/
theorem Memory.get_put (m : List Host.Cell) (a b : Nat) (v : Byte) :
    Memory.get (Memory.put m a v) b = if b = a then v else Memory.get m b := by
  have hhi : Memory.get (m.filter (fun p => decide (a < p.1))) b = if a < b then Memory.get m b else 0 := by
    simpa using Memory.get_filter (fun x => decide (a < x)) m b
  unfold Memory.put
  rw [List.append_assoc]
  rcases eq_or_ne v 0 with hv | hv
  · rw [if_pos hv, List.nil_append, Memory.get_split _ _ _ _ (fun h => by rw [hhi, if_neg (by omega)]), hhi]
    rcases Nat.lt_trichotomy b a with h | h | h
    · rw [if_pos h, if_neg (by omega)]
    · rw [if_neg (by omega), if_neg (by omega), if_pos h, hv]
    · rw [if_neg (by omega), if_pos h, if_neg (by omega)]
  · rw [if_neg hv, List.singleton_append,
      Memory.get_split _ _ _ _ (fun h => by rw [Memory.get_cons, if_neg (by simp only; omega), hhi, if_neg (by omega)]),
      Memory.get_cons, hhi]
    simp only
    rcases Nat.lt_trichotomy b a with h | h | h
    · rw [if_pos h, if_neg (by omega)]
    · rw [if_neg (by omega), if_pos h.symm, if_pos h]
    · rw [if_neg (by omega), if_neg (by omega), if_pos h, if_neg (by omega)]

/-- Zeroed bytes read zero, every other byte as before. -/
theorem Memory.get_zero (m : List Host.Cell) (lo n b : Nat) :
    Memory.get (Memory.zero m lo n) b = if lo ≤ b ∧ b < lo + n then 0 else Memory.get m b := by
  have := Memory.get_filter (fun x => decide (x < lo) || decide (lo + n ≤ x)) m b
  unfold Memory.zero
  rw [this]
  by_cases h : lo ≤ b ∧ b < lo + n
  · simp [h, show ¬ b < lo by omega, show ¬ lo + n ≤ b by omega]
  · have : (decide (b < lo) || decide (lo + n ≤ b)) = true := by simp; omega
    simp [h, this]

/-- Undefined bytes take free values, every other byte is as before. -/
theorem Memory.get_free (m : List Host.Cell) (lo n seed b : Nat) :
    Memory.get (Wr.apply m (.free lo n seed)) b =
      if lo ≤ b ∧ b < lo + n then Config.freeByte (seed + (b - lo)) else Memory.get m b := by
  simp only [Wr.apply]
  induction n with
  | zero => simp
  | succ n ih =>
    rw [List.range_succ, List.foldl_append]
    simp only [List.foldl_cons, List.foldl_nil, Memory.get_put, ih]
    by_cases h : b = lo + n
    · subst h; simp
    · by_cases h2 : lo ≤ b ∧ b < lo + n
      · simp [h, h2, show b < lo + (n + 1) by omega]
      · simp [h, h2, show ¬ (lo ≤ b ∧ b < lo + (n + 1)) by omega]

/-- A byte after a meaning's writes is what the meaning's own read finds. -/
theorem get_applyLog (m : List Host.Cell) (l : List Wr) (a : Nat) : Memory.get (applyLog m l) a = readLog m a l := by
  induction l with
  | nil => rfl
  | cons w l ih =>
    cases w with
    | byte b v => simp [applyLog, Wr.apply, readLog, Memory.get_put, ih]
    | zero lo n => simp [applyLog, Wr.apply, readLog, Memory.get_zero, ih]
    | free lo n seed => rw [applyLog, Memory.get_free]; simp [readLog, ih]

/-! ### The canonical form -/

theorem Memory.wf_filter (q : Host.Cell → Bool) {m : List Host.Cell} (h : Memory.wf m) : Memory.wf (m.filter q) :=
  ⟨h.1.filter q, fun p hp => h.2 p (List.mem_of_mem_filter hp)⟩

theorem Memory.wf_zero {m : List Host.Cell} (lo n : Nat) (h : Memory.wf m) : Memory.wf (Memory.zero m lo n) :=
  Memory.wf_filter _ h

theorem Memory.wf_put {m : List Host.Cell} (a : Nat) (v : Byte) (h : Memory.wf m) : Memory.wf (Memory.put m a v) := by
  have lo := Memory.wf_filter (fun p => decide (p.1 < a)) h
  have hi := Memory.wf_filter (fun p => decide (a < p.1)) h
  unfold Memory.put
  refine ⟨?_, ?_⟩
  · rw [List.pairwise_append, List.pairwise_append]
    refine ⟨⟨lo.1, by split <;> simp, ?_⟩, hi.1, ?_⟩
    · intro p hp q hq
      have hp' : p.1 < a := by simpa using (List.mem_filter.mp hp).2
      split at hq
      · simp at hq
      · simp only [List.mem_singleton] at hq
        subst hq; exact hp'
    · intro p hp q hq
      have hq' : a < q.1 := by simpa using (List.mem_filter.mp hq).2
      rcases List.mem_append.mp hp with hp | hp
      · have : p.1 < a := by simpa using (List.mem_filter.mp hp).2
        omega
      · split at hp
        · simp at hp
        · simp only [List.mem_singleton] at hp
          subst hp; exact hq'
  · intro p hp
    rcases List.mem_append.mp hp with hp | hp
    · rcases List.mem_append.mp hp with hp | hp
      · exact lo.2 p hp
      · split at hp
        · simp at hp
        · next hv =>
          simp only [List.mem_singleton] at hp
          subst hp; exact hv
    · exact hi.2 p hp

theorem Memory.wf_apply {m : List Host.Cell} (w : Wr) (h : Memory.wf m) : Memory.wf (w.apply m) := by
  cases w with
  | byte a v => exact Memory.wf_put a v h
  | zero lo n => exact Memory.wf_zero lo n h
  | free lo n seed =>
    simp only [Wr.apply]
    induction n with
    | zero => simpa using h
    | succ n ih =>
      rw [List.range_succ, List.foldl_append]
      exact Memory.wf_put _ _ ih

/-- A log of writes keeps the canonical form. -/
theorem wf_applyLog {m : List Host.Cell} (l : List Wr) (h : Memory.wf m) : Memory.wf (applyLog m l) := by
  induction l with
  | nil => exact h
  | cons w l ih => exact Memory.wf_apply w ih

/-- Two canonical memories with equal bytes are equal: equal memories are equal data. -/
theorem Memory.ext {l m : List Host.Cell} (hl : Memory.wf l) (hm : Memory.wf m) (h : ∀ a, Memory.get l a = Memory.get m a) : l = m := by
  induction l generalizing m with
  | nil =>
    cases m with
    | nil => rfl
    | cons p m =>
      have := h p.1
      rw [Memory.get_nil, Memory.get_cons, if_pos rfl] at this
      exact absurd this.symm (hm.2 p (by simp))
  | cons p l ih =>
    obtain ⟨hl1, hl2⟩ := hl
    rw [List.pairwise_cons] at hl1
    cases m with
    | nil =>
      have := h p.1
      rw [Memory.get_nil, Memory.get_cons, if_pos rfl] at this
      exact absurd this (hl2 p (by simp))
    | cons q m =>
      obtain ⟨hm1, hm2⟩ := hm
      rw [List.pairwise_cons] at hm1
      have below : ∀ (x : Nat) (n : List Host.Cell), (∀ r ∈ n, x < r.1) → Memory.get n x = 0 := fun x n hn => by
        refine Memory.get_eq_zero_of_any n x ?_
        simp only [List.any_eq_false, beq_iff_eq]
        intro r hr e
        have := hn r hr
        omega
      have hpq : p.1 = q.1 := by
        rcases Nat.lt_trichotomy p.1 q.1 with hlt | heq | hlt
        · have := h p.1
          rw [Memory.get_cons, if_pos rfl, below p.1 (q :: m) (fun r hr => by
            rcases List.mem_cons.mp hr with rfl | hr
            · exact hlt
            · have := hm1.1 r hr; omega)] at this
          exact absurd this (hl2 p (by simp))
        · exact heq
        · have := h q.1
          rw [Memory.get_cons (p := q), if_pos rfl, below q.1 (p :: l) (fun r hr => by
            rcases List.mem_cons.mp hr with rfl | hr
            · exact hlt
            · have := hl1.1 r hr; omega)] at this
          exact absurd this.symm (hm2 q (by simp))
      have hv : p.2 = q.2 := by
        have := h p.1
        rwa [Memory.get_cons, if_pos rfl, Memory.get_cons, if_pos hpq.symm] at this
      have htail : l = m := by
        refine ih ⟨hl1.2, fun r hr => hl2 r (by simp [hr])⟩ ⟨hm1.2, fun r hr => hm2 r (by simp [hr])⟩ (fun a => ?_)
        by_cases ha : p.1 = a
        · subst ha
          rw [below p.1 l hl1.1, below p.1 m (fun r hr => hpq ▸ hm1.1 r hr)]
        · have := h a
          rwa [Memory.get_cons, if_neg ha, Memory.get_cons, if_neg (hpq ▸ ha)] at this
      rw [htail, show p = q from Prod.ext hpq hv]

/-! ### Writing bytes -/

@[simp] theorem Ctx.write_mem (c : Ctx) (a : Nat) (l : List Byte) : (c.write a l).mem = c.mem := by
  induction l generalizing c a with
  | nil => rfl
  | cons v l ih => rw [Ctx.write, ih]

@[simp] theorem Ctx.write_dev (c : Ctx) (a : Nat) (l : List Byte) : (c.write a l).dev = c.dev := by
  induction l generalizing c a with
  | nil => rfl
  | cons v l ih => rw [Ctx.write, ih]

/-- A read after a write of bytes: those bytes from the address on, every other byte as before. -/
theorem Ctx.byte_write (c : Ctx) (a : Nat) (l : List Byte) (b : Nat) :
    (c.write a l).byte b = if a ≤ b ∧ b < a + l.length then l.getD (b - a) 0 else c.byte b := by
  induction l generalizing c a with
  | nil => simp [Ctx.write]
  | cons v l ih =>
    rw [Ctx.write, ih]
    have hb : (Ctx.mk c.mem c.dev (.byte a v :: c.log)).byte b = if b = a then v else c.byte b := by
      simp [Ctx.byte, readLog]
    rw [hb]
    by_cases h0 : b = a
    · subst h0; simp
    · by_cases h1 : a + 1 ≤ b ∧ b < a + 1 + l.length
      · rw [if_pos h1, if_pos (by simp only [List.length_cons]; omega)]
        rw [show b - a = (b - (a + 1)) + 1 by omega, List.getD_cons_succ]
      · rw [if_neg h1, if_neg h0, if_neg (by simp only [List.length_cons]; omega)]

/-- Reading back exactly the bytes written. -/
theorem Ctx.read_write (c : Ctx) (a : Nat) (l : List Byte) : (c.write a l).read a l.length = l := by
  apply List.ext_getElem
  · simp [Ctx.read]
  · intro i h1 h2
    simp [Ctx.read, Ctx.byte_write, h2, List.getD_eq_getElem?_getD]

/-! ### `run` and `perform` -/

/-- The queue is not the meaning's to change. -/
@[simp] theorem State.run_pending (s : State) (f : Ctx → Ctx) : (s.run f).pending = s.pending := rfl
/-- The devices after a command are its meaning's. -/
@[simp] theorem State.run_dev (s : State) (f : Ctx → Ctx) : (s.run f).dev = (f s.ctx).dev := rfl
/-- A byte after a command is the byte its meaning would read. -/
@[simp] theorem State.byte_run (s : State) (f : Ctx → Ctx) (a : Nat) : (s.run f).byte a = readLog s.mem a (f s.ctx).log :=
  get_applyLog s.mem _ a
/-- The same, from the context the meaning ends with. -/
theorem State.byte_run' (s : State) (f : Ctx → Ctx) (a : Nat) (h : (f s.ctx).mem = s.mem) : (s.run f).byte a = (f s.ctx).byte a := by
  rw [State.byte_run, Ctx.byte, h]
/-- Memory is unchanged by a meaning that logs no write. -/
theorem State.run_mem_of_log (s : State) (f : Ctx → Ctx) (h : (f s.ctx).log = []) : (s.run f).mem = s.mem := by
  show applyLog s.mem (f s.ctx).log = s.mem
  rw [h]; rfl
/-- Every command keeps the canonical form. -/
theorem State.wf_run {s : State} (f : Ctx → Ctx) (h : Memory.wf s.mem) : Memory.wf (s.run f).mem := wf_applyLog _ h

@[simp] theorem State.ctx_mem (s : State) : s.ctx.mem = s.mem := rfl
@[simp] theorem State.ctx_dev (s : State) : s.ctx.dev = s.dev := rfl
@[simp] theorem State.ctx_log (s : State) : s.ctx.log = [] := rfl

/-- What `perform` can answer: the next state of a well-formed command, else a refusal. -/
theorem perform_cases (i : Instr) (s : State) (f : Ctx → Ctx) :
    (i.wf = true ∧ perform i s f = .next (s.run f)) ∨ (i.wf = false ∧ perform i s f = .refused .illFormed) := by
  unfold perform
  by_cases h : i.wf = true
  · exact .inl ⟨h, by simp [h]⟩
  · exact .inr ⟨by simpa using h, by simp [h]⟩

/-- A well-formed command completes. -/
theorem perform_wf {i : Instr} (s : State) (f : Ctx → Ctx) (h : i.wf = true) : perform i s f = .next (s.run f) := by
  simp [perform, h]

/-- A next state of `perform` is the meaning's. -/
theorem perform_next {i : Instr} {s t : State} {f : Ctx → Ctx} (h : perform i s f = .next t) : i.wf = true ∧ t = s.run f := by
  unfold perform at h
  by_cases hw : i.wf = true
  · rw [if_pos hw] at h; exact ⟨hw, by cases h; rfl⟩
  · rw [if_neg hw] at h; cases h

/-- `perform` never faults. -/
theorem perform_not_fault (i : Instr) (s : State) (f : Ctx → Ctx) (r : Fault) : perform i s f ≠ .fault r := by
  unfold perform; split <;> simp

end Sys2Proof.Machine
end

