-- ==== Sys2Proof/Laws/Tab.lean ====
section
/-!
SUPPORT. Reading a table after writing it.
-/
namespace Sys2Proof.Machine

theorem Tab.get_del_ne {α : Type} (d : α) (t : Tab α) {j k : Nat} (h : j ≠ k) : Tab.get d (Tab.del k t) j = Tab.get d t j := by
  induction t with
  | nil => rfl
  | cons p t ih =>
    obtain ⟨i, w⟩ := p
    by_cases hi : i = k
    · have : i ≠ j := fun e => h (e ▸ hi)
      simp [Tab.del, Tab.get, hi, ih, show k ≠ j from fun e => h e.symm]
    · simp [Tab.del, Tab.get, hi, ih]

theorem Tab.get_insert_same {α : Type} (d : α) (t : Tab α) (k : Nat) (v : α) : Tab.get d (Tab.insert k v t) k = v := by
  induction t with
  | nil => simp [Tab.insert, Tab.get]
  | cons p t ih =>
    obtain ⟨i, w⟩ := p
    by_cases hi : i < k
    · simp [Tab.insert, Tab.get, hi, ih, show i ≠ k by omega]
    · simp [Tab.insert, Tab.get, hi]

theorem Tab.get_insert_ne {α : Type} (d : α) (t : Tab α) {j k : Nat} (v : α) (h : j ≠ k) :
    Tab.get d (Tab.insert k v t) j = Tab.get d t j := by
  induction t with
  | nil => simp [Tab.insert, Tab.get, h.symm]
  | cons p t ih =>
    obtain ⟨i, w⟩ := p
    by_cases hi : i < k
    · simp [Tab.insert, Tab.get, hi, ih]
    · simp [Tab.insert, Tab.get, hi, h.symm]

/-- A table holds what was last set at a number. -/
@[simp] theorem Tab.get_set_same {α : Type} (d : α) (t : Tab α) (k : Nat) (v : α) : Tab.get d (Tab.set t k v) k = v :=
  Tab.get_insert_same d (Tab.del k t) k v

/-- Setting one number leaves the others. -/
@[simp] theorem Tab.get_set_ne {α : Type} (d : α) (t : Tab α) {j k : Nat} (v : α) (h : j ≠ k) :
    Tab.get d (Tab.set t k v) j = Tab.get d t j :=
  (Tab.get_insert_ne d (Tab.del k t) v h).trans (Tab.get_del_ne d t h)

theorem Tab.del_insert {α : Type} (t : Tab α) (k : Nat) (v : α) (h : Tab.del k t = t) : Tab.del k (Tab.insert k v t) = t := by
  induction t with
  | nil => simp [Tab.insert, Tab.del]
  | cons p t ih =>
    obtain ⟨i, w⟩ := p
    by_cases hi : i = k
    · subst hi
      have hl : (Tab.del i t).length ≤ t.length := by
        clear ih h
        induction t with
        | nil => simp [Tab.del]
        | cons q t ih =>
          obtain ⟨j, x⟩ := q
          by_cases hj : j = i <;> simp [Tab.del, hj] <;> omega
      simp only [Tab.del, if_pos] at h
      rw [h] at hl
      simp at hl
    · simp only [Tab.del, hi, if_false, List.cons.injEq, true_and] at h
      by_cases hk : i < k
      · simp [Tab.insert, Tab.del, hi, hk, ih h]
      · simp [Tab.insert, Tab.del, hi, hk, h]

theorem Tab.del_del {α : Type} (t : Tab α) (k : Nat) : Tab.del k (Tab.del k t) = Tab.del k t := by
  induction t with
  | nil => rfl
  | cons p t ih =>
    obtain ⟨i, w⟩ := p
    by_cases hi : i = k <;> simp [Tab.del, hi, ih]

/-- The last write at a number counts. -/
@[simp] theorem Tab.set_set {α : Type} (t : Tab α) (k : Nat) (v w : α) : Tab.set (Tab.set t k v) k w = Tab.set t k w := by
  unfold Tab.set
  rw [Tab.del_insert _ k v (Tab.del_del t k)]

/-- Reading after a write, both cases at once. -/
theorem Tab.get_set {α : Type} (d : α) (t : Tab α) (j k : Nat) (v : α) :
    Tab.get d (Tab.set t k v) j = if j = k then v else Tab.get d t j := by
  by_cases h : j = k
  · subst h; simp
  · simp [h]

end Sys2Proof.Machine
end

