-- ==== Sys2Proof/Laws/State.lean ====
section
/-!
SUPPORT. One lemma per field per update of a context: what an update leaves as it was, and what it puts in place.
-/
namespace Sys2Proof.Machine

/-! ### The contexts' updates leave memory and its log -/

@[simp] theorem updUnit_mem (c : Ctx) (k : Nat) (f : UnitSt → UnitSt) : (c.updUnit k f).mem = c.mem := rfl
@[simp] theorem updUnit_log (c : Ctx) (k : Nat) (f : UnitSt → UnitSt) : (c.updUnit k f).log = c.log := rfl
@[simp] theorem updUnit_byte (c : Ctx) (k : Nat) (f : UnitSt → UnitSt) (n : Nat) : (c.updUnit k f).byte n = c.byte n := rfl
@[simp] theorem updCore_mem (c : Ctx) (k : Nat) (f : CoreSt → CoreSt) : (c.updCore k f).mem = c.mem := rfl
@[simp] theorem updCore_log (c : Ctx) (k : Nat) (f : CoreSt → CoreSt) : (c.updCore k f).log = c.log := rfl
@[simp] theorem updCore_byte (c : Ctx) (k : Nat) (f : CoreSt → CoreSt) (n : Nat) : (c.updCore k f).byte n = c.byte n := rfl
@[simp] theorem updCluster_mem (c : Ctx) (k : Nat) (f : ClusterSt → ClusterSt) : (c.updCluster k f).mem = c.mem := rfl
@[simp] theorem updCluster_log (c : Ctx) (k : Nat) (f : ClusterSt → ClusterSt) : (c.updCluster k f).log = c.log := rfl
@[simp] theorem updCluster_byte (c : Ctx) (k : Nat) (f : ClusterSt → ClusterSt) (n : Nat) : (c.updCluster k f).byte n = c.byte n := rfl
@[simp] theorem updDie_mem (c : Ctx) (k : Nat) (f : DieSt → DieSt) : (c.updDie k f).mem = c.mem := rfl
@[simp] theorem updDie_log (c : Ctx) (k : Nat) (f : DieSt → DieSt) : (c.updDie k f).log = c.log := rfl
@[simp] theorem updDie_byte (c : Ctx) (k : Nat) (f : DieSt → DieSt) (n : Nat) : (c.updDie k f).byte n = c.byte n := rfl
@[simp] theorem updColl_mem (c : Ctx) (k : Nat) (f : Coll → Coll) : (c.updColl k f).mem = c.mem := rfl
@[simp] theorem updColl_log (c : Ctx) (k : Nat) (f : Coll → Coll) : (c.updColl k f).log = c.log := rfl
@[simp] theorem updColl_byte (c : Ctx) (k : Nat) (f : Coll → Coll) (n : Nat) : (c.updColl k f).byte n = c.byte n := rfl
@[simp] theorem updPort_mem (c : Ctx) (k : Nat) (f : Port → Port) : (c.updPort k f).mem = c.mem := rfl
@[simp] theorem updPort_log (c : Ctx) (k : Nat) (f : Port → Port) : (c.updPort k f).log = c.log := rfl
@[simp] theorem updPort_byte (c : Ctx) (k : Nat) (f : Port → Port) (n : Nat) : (c.updPort k f).byte n = c.byte n := rfl
@[simp] theorem updJob_mem (c : Ctx) (f : JobSt → JobSt) : (c.updJob f).mem = c.mem := rfl
@[simp] theorem updJob_log (c : Ctx) (f : JobSt → JobSt) : (c.updJob f).log = c.log := rfl
@[simp] theorem updJob_byte (c : Ctx) (f : JobSt → JobSt) (n : Nat) : (c.updJob f).byte n = c.byte n := rfl
@[simp] theorem updBoot_mem (c : Ctx) (f : BootSt → BootSt) : (c.updBoot f).mem = c.mem := rfl
@[simp] theorem updBoot_log (c : Ctx) (f : BootSt → BootSt) : (c.updBoot f).log = c.log := rfl
@[simp] theorem updBoot_byte (c : Ctx) (f : BootSt → BootSt) (n : Nat) : (c.updBoot f).byte n = c.byte n := rfl
@[simp] theorem updSafe_mem (c : Ctx) (f : SafeSt → SafeSt) : (c.updSafe f).mem = c.mem := rfl
@[simp] theorem updSafe_log (c : Ctx) (f : SafeSt → SafeSt) : (c.updSafe f).log = c.log := rfl
@[simp] theorem updSafe_byte (c : Ctx) (f : SafeSt → SafeSt) (n : Nat) : (c.updSafe f).byte n = c.byte n := rfl
@[simp] theorem updPins_mem (c : Ctx) (f : Pins → Pins) : (c.updPins f).mem = c.mem := rfl
@[simp] theorem updPins_log (c : Ctx) (f : Pins → Pins) : (c.updPins f).log = c.log := rfl
@[simp] theorem updPins_byte (c : Ctx) (f : Pins → Pins) (n : Nat) : (c.updPins f).byte n = c.byte n := rfl
@[simp] theorem updStw_mem (c : Ctx) (f : StwSt → StwSt) : (c.updStw f).mem = c.mem := rfl
@[simp] theorem updStw_log (c : Ctx) (f : StwSt → StwSt) : (c.updStw f).log = c.log := rfl
@[simp] theorem updStw_byte (c : Ctx) (f : StwSt → StwSt) (n : Nat) : (c.updStw f).byte n = c.byte n := rfl
@[simp] theorem updCow_mem (c : Ctx) (f : CowSt → CowSt) : (c.updCow f).mem = c.mem := rfl
@[simp] theorem updCow_log (c : Ctx) (f : CowSt → CowSt) : (c.updCow f).log = c.log := rfl
@[simp] theorem updCow_byte (c : Ctx) (f : CowSt → CowSt) (n : Nat) : (c.updCow f).byte n = c.byte n := rfl
@[simp] theorem updTopo_mem (c : Ctx) (f : Topology → Topology) : (c.updTopo f).mem = c.mem := rfl
@[simp] theorem updTopo_log (c : Ctx) (f : Topology → Topology) : (c.updTopo f).log = c.log := rfl
@[simp] theorem updTopo_byte (c : Ctx) (f : Topology → Topology) (n : Nat) : (c.updTopo f).byte n = c.byte n := rfl
@[simp] theorem updRes_mem (c : Ctx) (f : ResSt → ResSt) : (c.updRes f).mem = c.mem := rfl
@[simp] theorem updRes_log (c : Ctx) (f : ResSt → ResSt) : (c.updRes f).log = c.log := rfl
@[simp] theorem updRes_byte (c : Ctx) (f : ResSt → ResSt) (n : Nat) : (c.updRes f).byte n = c.byte n := rfl
@[simp] theorem updSrv_mem (c : Ctx) (f : SrvSt → SrvSt) : (c.updSrv f).mem = c.mem := rfl
@[simp] theorem updSrv_log (c : Ctx) (f : SrvSt → SrvSt) : (c.updSrv f).log = c.log := rfl
@[simp] theorem updSrv_byte (c : Ctx) (f : SrvSt → SrvSt) (n : Nat) : (c.updSrv f).byte n = c.byte n := rfl
@[simp] theorem setUnit_mem (c : Ctx) (k : Nat) (x : UnitSt) : (c.setUnit k x).mem = c.mem := rfl
@[simp] theorem setUnit_log (c : Ctx) (k : Nat) (x : UnitSt) : (c.setUnit k x).log = c.log := rfl
@[simp] theorem setUnit_byte (c : Ctx) (k : Nat) (x : UnitSt) (n : Nat) : (c.setUnit k x).byte n = c.byte n := rfl
@[simp] theorem updPair_mem (c : Ctx) (k : Nat) (f : QPair → QPair) : (c.updPair k f).mem = c.mem := rfl
@[simp] theorem updPair_log (c : Ctx) (k : Nat) (f : QPair → QPair) : (c.updPair k f).log = c.log := rfl
@[simp] theorem updPair_byte (c : Ctx) (k : Nat) (f : QPair → QPair) (n : Nat) : (c.updPair k f).byte n = c.byte n := rfl
@[simp] theorem send_mem (c : Ctx) (m : Msg) : (c.send m).mem = c.mem := rfl
@[simp] theorem send_log (c : Ctx) (m : Msg) : (c.send m).log = c.log := rfl
@[simp] theorem send_byte (c : Ctx) (m : Msg) (n : Nat) : (c.send m).byte n = c.byte n := rfl
@[simp] theorem answer_mem (c : Ctx) (k : Nat) (a : Answer) : (c.answer k a).mem = c.mem := rfl
@[simp] theorem answer_log (c : Ctx) (k : Nat) (a : Answer) : (c.answer k a).log = c.log := rfl
@[simp] theorem answer_byte (c : Ctx) (k : Nat) (a : Answer) (n : Nat) : (c.answer k a).byte n = c.byte n := rfl

/-! ### The devices an update leaves -/

@[simp] theorem updUnit_cores (c : Ctx) (k : Nat) (f : UnitSt → UnitSt) : (c.updUnit k f).dev.cores = c.dev.cores := rfl
@[simp] theorem updUnit_clusters (c : Ctx) (k : Nat) (f : UnitSt → UnitSt) : (c.updUnit k f).dev.clusters = c.dev.clusters := rfl
@[simp] theorem updUnit_dies (c : Ctx) (k : Nat) (f : UnitSt → UnitSt) : (c.updUnit k f).dev.dies = c.dev.dies := rfl
@[simp] theorem updUnit_colls (c : Ctx) (k : Nat) (f : UnitSt → UnitSt) : (c.updUnit k f).dev.colls = c.dev.colls := rfl
@[simp] theorem updUnit_cow (c : Ctx) (k : Nat) (f : UnitSt → UnitSt) : (c.updUnit k f).dev.cow = c.dev.cow := rfl
@[simp] theorem updUnit_gov (c : Ctx) (k : Nat) (f : UnitSt → UnitSt) : (c.updUnit k f).dev.gov = c.dev.gov := rfl
@[simp] theorem updUnit_job (c : Ctx) (k : Nat) (f : UnitSt → UnitSt) : (c.updUnit k f).dev.job = c.dev.job := rfl
@[simp] theorem updUnit_linkCfg (c : Ctx) (k : Nat) (f : UnitSt → UnitSt) : (c.updUnit k f).dev.linkCfg = c.dev.linkCfg := rfl
@[simp] theorem updUnit_ports (c : Ctx) (k : Nat) (f : UnitSt → UnitSt) : (c.updUnit k f).dev.ports = c.dev.ports := rfl
@[simp] theorem updUnit_topo (c : Ctx) (k : Nat) (f : UnitSt → UnitSt) : (c.updUnit k f).dev.topo = c.dev.topo := rfl
@[simp] theorem updUnit_frozenRemotes (c : Ctx) (k : Nat) (f : UnitSt → UnitSt) : (c.updUnit k f).dev.frozenRemotes = c.dev.frozenRemotes := rfl
@[simp] theorem updUnit_boot (c : Ctx) (k : Nat) (f : UnitSt → UnitSt) : (c.updUnit k f).dev.boot = c.dev.boot := rfl
@[simp] theorem updUnit_safe (c : Ctx) (k : Nat) (f : UnitSt → UnitSt) : (c.updUnit k f).dev.safe = c.dev.safe := rfl
@[simp] theorem updUnit_pins (c : Ctx) (k : Nat) (f : UnitSt → UnitSt) : (c.updUnit k f).dev.pins = c.dev.pins := rfl
@[simp] theorem updUnit_stw (c : Ctx) (k : Nat) (f : UnitSt → UnitSt) : (c.updUnit k f).dev.stw = c.dev.stw := rfl
@[simp] theorem updUnit_furrows (c : Ctx) (k : Nat) (f : UnitSt → UnitSt) : (c.updUnit k f).dev.furrows = c.dev.furrows := rfl
@[simp] theorem updUnit_srv (c : Ctx) (k : Nat) (f : UnitSt → UnitSt) : (c.updUnit k f).dev.srv = c.dev.srv := rfl
@[simp] theorem updUnit_res (c : Ctx) (k : Nat) (f : UnitSt → UnitSt) : (c.updUnit k f).dev.res = c.dev.res := rfl
@[simp] theorem updUnit_sec (c : Ctx) (k : Nat) (f : UnitSt → UnitSt) : (c.updUnit k f).dev.sec = c.dev.sec := rfl
@[simp] theorem updUnit_epoch (c : Ctx) (k : Nat) (f : UnitSt → UnitSt) : (c.updUnit k f).dev.epoch = c.dev.epoch := rfl
@[simp] theorem updUnit_epochStuck (c : Ctx) (k : Nat) (f : UnitSt → UnitSt) : (c.updUnit k f).dev.epochStuck = c.dev.epochStuck := rfl
@[simp] theorem updUnit_poison (c : Ctx) (k : Nat) (f : UnitSt → UnitSt) : (c.updUnit k f).dev.poison = c.dev.poison := rfl
@[simp] theorem updUnit_errs (c : Ctx) (k : Nat) (f : UnitSt → UnitSt) : (c.updUnit k f).dev.errs = c.dev.errs := rfl
@[simp] theorem updUnit_answers (c : Ctx) (k : Nat) (f : UnitSt → UnitSt) : (c.updUnit k f).dev.answers = c.dev.answers := rfl
@[simp] theorem updUnit_outbox (c : Ctx) (k : Nat) (f : UnitSt → UnitSt) : (c.updUnit k f).dev.outbox = c.dev.outbox := rfl
@[simp] theorem updUnit_slow (c : Ctx) (k : Nat) (f : UnitSt → UnitSt) : (c.updUnit k f).dev.slow = c.dev.slow := rfl
@[simp] theorem updUnit_fresh (c : Ctx) (k : Nat) (f : UnitSt → UnitSt) : (c.updUnit k f).dev.fresh = c.dev.fresh := rfl
@[simp] theorem updCore_units (c : Ctx) (k : Nat) (f : CoreSt → CoreSt) : (c.updCore k f).dev.units = c.dev.units := rfl
@[simp] theorem updCore_clusters (c : Ctx) (k : Nat) (f : CoreSt → CoreSt) : (c.updCore k f).dev.clusters = c.dev.clusters := rfl
@[simp] theorem updCore_dies (c : Ctx) (k : Nat) (f : CoreSt → CoreSt) : (c.updCore k f).dev.dies = c.dev.dies := rfl
@[simp] theorem updCore_colls (c : Ctx) (k : Nat) (f : CoreSt → CoreSt) : (c.updCore k f).dev.colls = c.dev.colls := rfl
@[simp] theorem updCore_cow (c : Ctx) (k : Nat) (f : CoreSt → CoreSt) : (c.updCore k f).dev.cow = c.dev.cow := rfl
@[simp] theorem updCore_gov (c : Ctx) (k : Nat) (f : CoreSt → CoreSt) : (c.updCore k f).dev.gov = c.dev.gov := rfl
@[simp] theorem updCore_job (c : Ctx) (k : Nat) (f : CoreSt → CoreSt) : (c.updCore k f).dev.job = c.dev.job := rfl
@[simp] theorem updCore_linkCfg (c : Ctx) (k : Nat) (f : CoreSt → CoreSt) : (c.updCore k f).dev.linkCfg = c.dev.linkCfg := rfl
@[simp] theorem updCore_ports (c : Ctx) (k : Nat) (f : CoreSt → CoreSt) : (c.updCore k f).dev.ports = c.dev.ports := rfl
@[simp] theorem updCore_topo (c : Ctx) (k : Nat) (f : CoreSt → CoreSt) : (c.updCore k f).dev.topo = c.dev.topo := rfl
@[simp] theorem updCore_frozenRemotes (c : Ctx) (k : Nat) (f : CoreSt → CoreSt) : (c.updCore k f).dev.frozenRemotes = c.dev.frozenRemotes := rfl
@[simp] theorem updCore_boot (c : Ctx) (k : Nat) (f : CoreSt → CoreSt) : (c.updCore k f).dev.boot = c.dev.boot := rfl
@[simp] theorem updCore_safe (c : Ctx) (k : Nat) (f : CoreSt → CoreSt) : (c.updCore k f).dev.safe = c.dev.safe := rfl
@[simp] theorem updCore_pins (c : Ctx) (k : Nat) (f : CoreSt → CoreSt) : (c.updCore k f).dev.pins = c.dev.pins := rfl
@[simp] theorem updCore_stw (c : Ctx) (k : Nat) (f : CoreSt → CoreSt) : (c.updCore k f).dev.stw = c.dev.stw := rfl
@[simp] theorem updCore_furrows (c : Ctx) (k : Nat) (f : CoreSt → CoreSt) : (c.updCore k f).dev.furrows = c.dev.furrows := rfl
@[simp] theorem updCore_srv (c : Ctx) (k : Nat) (f : CoreSt → CoreSt) : (c.updCore k f).dev.srv = c.dev.srv := rfl
@[simp] theorem updCore_res (c : Ctx) (k : Nat) (f : CoreSt → CoreSt) : (c.updCore k f).dev.res = c.dev.res := rfl
@[simp] theorem updCore_sec (c : Ctx) (k : Nat) (f : CoreSt → CoreSt) : (c.updCore k f).dev.sec = c.dev.sec := rfl
@[simp] theorem updCore_epoch (c : Ctx) (k : Nat) (f : CoreSt → CoreSt) : (c.updCore k f).dev.epoch = c.dev.epoch := rfl
@[simp] theorem updCore_epochStuck (c : Ctx) (k : Nat) (f : CoreSt → CoreSt) : (c.updCore k f).dev.epochStuck = c.dev.epochStuck := rfl
@[simp] theorem updCore_poison (c : Ctx) (k : Nat) (f : CoreSt → CoreSt) : (c.updCore k f).dev.poison = c.dev.poison := rfl
@[simp] theorem updCore_errs (c : Ctx) (k : Nat) (f : CoreSt → CoreSt) : (c.updCore k f).dev.errs = c.dev.errs := rfl
@[simp] theorem updCore_answers (c : Ctx) (k : Nat) (f : CoreSt → CoreSt) : (c.updCore k f).dev.answers = c.dev.answers := rfl
@[simp] theorem updCore_outbox (c : Ctx) (k : Nat) (f : CoreSt → CoreSt) : (c.updCore k f).dev.outbox = c.dev.outbox := rfl
@[simp] theorem updCore_slow (c : Ctx) (k : Nat) (f : CoreSt → CoreSt) : (c.updCore k f).dev.slow = c.dev.slow := rfl
@[simp] theorem updCore_fresh (c : Ctx) (k : Nat) (f : CoreSt → CoreSt) : (c.updCore k f).dev.fresh = c.dev.fresh := rfl
@[simp] theorem updCluster_units (c : Ctx) (k : Nat) (f : ClusterSt → ClusterSt) : (c.updCluster k f).dev.units = c.dev.units := rfl
@[simp] theorem updCluster_cores (c : Ctx) (k : Nat) (f : ClusterSt → ClusterSt) : (c.updCluster k f).dev.cores = c.dev.cores := rfl
@[simp] theorem updCluster_dies (c : Ctx) (k : Nat) (f : ClusterSt → ClusterSt) : (c.updCluster k f).dev.dies = c.dev.dies := rfl
@[simp] theorem updCluster_colls (c : Ctx) (k : Nat) (f : ClusterSt → ClusterSt) : (c.updCluster k f).dev.colls = c.dev.colls := rfl
@[simp] theorem updCluster_cow (c : Ctx) (k : Nat) (f : ClusterSt → ClusterSt) : (c.updCluster k f).dev.cow = c.dev.cow := rfl
@[simp] theorem updCluster_gov (c : Ctx) (k : Nat) (f : ClusterSt → ClusterSt) : (c.updCluster k f).dev.gov = c.dev.gov := rfl
@[simp] theorem updCluster_job (c : Ctx) (k : Nat) (f : ClusterSt → ClusterSt) : (c.updCluster k f).dev.job = c.dev.job := rfl
@[simp] theorem updCluster_linkCfg (c : Ctx) (k : Nat) (f : ClusterSt → ClusterSt) : (c.updCluster k f).dev.linkCfg = c.dev.linkCfg := rfl
@[simp] theorem updCluster_ports (c : Ctx) (k : Nat) (f : ClusterSt → ClusterSt) : (c.updCluster k f).dev.ports = c.dev.ports := rfl
@[simp] theorem updCluster_topo (c : Ctx) (k : Nat) (f : ClusterSt → ClusterSt) : (c.updCluster k f).dev.topo = c.dev.topo := rfl
@[simp] theorem updCluster_frozenRemotes (c : Ctx) (k : Nat) (f : ClusterSt → ClusterSt) : (c.updCluster k f).dev.frozenRemotes = c.dev.frozenRemotes := rfl
@[simp] theorem updCluster_boot (c : Ctx) (k : Nat) (f : ClusterSt → ClusterSt) : (c.updCluster k f).dev.boot = c.dev.boot := rfl
@[simp] theorem updCluster_safe (c : Ctx) (k : Nat) (f : ClusterSt → ClusterSt) : (c.updCluster k f).dev.safe = c.dev.safe := rfl
@[simp] theorem updCluster_pins (c : Ctx) (k : Nat) (f : ClusterSt → ClusterSt) : (c.updCluster k f).dev.pins = c.dev.pins := rfl
@[simp] theorem updCluster_stw (c : Ctx) (k : Nat) (f : ClusterSt → ClusterSt) : (c.updCluster k f).dev.stw = c.dev.stw := rfl
@[simp] theorem updCluster_furrows (c : Ctx) (k : Nat) (f : ClusterSt → ClusterSt) : (c.updCluster k f).dev.furrows = c.dev.furrows := rfl
@[simp] theorem updCluster_srv (c : Ctx) (k : Nat) (f : ClusterSt → ClusterSt) : (c.updCluster k f).dev.srv = c.dev.srv := rfl
@[simp] theorem updCluster_res (c : Ctx) (k : Nat) (f : ClusterSt → ClusterSt) : (c.updCluster k f).dev.res = c.dev.res := rfl
@[simp] theorem updCluster_sec (c : Ctx) (k : Nat) (f : ClusterSt → ClusterSt) : (c.updCluster k f).dev.sec = c.dev.sec := rfl
@[simp] theorem updCluster_epoch (c : Ctx) (k : Nat) (f : ClusterSt → ClusterSt) : (c.updCluster k f).dev.epoch = c.dev.epoch := rfl
@[simp] theorem updCluster_epochStuck (c : Ctx) (k : Nat) (f : ClusterSt → ClusterSt) : (c.updCluster k f).dev.epochStuck = c.dev.epochStuck := rfl
@[simp] theorem updCluster_poison (c : Ctx) (k : Nat) (f : ClusterSt → ClusterSt) : (c.updCluster k f).dev.poison = c.dev.poison := rfl
@[simp] theorem updCluster_errs (c : Ctx) (k : Nat) (f : ClusterSt → ClusterSt) : (c.updCluster k f).dev.errs = c.dev.errs := rfl
@[simp] theorem updCluster_answers (c : Ctx) (k : Nat) (f : ClusterSt → ClusterSt) : (c.updCluster k f).dev.answers = c.dev.answers := rfl
@[simp] theorem updCluster_outbox (c : Ctx) (k : Nat) (f : ClusterSt → ClusterSt) : (c.updCluster k f).dev.outbox = c.dev.outbox := rfl
@[simp] theorem updCluster_slow (c : Ctx) (k : Nat) (f : ClusterSt → ClusterSt) : (c.updCluster k f).dev.slow = c.dev.slow := rfl
@[simp] theorem updCluster_fresh (c : Ctx) (k : Nat) (f : ClusterSt → ClusterSt) : (c.updCluster k f).dev.fresh = c.dev.fresh := rfl
@[simp] theorem updDie_units (c : Ctx) (k : Nat) (f : DieSt → DieSt) : (c.updDie k f).dev.units = c.dev.units := rfl
@[simp] theorem updDie_cores (c : Ctx) (k : Nat) (f : DieSt → DieSt) : (c.updDie k f).dev.cores = c.dev.cores := rfl
@[simp] theorem updDie_clusters (c : Ctx) (k : Nat) (f : DieSt → DieSt) : (c.updDie k f).dev.clusters = c.dev.clusters := rfl
@[simp] theorem updDie_colls (c : Ctx) (k : Nat) (f : DieSt → DieSt) : (c.updDie k f).dev.colls = c.dev.colls := rfl
@[simp] theorem updDie_cow (c : Ctx) (k : Nat) (f : DieSt → DieSt) : (c.updDie k f).dev.cow = c.dev.cow := rfl
@[simp] theorem updDie_gov (c : Ctx) (k : Nat) (f : DieSt → DieSt) : (c.updDie k f).dev.gov = c.dev.gov := rfl
@[simp] theorem updDie_job (c : Ctx) (k : Nat) (f : DieSt → DieSt) : (c.updDie k f).dev.job = c.dev.job := rfl
@[simp] theorem updDie_linkCfg (c : Ctx) (k : Nat) (f : DieSt → DieSt) : (c.updDie k f).dev.linkCfg = c.dev.linkCfg := rfl
@[simp] theorem updDie_ports (c : Ctx) (k : Nat) (f : DieSt → DieSt) : (c.updDie k f).dev.ports = c.dev.ports := rfl
@[simp] theorem updDie_topo (c : Ctx) (k : Nat) (f : DieSt → DieSt) : (c.updDie k f).dev.topo = c.dev.topo := rfl
@[simp] theorem updDie_frozenRemotes (c : Ctx) (k : Nat) (f : DieSt → DieSt) : (c.updDie k f).dev.frozenRemotes = c.dev.frozenRemotes := rfl
@[simp] theorem updDie_boot (c : Ctx) (k : Nat) (f : DieSt → DieSt) : (c.updDie k f).dev.boot = c.dev.boot := rfl
@[simp] theorem updDie_safe (c : Ctx) (k : Nat) (f : DieSt → DieSt) : (c.updDie k f).dev.safe = c.dev.safe := rfl
@[simp] theorem updDie_pins (c : Ctx) (k : Nat) (f : DieSt → DieSt) : (c.updDie k f).dev.pins = c.dev.pins := rfl
@[simp] theorem updDie_stw (c : Ctx) (k : Nat) (f : DieSt → DieSt) : (c.updDie k f).dev.stw = c.dev.stw := rfl
@[simp] theorem updDie_furrows (c : Ctx) (k : Nat) (f : DieSt → DieSt) : (c.updDie k f).dev.furrows = c.dev.furrows := rfl
@[simp] theorem updDie_srv (c : Ctx) (k : Nat) (f : DieSt → DieSt) : (c.updDie k f).dev.srv = c.dev.srv := rfl
@[simp] theorem updDie_res (c : Ctx) (k : Nat) (f : DieSt → DieSt) : (c.updDie k f).dev.res = c.dev.res := rfl
@[simp] theorem updDie_sec (c : Ctx) (k : Nat) (f : DieSt → DieSt) : (c.updDie k f).dev.sec = c.dev.sec := rfl
@[simp] theorem updDie_epoch (c : Ctx) (k : Nat) (f : DieSt → DieSt) : (c.updDie k f).dev.epoch = c.dev.epoch := rfl
@[simp] theorem updDie_epochStuck (c : Ctx) (k : Nat) (f : DieSt → DieSt) : (c.updDie k f).dev.epochStuck = c.dev.epochStuck := rfl
@[simp] theorem updDie_poison (c : Ctx) (k : Nat) (f : DieSt → DieSt) : (c.updDie k f).dev.poison = c.dev.poison := rfl
@[simp] theorem updDie_errs (c : Ctx) (k : Nat) (f : DieSt → DieSt) : (c.updDie k f).dev.errs = c.dev.errs := rfl
@[simp] theorem updDie_answers (c : Ctx) (k : Nat) (f : DieSt → DieSt) : (c.updDie k f).dev.answers = c.dev.answers := rfl
@[simp] theorem updDie_outbox (c : Ctx) (k : Nat) (f : DieSt → DieSt) : (c.updDie k f).dev.outbox = c.dev.outbox := rfl
@[simp] theorem updDie_slow (c : Ctx) (k : Nat) (f : DieSt → DieSt) : (c.updDie k f).dev.slow = c.dev.slow := rfl
@[simp] theorem updDie_fresh (c : Ctx) (k : Nat) (f : DieSt → DieSt) : (c.updDie k f).dev.fresh = c.dev.fresh := rfl
@[simp] theorem updColl_units (c : Ctx) (k : Nat) (f : Coll → Coll) : (c.updColl k f).dev.units = c.dev.units := rfl
@[simp] theorem updColl_cores (c : Ctx) (k : Nat) (f : Coll → Coll) : (c.updColl k f).dev.cores = c.dev.cores := rfl
@[simp] theorem updColl_clusters (c : Ctx) (k : Nat) (f : Coll → Coll) : (c.updColl k f).dev.clusters = c.dev.clusters := rfl
@[simp] theorem updColl_dies (c : Ctx) (k : Nat) (f : Coll → Coll) : (c.updColl k f).dev.dies = c.dev.dies := rfl
@[simp] theorem updColl_cow (c : Ctx) (k : Nat) (f : Coll → Coll) : (c.updColl k f).dev.cow = c.dev.cow := rfl
@[simp] theorem updColl_gov (c : Ctx) (k : Nat) (f : Coll → Coll) : (c.updColl k f).dev.gov = c.dev.gov := rfl
@[simp] theorem updColl_job (c : Ctx) (k : Nat) (f : Coll → Coll) : (c.updColl k f).dev.job = c.dev.job := rfl
@[simp] theorem updColl_linkCfg (c : Ctx) (k : Nat) (f : Coll → Coll) : (c.updColl k f).dev.linkCfg = c.dev.linkCfg := rfl
@[simp] theorem updColl_ports (c : Ctx) (k : Nat) (f : Coll → Coll) : (c.updColl k f).dev.ports = c.dev.ports := rfl
@[simp] theorem updColl_topo (c : Ctx) (k : Nat) (f : Coll → Coll) : (c.updColl k f).dev.topo = c.dev.topo := rfl
@[simp] theorem updColl_frozenRemotes (c : Ctx) (k : Nat) (f : Coll → Coll) : (c.updColl k f).dev.frozenRemotes = c.dev.frozenRemotes := rfl
@[simp] theorem updColl_boot (c : Ctx) (k : Nat) (f : Coll → Coll) : (c.updColl k f).dev.boot = c.dev.boot := rfl
@[simp] theorem updColl_safe (c : Ctx) (k : Nat) (f : Coll → Coll) : (c.updColl k f).dev.safe = c.dev.safe := rfl
@[simp] theorem updColl_pins (c : Ctx) (k : Nat) (f : Coll → Coll) : (c.updColl k f).dev.pins = c.dev.pins := rfl
@[simp] theorem updColl_stw (c : Ctx) (k : Nat) (f : Coll → Coll) : (c.updColl k f).dev.stw = c.dev.stw := rfl
@[simp] theorem updColl_furrows (c : Ctx) (k : Nat) (f : Coll → Coll) : (c.updColl k f).dev.furrows = c.dev.furrows := rfl
@[simp] theorem updColl_srv (c : Ctx) (k : Nat) (f : Coll → Coll) : (c.updColl k f).dev.srv = c.dev.srv := rfl
@[simp] theorem updColl_res (c : Ctx) (k : Nat) (f : Coll → Coll) : (c.updColl k f).dev.res = c.dev.res := rfl
@[simp] theorem updColl_sec (c : Ctx) (k : Nat) (f : Coll → Coll) : (c.updColl k f).dev.sec = c.dev.sec := rfl
@[simp] theorem updColl_epoch (c : Ctx) (k : Nat) (f : Coll → Coll) : (c.updColl k f).dev.epoch = c.dev.epoch := rfl
@[simp] theorem updColl_epochStuck (c : Ctx) (k : Nat) (f : Coll → Coll) : (c.updColl k f).dev.epochStuck = c.dev.epochStuck := rfl
@[simp] theorem updColl_poison (c : Ctx) (k : Nat) (f : Coll → Coll) : (c.updColl k f).dev.poison = c.dev.poison := rfl
@[simp] theorem updColl_errs (c : Ctx) (k : Nat) (f : Coll → Coll) : (c.updColl k f).dev.errs = c.dev.errs := rfl
@[simp] theorem updColl_answers (c : Ctx) (k : Nat) (f : Coll → Coll) : (c.updColl k f).dev.answers = c.dev.answers := rfl
@[simp] theorem updColl_outbox (c : Ctx) (k : Nat) (f : Coll → Coll) : (c.updColl k f).dev.outbox = c.dev.outbox := rfl
@[simp] theorem updColl_slow (c : Ctx) (k : Nat) (f : Coll → Coll) : (c.updColl k f).dev.slow = c.dev.slow := rfl
@[simp] theorem updColl_fresh (c : Ctx) (k : Nat) (f : Coll → Coll) : (c.updColl k f).dev.fresh = c.dev.fresh := rfl
@[simp] theorem updPort_units (c : Ctx) (k : Nat) (f : Port → Port) : (c.updPort k f).dev.units = c.dev.units := rfl
@[simp] theorem updPort_cores (c : Ctx) (k : Nat) (f : Port → Port) : (c.updPort k f).dev.cores = c.dev.cores := rfl
@[simp] theorem updPort_clusters (c : Ctx) (k : Nat) (f : Port → Port) : (c.updPort k f).dev.clusters = c.dev.clusters := rfl
@[simp] theorem updPort_dies (c : Ctx) (k : Nat) (f : Port → Port) : (c.updPort k f).dev.dies = c.dev.dies := rfl
@[simp] theorem updPort_colls (c : Ctx) (k : Nat) (f : Port → Port) : (c.updPort k f).dev.colls = c.dev.colls := rfl
@[simp] theorem updPort_cow (c : Ctx) (k : Nat) (f : Port → Port) : (c.updPort k f).dev.cow = c.dev.cow := rfl
@[simp] theorem updPort_gov (c : Ctx) (k : Nat) (f : Port → Port) : (c.updPort k f).dev.gov = c.dev.gov := rfl
@[simp] theorem updPort_job (c : Ctx) (k : Nat) (f : Port → Port) : (c.updPort k f).dev.job = c.dev.job := rfl
@[simp] theorem updPort_linkCfg (c : Ctx) (k : Nat) (f : Port → Port) : (c.updPort k f).dev.linkCfg = c.dev.linkCfg := rfl
@[simp] theorem updPort_topo (c : Ctx) (k : Nat) (f : Port → Port) : (c.updPort k f).dev.topo = c.dev.topo := rfl
@[simp] theorem updPort_frozenRemotes (c : Ctx) (k : Nat) (f : Port → Port) : (c.updPort k f).dev.frozenRemotes = c.dev.frozenRemotes := rfl
@[simp] theorem updPort_boot (c : Ctx) (k : Nat) (f : Port → Port) : (c.updPort k f).dev.boot = c.dev.boot := rfl
@[simp] theorem updPort_safe (c : Ctx) (k : Nat) (f : Port → Port) : (c.updPort k f).dev.safe = c.dev.safe := rfl
@[simp] theorem updPort_pins (c : Ctx) (k : Nat) (f : Port → Port) : (c.updPort k f).dev.pins = c.dev.pins := rfl
@[simp] theorem updPort_stw (c : Ctx) (k : Nat) (f : Port → Port) : (c.updPort k f).dev.stw = c.dev.stw := rfl
@[simp] theorem updPort_furrows (c : Ctx) (k : Nat) (f : Port → Port) : (c.updPort k f).dev.furrows = c.dev.furrows := rfl
@[simp] theorem updPort_srv (c : Ctx) (k : Nat) (f : Port → Port) : (c.updPort k f).dev.srv = c.dev.srv := rfl
@[simp] theorem updPort_res (c : Ctx) (k : Nat) (f : Port → Port) : (c.updPort k f).dev.res = c.dev.res := rfl
@[simp] theorem updPort_sec (c : Ctx) (k : Nat) (f : Port → Port) : (c.updPort k f).dev.sec = c.dev.sec := rfl
@[simp] theorem updPort_epoch (c : Ctx) (k : Nat) (f : Port → Port) : (c.updPort k f).dev.epoch = c.dev.epoch := rfl
@[simp] theorem updPort_epochStuck (c : Ctx) (k : Nat) (f : Port → Port) : (c.updPort k f).dev.epochStuck = c.dev.epochStuck := rfl
@[simp] theorem updPort_poison (c : Ctx) (k : Nat) (f : Port → Port) : (c.updPort k f).dev.poison = c.dev.poison := rfl
@[simp] theorem updPort_errs (c : Ctx) (k : Nat) (f : Port → Port) : (c.updPort k f).dev.errs = c.dev.errs := rfl
@[simp] theorem updPort_answers (c : Ctx) (k : Nat) (f : Port → Port) : (c.updPort k f).dev.answers = c.dev.answers := rfl
@[simp] theorem updPort_outbox (c : Ctx) (k : Nat) (f : Port → Port) : (c.updPort k f).dev.outbox = c.dev.outbox := rfl
@[simp] theorem updPort_slow (c : Ctx) (k : Nat) (f : Port → Port) : (c.updPort k f).dev.slow = c.dev.slow := rfl
@[simp] theorem updPort_fresh (c : Ctx) (k : Nat) (f : Port → Port) : (c.updPort k f).dev.fresh = c.dev.fresh := rfl
@[simp] theorem updJob_units (c : Ctx) (f : JobSt → JobSt) : (c.updJob f).dev.units = c.dev.units := rfl
@[simp] theorem updJob_cores (c : Ctx) (f : JobSt → JobSt) : (c.updJob f).dev.cores = c.dev.cores := rfl
@[simp] theorem updJob_clusters (c : Ctx) (f : JobSt → JobSt) : (c.updJob f).dev.clusters = c.dev.clusters := rfl
@[simp] theorem updJob_dies (c : Ctx) (f : JobSt → JobSt) : (c.updJob f).dev.dies = c.dev.dies := rfl
@[simp] theorem updJob_colls (c : Ctx) (f : JobSt → JobSt) : (c.updJob f).dev.colls = c.dev.colls := rfl
@[simp] theorem updJob_cow (c : Ctx) (f : JobSt → JobSt) : (c.updJob f).dev.cow = c.dev.cow := rfl
@[simp] theorem updJob_gov (c : Ctx) (f : JobSt → JobSt) : (c.updJob f).dev.gov = c.dev.gov := rfl
@[simp] theorem updJob_linkCfg (c : Ctx) (f : JobSt → JobSt) : (c.updJob f).dev.linkCfg = c.dev.linkCfg := rfl
@[simp] theorem updJob_ports (c : Ctx) (f : JobSt → JobSt) : (c.updJob f).dev.ports = c.dev.ports := rfl
@[simp] theorem updJob_topo (c : Ctx) (f : JobSt → JobSt) : (c.updJob f).dev.topo = c.dev.topo := rfl
@[simp] theorem updJob_frozenRemotes (c : Ctx) (f : JobSt → JobSt) : (c.updJob f).dev.frozenRemotes = c.dev.frozenRemotes := rfl
@[simp] theorem updJob_boot (c : Ctx) (f : JobSt → JobSt) : (c.updJob f).dev.boot = c.dev.boot := rfl
@[simp] theorem updJob_safe (c : Ctx) (f : JobSt → JobSt) : (c.updJob f).dev.safe = c.dev.safe := rfl
@[simp] theorem updJob_pins (c : Ctx) (f : JobSt → JobSt) : (c.updJob f).dev.pins = c.dev.pins := rfl
@[simp] theorem updJob_stw (c : Ctx) (f : JobSt → JobSt) : (c.updJob f).dev.stw = c.dev.stw := rfl
@[simp] theorem updJob_furrows (c : Ctx) (f : JobSt → JobSt) : (c.updJob f).dev.furrows = c.dev.furrows := rfl
@[simp] theorem updJob_srv (c : Ctx) (f : JobSt → JobSt) : (c.updJob f).dev.srv = c.dev.srv := rfl
@[simp] theorem updJob_res (c : Ctx) (f : JobSt → JobSt) : (c.updJob f).dev.res = c.dev.res := rfl
@[simp] theorem updJob_sec (c : Ctx) (f : JobSt → JobSt) : (c.updJob f).dev.sec = c.dev.sec := rfl
@[simp] theorem updJob_epoch (c : Ctx) (f : JobSt → JobSt) : (c.updJob f).dev.epoch = c.dev.epoch := rfl
@[simp] theorem updJob_epochStuck (c : Ctx) (f : JobSt → JobSt) : (c.updJob f).dev.epochStuck = c.dev.epochStuck := rfl
@[simp] theorem updJob_poison (c : Ctx) (f : JobSt → JobSt) : (c.updJob f).dev.poison = c.dev.poison := rfl
@[simp] theorem updJob_errs (c : Ctx) (f : JobSt → JobSt) : (c.updJob f).dev.errs = c.dev.errs := rfl
@[simp] theorem updJob_answers (c : Ctx) (f : JobSt → JobSt) : (c.updJob f).dev.answers = c.dev.answers := rfl
@[simp] theorem updJob_outbox (c : Ctx) (f : JobSt → JobSt) : (c.updJob f).dev.outbox = c.dev.outbox := rfl
@[simp] theorem updJob_slow (c : Ctx) (f : JobSt → JobSt) : (c.updJob f).dev.slow = c.dev.slow := rfl
@[simp] theorem updJob_fresh (c : Ctx) (f : JobSt → JobSt) : (c.updJob f).dev.fresh = c.dev.fresh := rfl
@[simp] theorem updBoot_units (c : Ctx) (f : BootSt → BootSt) : (c.updBoot f).dev.units = c.dev.units := rfl
@[simp] theorem updBoot_cores (c : Ctx) (f : BootSt → BootSt) : (c.updBoot f).dev.cores = c.dev.cores := rfl
@[simp] theorem updBoot_clusters (c : Ctx) (f : BootSt → BootSt) : (c.updBoot f).dev.clusters = c.dev.clusters := rfl
@[simp] theorem updBoot_dies (c : Ctx) (f : BootSt → BootSt) : (c.updBoot f).dev.dies = c.dev.dies := rfl
@[simp] theorem updBoot_colls (c : Ctx) (f : BootSt → BootSt) : (c.updBoot f).dev.colls = c.dev.colls := rfl
@[simp] theorem updBoot_cow (c : Ctx) (f : BootSt → BootSt) : (c.updBoot f).dev.cow = c.dev.cow := rfl
@[simp] theorem updBoot_gov (c : Ctx) (f : BootSt → BootSt) : (c.updBoot f).dev.gov = c.dev.gov := rfl
@[simp] theorem updBoot_job (c : Ctx) (f : BootSt → BootSt) : (c.updBoot f).dev.job = c.dev.job := rfl
@[simp] theorem updBoot_linkCfg (c : Ctx) (f : BootSt → BootSt) : (c.updBoot f).dev.linkCfg = c.dev.linkCfg := rfl
@[simp] theorem updBoot_ports (c : Ctx) (f : BootSt → BootSt) : (c.updBoot f).dev.ports = c.dev.ports := rfl
@[simp] theorem updBoot_topo (c : Ctx) (f : BootSt → BootSt) : (c.updBoot f).dev.topo = c.dev.topo := rfl
@[simp] theorem updBoot_frozenRemotes (c : Ctx) (f : BootSt → BootSt) : (c.updBoot f).dev.frozenRemotes = c.dev.frozenRemotes := rfl
@[simp] theorem updBoot_safe (c : Ctx) (f : BootSt → BootSt) : (c.updBoot f).dev.safe = c.dev.safe := rfl
@[simp] theorem updBoot_pins (c : Ctx) (f : BootSt → BootSt) : (c.updBoot f).dev.pins = c.dev.pins := rfl
@[simp] theorem updBoot_stw (c : Ctx) (f : BootSt → BootSt) : (c.updBoot f).dev.stw = c.dev.stw := rfl
@[simp] theorem updBoot_furrows (c : Ctx) (f : BootSt → BootSt) : (c.updBoot f).dev.furrows = c.dev.furrows := rfl
@[simp] theorem updBoot_srv (c : Ctx) (f : BootSt → BootSt) : (c.updBoot f).dev.srv = c.dev.srv := rfl
@[simp] theorem updBoot_res (c : Ctx) (f : BootSt → BootSt) : (c.updBoot f).dev.res = c.dev.res := rfl
@[simp] theorem updBoot_sec (c : Ctx) (f : BootSt → BootSt) : (c.updBoot f).dev.sec = c.dev.sec := rfl
@[simp] theorem updBoot_epoch (c : Ctx) (f : BootSt → BootSt) : (c.updBoot f).dev.epoch = c.dev.epoch := rfl
@[simp] theorem updBoot_epochStuck (c : Ctx) (f : BootSt → BootSt) : (c.updBoot f).dev.epochStuck = c.dev.epochStuck := rfl
@[simp] theorem updBoot_poison (c : Ctx) (f : BootSt → BootSt) : (c.updBoot f).dev.poison = c.dev.poison := rfl
@[simp] theorem updBoot_errs (c : Ctx) (f : BootSt → BootSt) : (c.updBoot f).dev.errs = c.dev.errs := rfl
@[simp] theorem updBoot_answers (c : Ctx) (f : BootSt → BootSt) : (c.updBoot f).dev.answers = c.dev.answers := rfl
@[simp] theorem updBoot_outbox (c : Ctx) (f : BootSt → BootSt) : (c.updBoot f).dev.outbox = c.dev.outbox := rfl
@[simp] theorem updBoot_slow (c : Ctx) (f : BootSt → BootSt) : (c.updBoot f).dev.slow = c.dev.slow := rfl
@[simp] theorem updBoot_fresh (c : Ctx) (f : BootSt → BootSt) : (c.updBoot f).dev.fresh = c.dev.fresh := rfl
@[simp] theorem updSafe_units (c : Ctx) (f : SafeSt → SafeSt) : (c.updSafe f).dev.units = c.dev.units := rfl
@[simp] theorem updSafe_cores (c : Ctx) (f : SafeSt → SafeSt) : (c.updSafe f).dev.cores = c.dev.cores := rfl
@[simp] theorem updSafe_clusters (c : Ctx) (f : SafeSt → SafeSt) : (c.updSafe f).dev.clusters = c.dev.clusters := rfl
@[simp] theorem updSafe_dies (c : Ctx) (f : SafeSt → SafeSt) : (c.updSafe f).dev.dies = c.dev.dies := rfl
@[simp] theorem updSafe_colls (c : Ctx) (f : SafeSt → SafeSt) : (c.updSafe f).dev.colls = c.dev.colls := rfl
@[simp] theorem updSafe_cow (c : Ctx) (f : SafeSt → SafeSt) : (c.updSafe f).dev.cow = c.dev.cow := rfl
@[simp] theorem updSafe_gov (c : Ctx) (f : SafeSt → SafeSt) : (c.updSafe f).dev.gov = c.dev.gov := rfl
@[simp] theorem updSafe_job (c : Ctx) (f : SafeSt → SafeSt) : (c.updSafe f).dev.job = c.dev.job := rfl
@[simp] theorem updSafe_linkCfg (c : Ctx) (f : SafeSt → SafeSt) : (c.updSafe f).dev.linkCfg = c.dev.linkCfg := rfl
@[simp] theorem updSafe_ports (c : Ctx) (f : SafeSt → SafeSt) : (c.updSafe f).dev.ports = c.dev.ports := rfl
@[simp] theorem updSafe_topo (c : Ctx) (f : SafeSt → SafeSt) : (c.updSafe f).dev.topo = c.dev.topo := rfl
@[simp] theorem updSafe_frozenRemotes (c : Ctx) (f : SafeSt → SafeSt) : (c.updSafe f).dev.frozenRemotes = c.dev.frozenRemotes := rfl
@[simp] theorem updSafe_boot (c : Ctx) (f : SafeSt → SafeSt) : (c.updSafe f).dev.boot = c.dev.boot := rfl
@[simp] theorem updSafe_pins (c : Ctx) (f : SafeSt → SafeSt) : (c.updSafe f).dev.pins = c.dev.pins := rfl
@[simp] theorem updSafe_stw (c : Ctx) (f : SafeSt → SafeSt) : (c.updSafe f).dev.stw = c.dev.stw := rfl
@[simp] theorem updSafe_furrows (c : Ctx) (f : SafeSt → SafeSt) : (c.updSafe f).dev.furrows = c.dev.furrows := rfl
@[simp] theorem updSafe_srv (c : Ctx) (f : SafeSt → SafeSt) : (c.updSafe f).dev.srv = c.dev.srv := rfl
@[simp] theorem updSafe_res (c : Ctx) (f : SafeSt → SafeSt) : (c.updSafe f).dev.res = c.dev.res := rfl
@[simp] theorem updSafe_sec (c : Ctx) (f : SafeSt → SafeSt) : (c.updSafe f).dev.sec = c.dev.sec := rfl
@[simp] theorem updSafe_epoch (c : Ctx) (f : SafeSt → SafeSt) : (c.updSafe f).dev.epoch = c.dev.epoch := rfl
@[simp] theorem updSafe_epochStuck (c : Ctx) (f : SafeSt → SafeSt) : (c.updSafe f).dev.epochStuck = c.dev.epochStuck := rfl
@[simp] theorem updSafe_poison (c : Ctx) (f : SafeSt → SafeSt) : (c.updSafe f).dev.poison = c.dev.poison := rfl
@[simp] theorem updSafe_errs (c : Ctx) (f : SafeSt → SafeSt) : (c.updSafe f).dev.errs = c.dev.errs := rfl
@[simp] theorem updSafe_answers (c : Ctx) (f : SafeSt → SafeSt) : (c.updSafe f).dev.answers = c.dev.answers := rfl
@[simp] theorem updSafe_outbox (c : Ctx) (f : SafeSt → SafeSt) : (c.updSafe f).dev.outbox = c.dev.outbox := rfl
@[simp] theorem updSafe_slow (c : Ctx) (f : SafeSt → SafeSt) : (c.updSafe f).dev.slow = c.dev.slow := rfl
@[simp] theorem updSafe_fresh (c : Ctx) (f : SafeSt → SafeSt) : (c.updSafe f).dev.fresh = c.dev.fresh := rfl
@[simp] theorem updPins_units (c : Ctx) (f : Pins → Pins) : (c.updPins f).dev.units = c.dev.units := rfl
@[simp] theorem updPins_cores (c : Ctx) (f : Pins → Pins) : (c.updPins f).dev.cores = c.dev.cores := rfl
@[simp] theorem updPins_clusters (c : Ctx) (f : Pins → Pins) : (c.updPins f).dev.clusters = c.dev.clusters := rfl
@[simp] theorem updPins_dies (c : Ctx) (f : Pins → Pins) : (c.updPins f).dev.dies = c.dev.dies := rfl
@[simp] theorem updPins_colls (c : Ctx) (f : Pins → Pins) : (c.updPins f).dev.colls = c.dev.colls := rfl
@[simp] theorem updPins_cow (c : Ctx) (f : Pins → Pins) : (c.updPins f).dev.cow = c.dev.cow := rfl
@[simp] theorem updPins_gov (c : Ctx) (f : Pins → Pins) : (c.updPins f).dev.gov = c.dev.gov := rfl
@[simp] theorem updPins_job (c : Ctx) (f : Pins → Pins) : (c.updPins f).dev.job = c.dev.job := rfl
@[simp] theorem updPins_linkCfg (c : Ctx) (f : Pins → Pins) : (c.updPins f).dev.linkCfg = c.dev.linkCfg := rfl
@[simp] theorem updPins_ports (c : Ctx) (f : Pins → Pins) : (c.updPins f).dev.ports = c.dev.ports := rfl
@[simp] theorem updPins_topo (c : Ctx) (f : Pins → Pins) : (c.updPins f).dev.topo = c.dev.topo := rfl
@[simp] theorem updPins_frozenRemotes (c : Ctx) (f : Pins → Pins) : (c.updPins f).dev.frozenRemotes = c.dev.frozenRemotes := rfl
@[simp] theorem updPins_boot (c : Ctx) (f : Pins → Pins) : (c.updPins f).dev.boot = c.dev.boot := rfl
@[simp] theorem updPins_safe (c : Ctx) (f : Pins → Pins) : (c.updPins f).dev.safe = c.dev.safe := rfl
@[simp] theorem updPins_stw (c : Ctx) (f : Pins → Pins) : (c.updPins f).dev.stw = c.dev.stw := rfl
@[simp] theorem updPins_furrows (c : Ctx) (f : Pins → Pins) : (c.updPins f).dev.furrows = c.dev.furrows := rfl
@[simp] theorem updPins_srv (c : Ctx) (f : Pins → Pins) : (c.updPins f).dev.srv = c.dev.srv := rfl
@[simp] theorem updPins_res (c : Ctx) (f : Pins → Pins) : (c.updPins f).dev.res = c.dev.res := rfl
@[simp] theorem updPins_sec (c : Ctx) (f : Pins → Pins) : (c.updPins f).dev.sec = c.dev.sec := rfl
@[simp] theorem updPins_epoch (c : Ctx) (f : Pins → Pins) : (c.updPins f).dev.epoch = c.dev.epoch := rfl
@[simp] theorem updPins_epochStuck (c : Ctx) (f : Pins → Pins) : (c.updPins f).dev.epochStuck = c.dev.epochStuck := rfl
@[simp] theorem updPins_poison (c : Ctx) (f : Pins → Pins) : (c.updPins f).dev.poison = c.dev.poison := rfl
@[simp] theorem updPins_errs (c : Ctx) (f : Pins → Pins) : (c.updPins f).dev.errs = c.dev.errs := rfl
@[simp] theorem updPins_answers (c : Ctx) (f : Pins → Pins) : (c.updPins f).dev.answers = c.dev.answers := rfl
@[simp] theorem updPins_outbox (c : Ctx) (f : Pins → Pins) : (c.updPins f).dev.outbox = c.dev.outbox := rfl
@[simp] theorem updPins_slow (c : Ctx) (f : Pins → Pins) : (c.updPins f).dev.slow = c.dev.slow := rfl
@[simp] theorem updPins_fresh (c : Ctx) (f : Pins → Pins) : (c.updPins f).dev.fresh = c.dev.fresh := rfl
@[simp] theorem updStw_units (c : Ctx) (f : StwSt → StwSt) : (c.updStw f).dev.units = c.dev.units := rfl
@[simp] theorem updStw_cores (c : Ctx) (f : StwSt → StwSt) : (c.updStw f).dev.cores = c.dev.cores := rfl
@[simp] theorem updStw_clusters (c : Ctx) (f : StwSt → StwSt) : (c.updStw f).dev.clusters = c.dev.clusters := rfl
@[simp] theorem updStw_dies (c : Ctx) (f : StwSt → StwSt) : (c.updStw f).dev.dies = c.dev.dies := rfl
@[simp] theorem updStw_colls (c : Ctx) (f : StwSt → StwSt) : (c.updStw f).dev.colls = c.dev.colls := rfl
@[simp] theorem updStw_cow (c : Ctx) (f : StwSt → StwSt) : (c.updStw f).dev.cow = c.dev.cow := rfl
@[simp] theorem updStw_gov (c : Ctx) (f : StwSt → StwSt) : (c.updStw f).dev.gov = c.dev.gov := rfl
@[simp] theorem updStw_job (c : Ctx) (f : StwSt → StwSt) : (c.updStw f).dev.job = c.dev.job := rfl
@[simp] theorem updStw_linkCfg (c : Ctx) (f : StwSt → StwSt) : (c.updStw f).dev.linkCfg = c.dev.linkCfg := rfl
@[simp] theorem updStw_ports (c : Ctx) (f : StwSt → StwSt) : (c.updStw f).dev.ports = c.dev.ports := rfl
@[simp] theorem updStw_topo (c : Ctx) (f : StwSt → StwSt) : (c.updStw f).dev.topo = c.dev.topo := rfl
@[simp] theorem updStw_frozenRemotes (c : Ctx) (f : StwSt → StwSt) : (c.updStw f).dev.frozenRemotes = c.dev.frozenRemotes := rfl
@[simp] theorem updStw_boot (c : Ctx) (f : StwSt → StwSt) : (c.updStw f).dev.boot = c.dev.boot := rfl
@[simp] theorem updStw_safe (c : Ctx) (f : StwSt → StwSt) : (c.updStw f).dev.safe = c.dev.safe := rfl
@[simp] theorem updStw_pins (c : Ctx) (f : StwSt → StwSt) : (c.updStw f).dev.pins = c.dev.pins := rfl
@[simp] theorem updStw_furrows (c : Ctx) (f : StwSt → StwSt) : (c.updStw f).dev.furrows = c.dev.furrows := rfl
@[simp] theorem updStw_srv (c : Ctx) (f : StwSt → StwSt) : (c.updStw f).dev.srv = c.dev.srv := rfl
@[simp] theorem updStw_res (c : Ctx) (f : StwSt → StwSt) : (c.updStw f).dev.res = c.dev.res := rfl
@[simp] theorem updStw_sec (c : Ctx) (f : StwSt → StwSt) : (c.updStw f).dev.sec = c.dev.sec := rfl
@[simp] theorem updStw_epoch (c : Ctx) (f : StwSt → StwSt) : (c.updStw f).dev.epoch = c.dev.epoch := rfl
@[simp] theorem updStw_epochStuck (c : Ctx) (f : StwSt → StwSt) : (c.updStw f).dev.epochStuck = c.dev.epochStuck := rfl
@[simp] theorem updStw_poison (c : Ctx) (f : StwSt → StwSt) : (c.updStw f).dev.poison = c.dev.poison := rfl
@[simp] theorem updStw_errs (c : Ctx) (f : StwSt → StwSt) : (c.updStw f).dev.errs = c.dev.errs := rfl
@[simp] theorem updStw_answers (c : Ctx) (f : StwSt → StwSt) : (c.updStw f).dev.answers = c.dev.answers := rfl
@[simp] theorem updStw_outbox (c : Ctx) (f : StwSt → StwSt) : (c.updStw f).dev.outbox = c.dev.outbox := rfl
@[simp] theorem updStw_slow (c : Ctx) (f : StwSt → StwSt) : (c.updStw f).dev.slow = c.dev.slow := rfl
@[simp] theorem updStw_fresh (c : Ctx) (f : StwSt → StwSt) : (c.updStw f).dev.fresh = c.dev.fresh := rfl
@[simp] theorem updCow_units (c : Ctx) (f : CowSt → CowSt) : (c.updCow f).dev.units = c.dev.units := rfl
@[simp] theorem updCow_cores (c : Ctx) (f : CowSt → CowSt) : (c.updCow f).dev.cores = c.dev.cores := rfl
@[simp] theorem updCow_clusters (c : Ctx) (f : CowSt → CowSt) : (c.updCow f).dev.clusters = c.dev.clusters := rfl
@[simp] theorem updCow_dies (c : Ctx) (f : CowSt → CowSt) : (c.updCow f).dev.dies = c.dev.dies := rfl
@[simp] theorem updCow_colls (c : Ctx) (f : CowSt → CowSt) : (c.updCow f).dev.colls = c.dev.colls := rfl
@[simp] theorem updCow_gov (c : Ctx) (f : CowSt → CowSt) : (c.updCow f).dev.gov = c.dev.gov := rfl
@[simp] theorem updCow_job (c : Ctx) (f : CowSt → CowSt) : (c.updCow f).dev.job = c.dev.job := rfl
@[simp] theorem updCow_linkCfg (c : Ctx) (f : CowSt → CowSt) : (c.updCow f).dev.linkCfg = c.dev.linkCfg := rfl
@[simp] theorem updCow_ports (c : Ctx) (f : CowSt → CowSt) : (c.updCow f).dev.ports = c.dev.ports := rfl
@[simp] theorem updCow_topo (c : Ctx) (f : CowSt → CowSt) : (c.updCow f).dev.topo = c.dev.topo := rfl
@[simp] theorem updCow_frozenRemotes (c : Ctx) (f : CowSt → CowSt) : (c.updCow f).dev.frozenRemotes = c.dev.frozenRemotes := rfl
@[simp] theorem updCow_boot (c : Ctx) (f : CowSt → CowSt) : (c.updCow f).dev.boot = c.dev.boot := rfl
@[simp] theorem updCow_safe (c : Ctx) (f : CowSt → CowSt) : (c.updCow f).dev.safe = c.dev.safe := rfl
@[simp] theorem updCow_pins (c : Ctx) (f : CowSt → CowSt) : (c.updCow f).dev.pins = c.dev.pins := rfl
@[simp] theorem updCow_stw (c : Ctx) (f : CowSt → CowSt) : (c.updCow f).dev.stw = c.dev.stw := rfl
@[simp] theorem updCow_furrows (c : Ctx) (f : CowSt → CowSt) : (c.updCow f).dev.furrows = c.dev.furrows := rfl
@[simp] theorem updCow_srv (c : Ctx) (f : CowSt → CowSt) : (c.updCow f).dev.srv = c.dev.srv := rfl
@[simp] theorem updCow_res (c : Ctx) (f : CowSt → CowSt) : (c.updCow f).dev.res = c.dev.res := rfl
@[simp] theorem updCow_sec (c : Ctx) (f : CowSt → CowSt) : (c.updCow f).dev.sec = c.dev.sec := rfl
@[simp] theorem updCow_epoch (c : Ctx) (f : CowSt → CowSt) : (c.updCow f).dev.epoch = c.dev.epoch := rfl
@[simp] theorem updCow_epochStuck (c : Ctx) (f : CowSt → CowSt) : (c.updCow f).dev.epochStuck = c.dev.epochStuck := rfl
@[simp] theorem updCow_poison (c : Ctx) (f : CowSt → CowSt) : (c.updCow f).dev.poison = c.dev.poison := rfl
@[simp] theorem updCow_errs (c : Ctx) (f : CowSt → CowSt) : (c.updCow f).dev.errs = c.dev.errs := rfl
@[simp] theorem updCow_answers (c : Ctx) (f : CowSt → CowSt) : (c.updCow f).dev.answers = c.dev.answers := rfl
@[simp] theorem updCow_outbox (c : Ctx) (f : CowSt → CowSt) : (c.updCow f).dev.outbox = c.dev.outbox := rfl
@[simp] theorem updCow_slow (c : Ctx) (f : CowSt → CowSt) : (c.updCow f).dev.slow = c.dev.slow := rfl
@[simp] theorem updCow_fresh (c : Ctx) (f : CowSt → CowSt) : (c.updCow f).dev.fresh = c.dev.fresh := rfl
@[simp] theorem updTopo_units (c : Ctx) (f : Topology → Topology) : (c.updTopo f).dev.units = c.dev.units := rfl
@[simp] theorem updTopo_cores (c : Ctx) (f : Topology → Topology) : (c.updTopo f).dev.cores = c.dev.cores := rfl
@[simp] theorem updTopo_clusters (c : Ctx) (f : Topology → Topology) : (c.updTopo f).dev.clusters = c.dev.clusters := rfl
@[simp] theorem updTopo_dies (c : Ctx) (f : Topology → Topology) : (c.updTopo f).dev.dies = c.dev.dies := rfl
@[simp] theorem updTopo_colls (c : Ctx) (f : Topology → Topology) : (c.updTopo f).dev.colls = c.dev.colls := rfl
@[simp] theorem updTopo_cow (c : Ctx) (f : Topology → Topology) : (c.updTopo f).dev.cow = c.dev.cow := rfl
@[simp] theorem updTopo_gov (c : Ctx) (f : Topology → Topology) : (c.updTopo f).dev.gov = c.dev.gov := rfl
@[simp] theorem updTopo_job (c : Ctx) (f : Topology → Topology) : (c.updTopo f).dev.job = c.dev.job := rfl
@[simp] theorem updTopo_linkCfg (c : Ctx) (f : Topology → Topology) : (c.updTopo f).dev.linkCfg = c.dev.linkCfg := rfl
@[simp] theorem updTopo_ports (c : Ctx) (f : Topology → Topology) : (c.updTopo f).dev.ports = c.dev.ports := rfl
@[simp] theorem updTopo_frozenRemotes (c : Ctx) (f : Topology → Topology) : (c.updTopo f).dev.frozenRemotes = c.dev.frozenRemotes := rfl
@[simp] theorem updTopo_boot (c : Ctx) (f : Topology → Topology) : (c.updTopo f).dev.boot = c.dev.boot := rfl
@[simp] theorem updTopo_safe (c : Ctx) (f : Topology → Topology) : (c.updTopo f).dev.safe = c.dev.safe := rfl
@[simp] theorem updTopo_pins (c : Ctx) (f : Topology → Topology) : (c.updTopo f).dev.pins = c.dev.pins := rfl
@[simp] theorem updTopo_stw (c : Ctx) (f : Topology → Topology) : (c.updTopo f).dev.stw = c.dev.stw := rfl
@[simp] theorem updTopo_furrows (c : Ctx) (f : Topology → Topology) : (c.updTopo f).dev.furrows = c.dev.furrows := rfl
@[simp] theorem updTopo_srv (c : Ctx) (f : Topology → Topology) : (c.updTopo f).dev.srv = c.dev.srv := rfl
@[simp] theorem updTopo_res (c : Ctx) (f : Topology → Topology) : (c.updTopo f).dev.res = c.dev.res := rfl
@[simp] theorem updTopo_sec (c : Ctx) (f : Topology → Topology) : (c.updTopo f).dev.sec = c.dev.sec := rfl
@[simp] theorem updTopo_epoch (c : Ctx) (f : Topology → Topology) : (c.updTopo f).dev.epoch = c.dev.epoch := rfl
@[simp] theorem updTopo_epochStuck (c : Ctx) (f : Topology → Topology) : (c.updTopo f).dev.epochStuck = c.dev.epochStuck := rfl
@[simp] theorem updTopo_poison (c : Ctx) (f : Topology → Topology) : (c.updTopo f).dev.poison = c.dev.poison := rfl
@[simp] theorem updTopo_errs (c : Ctx) (f : Topology → Topology) : (c.updTopo f).dev.errs = c.dev.errs := rfl
@[simp] theorem updTopo_answers (c : Ctx) (f : Topology → Topology) : (c.updTopo f).dev.answers = c.dev.answers := rfl
@[simp] theorem updTopo_outbox (c : Ctx) (f : Topology → Topology) : (c.updTopo f).dev.outbox = c.dev.outbox := rfl
@[simp] theorem updTopo_slow (c : Ctx) (f : Topology → Topology) : (c.updTopo f).dev.slow = c.dev.slow := rfl
@[simp] theorem updTopo_fresh (c : Ctx) (f : Topology → Topology) : (c.updTopo f).dev.fresh = c.dev.fresh := rfl
@[simp] theorem updRes_units (c : Ctx) (f : ResSt → ResSt) : (c.updRes f).dev.units = c.dev.units := rfl
@[simp] theorem updRes_cores (c : Ctx) (f : ResSt → ResSt) : (c.updRes f).dev.cores = c.dev.cores := rfl
@[simp] theorem updRes_clusters (c : Ctx) (f : ResSt → ResSt) : (c.updRes f).dev.clusters = c.dev.clusters := rfl
@[simp] theorem updRes_dies (c : Ctx) (f : ResSt → ResSt) : (c.updRes f).dev.dies = c.dev.dies := rfl
@[simp] theorem updRes_colls (c : Ctx) (f : ResSt → ResSt) : (c.updRes f).dev.colls = c.dev.colls := rfl
@[simp] theorem updRes_cow (c : Ctx) (f : ResSt → ResSt) : (c.updRes f).dev.cow = c.dev.cow := rfl
@[simp] theorem updRes_gov (c : Ctx) (f : ResSt → ResSt) : (c.updRes f).dev.gov = c.dev.gov := rfl
@[simp] theorem updRes_job (c : Ctx) (f : ResSt → ResSt) : (c.updRes f).dev.job = c.dev.job := rfl
@[simp] theorem updRes_linkCfg (c : Ctx) (f : ResSt → ResSt) : (c.updRes f).dev.linkCfg = c.dev.linkCfg := rfl
@[simp] theorem updRes_ports (c : Ctx) (f : ResSt → ResSt) : (c.updRes f).dev.ports = c.dev.ports := rfl
@[simp] theorem updRes_topo (c : Ctx) (f : ResSt → ResSt) : (c.updRes f).dev.topo = c.dev.topo := rfl
@[simp] theorem updRes_frozenRemotes (c : Ctx) (f : ResSt → ResSt) : (c.updRes f).dev.frozenRemotes = c.dev.frozenRemotes := rfl
@[simp] theorem updRes_boot (c : Ctx) (f : ResSt → ResSt) : (c.updRes f).dev.boot = c.dev.boot := rfl
@[simp] theorem updRes_safe (c : Ctx) (f : ResSt → ResSt) : (c.updRes f).dev.safe = c.dev.safe := rfl
@[simp] theorem updRes_pins (c : Ctx) (f : ResSt → ResSt) : (c.updRes f).dev.pins = c.dev.pins := rfl
@[simp] theorem updRes_stw (c : Ctx) (f : ResSt → ResSt) : (c.updRes f).dev.stw = c.dev.stw := rfl
@[simp] theorem updRes_furrows (c : Ctx) (f : ResSt → ResSt) : (c.updRes f).dev.furrows = c.dev.furrows := rfl
@[simp] theorem updRes_srv (c : Ctx) (f : ResSt → ResSt) : (c.updRes f).dev.srv = c.dev.srv := rfl
@[simp] theorem updRes_sec (c : Ctx) (f : ResSt → ResSt) : (c.updRes f).dev.sec = c.dev.sec := rfl
@[simp] theorem updRes_epoch (c : Ctx) (f : ResSt → ResSt) : (c.updRes f).dev.epoch = c.dev.epoch := rfl
@[simp] theorem updRes_epochStuck (c : Ctx) (f : ResSt → ResSt) : (c.updRes f).dev.epochStuck = c.dev.epochStuck := rfl
@[simp] theorem updRes_poison (c : Ctx) (f : ResSt → ResSt) : (c.updRes f).dev.poison = c.dev.poison := rfl
@[simp] theorem updRes_errs (c : Ctx) (f : ResSt → ResSt) : (c.updRes f).dev.errs = c.dev.errs := rfl
@[simp] theorem updRes_answers (c : Ctx) (f : ResSt → ResSt) : (c.updRes f).dev.answers = c.dev.answers := rfl
@[simp] theorem updRes_outbox (c : Ctx) (f : ResSt → ResSt) : (c.updRes f).dev.outbox = c.dev.outbox := rfl
@[simp] theorem updRes_slow (c : Ctx) (f : ResSt → ResSt) : (c.updRes f).dev.slow = c.dev.slow := rfl
@[simp] theorem updRes_fresh (c : Ctx) (f : ResSt → ResSt) : (c.updRes f).dev.fresh = c.dev.fresh := rfl
@[simp] theorem updSrv_units (c : Ctx) (f : SrvSt → SrvSt) : (c.updSrv f).dev.units = c.dev.units := rfl
@[simp] theorem updSrv_cores (c : Ctx) (f : SrvSt → SrvSt) : (c.updSrv f).dev.cores = c.dev.cores := rfl
@[simp] theorem updSrv_clusters (c : Ctx) (f : SrvSt → SrvSt) : (c.updSrv f).dev.clusters = c.dev.clusters := rfl
@[simp] theorem updSrv_dies (c : Ctx) (f : SrvSt → SrvSt) : (c.updSrv f).dev.dies = c.dev.dies := rfl
@[simp] theorem updSrv_colls (c : Ctx) (f : SrvSt → SrvSt) : (c.updSrv f).dev.colls = c.dev.colls := rfl
@[simp] theorem updSrv_cow (c : Ctx) (f : SrvSt → SrvSt) : (c.updSrv f).dev.cow = c.dev.cow := rfl
@[simp] theorem updSrv_gov (c : Ctx) (f : SrvSt → SrvSt) : (c.updSrv f).dev.gov = c.dev.gov := rfl
@[simp] theorem updSrv_job (c : Ctx) (f : SrvSt → SrvSt) : (c.updSrv f).dev.job = c.dev.job := rfl
@[simp] theorem updSrv_linkCfg (c : Ctx) (f : SrvSt → SrvSt) : (c.updSrv f).dev.linkCfg = c.dev.linkCfg := rfl
@[simp] theorem updSrv_ports (c : Ctx) (f : SrvSt → SrvSt) : (c.updSrv f).dev.ports = c.dev.ports := rfl
@[simp] theorem updSrv_topo (c : Ctx) (f : SrvSt → SrvSt) : (c.updSrv f).dev.topo = c.dev.topo := rfl
@[simp] theorem updSrv_frozenRemotes (c : Ctx) (f : SrvSt → SrvSt) : (c.updSrv f).dev.frozenRemotes = c.dev.frozenRemotes := rfl
@[simp] theorem updSrv_boot (c : Ctx) (f : SrvSt → SrvSt) : (c.updSrv f).dev.boot = c.dev.boot := rfl
@[simp] theorem updSrv_safe (c : Ctx) (f : SrvSt → SrvSt) : (c.updSrv f).dev.safe = c.dev.safe := rfl
@[simp] theorem updSrv_pins (c : Ctx) (f : SrvSt → SrvSt) : (c.updSrv f).dev.pins = c.dev.pins := rfl
@[simp] theorem updSrv_stw (c : Ctx) (f : SrvSt → SrvSt) : (c.updSrv f).dev.stw = c.dev.stw := rfl
@[simp] theorem updSrv_furrows (c : Ctx) (f : SrvSt → SrvSt) : (c.updSrv f).dev.furrows = c.dev.furrows := rfl
@[simp] theorem updSrv_res (c : Ctx) (f : SrvSt → SrvSt) : (c.updSrv f).dev.res = c.dev.res := rfl
@[simp] theorem updSrv_sec (c : Ctx) (f : SrvSt → SrvSt) : (c.updSrv f).dev.sec = c.dev.sec := rfl
@[simp] theorem updSrv_epoch (c : Ctx) (f : SrvSt → SrvSt) : (c.updSrv f).dev.epoch = c.dev.epoch := rfl
@[simp] theorem updSrv_epochStuck (c : Ctx) (f : SrvSt → SrvSt) : (c.updSrv f).dev.epochStuck = c.dev.epochStuck := rfl
@[simp] theorem updSrv_poison (c : Ctx) (f : SrvSt → SrvSt) : (c.updSrv f).dev.poison = c.dev.poison := rfl
@[simp] theorem updSrv_errs (c : Ctx) (f : SrvSt → SrvSt) : (c.updSrv f).dev.errs = c.dev.errs := rfl
@[simp] theorem updSrv_answers (c : Ctx) (f : SrvSt → SrvSt) : (c.updSrv f).dev.answers = c.dev.answers := rfl
@[simp] theorem updSrv_outbox (c : Ctx) (f : SrvSt → SrvSt) : (c.updSrv f).dev.outbox = c.dev.outbox := rfl
@[simp] theorem updSrv_slow (c : Ctx) (f : SrvSt → SrvSt) : (c.updSrv f).dev.slow = c.dev.slow := rfl
@[simp] theorem updSrv_fresh (c : Ctx) (f : SrvSt → SrvSt) : (c.updSrv f).dev.fresh = c.dev.fresh := rfl
@[simp] theorem setUnit_cores (c : Ctx) (k : Nat) (x : UnitSt) : (c.setUnit k x).dev.cores = c.dev.cores := rfl
@[simp] theorem setUnit_clusters (c : Ctx) (k : Nat) (x : UnitSt) : (c.setUnit k x).dev.clusters = c.dev.clusters := rfl
@[simp] theorem setUnit_dies (c : Ctx) (k : Nat) (x : UnitSt) : (c.setUnit k x).dev.dies = c.dev.dies := rfl
@[simp] theorem setUnit_colls (c : Ctx) (k : Nat) (x : UnitSt) : (c.setUnit k x).dev.colls = c.dev.colls := rfl
@[simp] theorem setUnit_cow (c : Ctx) (k : Nat) (x : UnitSt) : (c.setUnit k x).dev.cow = c.dev.cow := rfl
@[simp] theorem setUnit_gov (c : Ctx) (k : Nat) (x : UnitSt) : (c.setUnit k x).dev.gov = c.dev.gov := rfl
@[simp] theorem setUnit_job (c : Ctx) (k : Nat) (x : UnitSt) : (c.setUnit k x).dev.job = c.dev.job := rfl
@[simp] theorem setUnit_linkCfg (c : Ctx) (k : Nat) (x : UnitSt) : (c.setUnit k x).dev.linkCfg = c.dev.linkCfg := rfl
@[simp] theorem setUnit_ports (c : Ctx) (k : Nat) (x : UnitSt) : (c.setUnit k x).dev.ports = c.dev.ports := rfl
@[simp] theorem setUnit_topo (c : Ctx) (k : Nat) (x : UnitSt) : (c.setUnit k x).dev.topo = c.dev.topo := rfl
@[simp] theorem setUnit_frozenRemotes (c : Ctx) (k : Nat) (x : UnitSt) : (c.setUnit k x).dev.frozenRemotes = c.dev.frozenRemotes := rfl
@[simp] theorem setUnit_boot (c : Ctx) (k : Nat) (x : UnitSt) : (c.setUnit k x).dev.boot = c.dev.boot := rfl
@[simp] theorem setUnit_safe (c : Ctx) (k : Nat) (x : UnitSt) : (c.setUnit k x).dev.safe = c.dev.safe := rfl
@[simp] theorem setUnit_pins (c : Ctx) (k : Nat) (x : UnitSt) : (c.setUnit k x).dev.pins = c.dev.pins := rfl
@[simp] theorem setUnit_stw (c : Ctx) (k : Nat) (x : UnitSt) : (c.setUnit k x).dev.stw = c.dev.stw := rfl
@[simp] theorem setUnit_furrows (c : Ctx) (k : Nat) (x : UnitSt) : (c.setUnit k x).dev.furrows = c.dev.furrows := rfl
@[simp] theorem setUnit_srv (c : Ctx) (k : Nat) (x : UnitSt) : (c.setUnit k x).dev.srv = c.dev.srv := rfl
@[simp] theorem setUnit_res (c : Ctx) (k : Nat) (x : UnitSt) : (c.setUnit k x).dev.res = c.dev.res := rfl
@[simp] theorem setUnit_sec (c : Ctx) (k : Nat) (x : UnitSt) : (c.setUnit k x).dev.sec = c.dev.sec := rfl
@[simp] theorem setUnit_epoch (c : Ctx) (k : Nat) (x : UnitSt) : (c.setUnit k x).dev.epoch = c.dev.epoch := rfl
@[simp] theorem setUnit_epochStuck (c : Ctx) (k : Nat) (x : UnitSt) : (c.setUnit k x).dev.epochStuck = c.dev.epochStuck := rfl
@[simp] theorem setUnit_poison (c : Ctx) (k : Nat) (x : UnitSt) : (c.setUnit k x).dev.poison = c.dev.poison := rfl
@[simp] theorem setUnit_errs (c : Ctx) (k : Nat) (x : UnitSt) : (c.setUnit k x).dev.errs = c.dev.errs := rfl
@[simp] theorem setUnit_answers (c : Ctx) (k : Nat) (x : UnitSt) : (c.setUnit k x).dev.answers = c.dev.answers := rfl
@[simp] theorem setUnit_outbox (c : Ctx) (k : Nat) (x : UnitSt) : (c.setUnit k x).dev.outbox = c.dev.outbox := rfl
@[simp] theorem setUnit_slow (c : Ctx) (k : Nat) (x : UnitSt) : (c.setUnit k x).dev.slow = c.dev.slow := rfl
@[simp] theorem setUnit_fresh (c : Ctx) (k : Nat) (x : UnitSt) : (c.setUnit k x).dev.fresh = c.dev.fresh := rfl
@[simp] theorem updPair_units (c : Ctx) (k : Nat) (f : QPair → QPair) : (c.updPair k f).dev.units = c.dev.units := rfl
@[simp] theorem updPair_cores (c : Ctx) (k : Nat) (f : QPair → QPair) : (c.updPair k f).dev.cores = c.dev.cores := rfl
@[simp] theorem updPair_clusters (c : Ctx) (k : Nat) (f : QPair → QPair) : (c.updPair k f).dev.clusters = c.dev.clusters := rfl
@[simp] theorem updPair_dies (c : Ctx) (k : Nat) (f : QPair → QPair) : (c.updPair k f).dev.dies = c.dev.dies := rfl
@[simp] theorem updPair_colls (c : Ctx) (k : Nat) (f : QPair → QPair) : (c.updPair k f).dev.colls = c.dev.colls := rfl
@[simp] theorem updPair_cow (c : Ctx) (k : Nat) (f : QPair → QPair) : (c.updPair k f).dev.cow = c.dev.cow := rfl
@[simp] theorem updPair_gov (c : Ctx) (k : Nat) (f : QPair → QPair) : (c.updPair k f).dev.gov = c.dev.gov := rfl
@[simp] theorem updPair_job (c : Ctx) (k : Nat) (f : QPair → QPair) : (c.updPair k f).dev.job = c.dev.job := rfl
@[simp] theorem updPair_linkCfg (c : Ctx) (k : Nat) (f : QPair → QPair) : (c.updPair k f).dev.linkCfg = c.dev.linkCfg := rfl
@[simp] theorem updPair_ports (c : Ctx) (k : Nat) (f : QPair → QPair) : (c.updPair k f).dev.ports = c.dev.ports := rfl
@[simp] theorem updPair_topo (c : Ctx) (k : Nat) (f : QPair → QPair) : (c.updPair k f).dev.topo = c.dev.topo := rfl
@[simp] theorem updPair_frozenRemotes (c : Ctx) (k : Nat) (f : QPair → QPair) : (c.updPair k f).dev.frozenRemotes = c.dev.frozenRemotes := rfl
@[simp] theorem updPair_boot (c : Ctx) (k : Nat) (f : QPair → QPair) : (c.updPair k f).dev.boot = c.dev.boot := rfl
@[simp] theorem updPair_safe (c : Ctx) (k : Nat) (f : QPair → QPair) : (c.updPair k f).dev.safe = c.dev.safe := rfl
@[simp] theorem updPair_pins (c : Ctx) (k : Nat) (f : QPair → QPair) : (c.updPair k f).dev.pins = c.dev.pins := rfl
@[simp] theorem updPair_furrows (c : Ctx) (k : Nat) (f : QPair → QPair) : (c.updPair k f).dev.furrows = c.dev.furrows := rfl
@[simp] theorem updPair_srv (c : Ctx) (k : Nat) (f : QPair → QPair) : (c.updPair k f).dev.srv = c.dev.srv := rfl
@[simp] theorem updPair_res (c : Ctx) (k : Nat) (f : QPair → QPair) : (c.updPair k f).dev.res = c.dev.res := rfl
@[simp] theorem updPair_sec (c : Ctx) (k : Nat) (f : QPair → QPair) : (c.updPair k f).dev.sec = c.dev.sec := rfl
@[simp] theorem updPair_epoch (c : Ctx) (k : Nat) (f : QPair → QPair) : (c.updPair k f).dev.epoch = c.dev.epoch := rfl
@[simp] theorem updPair_epochStuck (c : Ctx) (k : Nat) (f : QPair → QPair) : (c.updPair k f).dev.epochStuck = c.dev.epochStuck := rfl
@[simp] theorem updPair_poison (c : Ctx) (k : Nat) (f : QPair → QPair) : (c.updPair k f).dev.poison = c.dev.poison := rfl
@[simp] theorem updPair_errs (c : Ctx) (k : Nat) (f : QPair → QPair) : (c.updPair k f).dev.errs = c.dev.errs := rfl
@[simp] theorem updPair_answers (c : Ctx) (k : Nat) (f : QPair → QPair) : (c.updPair k f).dev.answers = c.dev.answers := rfl
@[simp] theorem updPair_outbox (c : Ctx) (k : Nat) (f : QPair → QPair) : (c.updPair k f).dev.outbox = c.dev.outbox := rfl
@[simp] theorem updPair_slow (c : Ctx) (k : Nat) (f : QPair → QPair) : (c.updPair k f).dev.slow = c.dev.slow := rfl
@[simp] theorem updPair_fresh (c : Ctx) (k : Nat) (f : QPair → QPair) : (c.updPair k f).dev.fresh = c.dev.fresh := rfl
@[simp] theorem send_units (c : Ctx) (m : Msg) : (c.send m).dev.units = c.dev.units := rfl
@[simp] theorem send_cores (c : Ctx) (m : Msg) : (c.send m).dev.cores = c.dev.cores := rfl
@[simp] theorem send_clusters (c : Ctx) (m : Msg) : (c.send m).dev.clusters = c.dev.clusters := rfl
@[simp] theorem send_dies (c : Ctx) (m : Msg) : (c.send m).dev.dies = c.dev.dies := rfl
@[simp] theorem send_colls (c : Ctx) (m : Msg) : (c.send m).dev.colls = c.dev.colls := rfl
@[simp] theorem send_cow (c : Ctx) (m : Msg) : (c.send m).dev.cow = c.dev.cow := rfl
@[simp] theorem send_gov (c : Ctx) (m : Msg) : (c.send m).dev.gov = c.dev.gov := rfl
@[simp] theorem send_job (c : Ctx) (m : Msg) : (c.send m).dev.job = c.dev.job := rfl
@[simp] theorem send_linkCfg (c : Ctx) (m : Msg) : (c.send m).dev.linkCfg = c.dev.linkCfg := rfl
@[simp] theorem send_ports (c : Ctx) (m : Msg) : (c.send m).dev.ports = c.dev.ports := rfl
@[simp] theorem send_topo (c : Ctx) (m : Msg) : (c.send m).dev.topo = c.dev.topo := rfl
@[simp] theorem send_frozenRemotes (c : Ctx) (m : Msg) : (c.send m).dev.frozenRemotes = c.dev.frozenRemotes := rfl
@[simp] theorem send_boot (c : Ctx) (m : Msg) : (c.send m).dev.boot = c.dev.boot := rfl
@[simp] theorem send_safe (c : Ctx) (m : Msg) : (c.send m).dev.safe = c.dev.safe := rfl
@[simp] theorem send_pins (c : Ctx) (m : Msg) : (c.send m).dev.pins = c.dev.pins := rfl
@[simp] theorem send_stw (c : Ctx) (m : Msg) : (c.send m).dev.stw = c.dev.stw := rfl
@[simp] theorem send_furrows (c : Ctx) (m : Msg) : (c.send m).dev.furrows = c.dev.furrows := rfl
@[simp] theorem send_srv (c : Ctx) (m : Msg) : (c.send m).dev.srv = c.dev.srv := rfl
@[simp] theorem send_res (c : Ctx) (m : Msg) : (c.send m).dev.res = c.dev.res := rfl
@[simp] theorem send_sec (c : Ctx) (m : Msg) : (c.send m).dev.sec = c.dev.sec := rfl
@[simp] theorem send_epoch (c : Ctx) (m : Msg) : (c.send m).dev.epoch = c.dev.epoch := rfl
@[simp] theorem send_epochStuck (c : Ctx) (m : Msg) : (c.send m).dev.epochStuck = c.dev.epochStuck := rfl
@[simp] theorem send_poison (c : Ctx) (m : Msg) : (c.send m).dev.poison = c.dev.poison := rfl
@[simp] theorem send_errs (c : Ctx) (m : Msg) : (c.send m).dev.errs = c.dev.errs := rfl
@[simp] theorem send_answers (c : Ctx) (m : Msg) : (c.send m).dev.answers = c.dev.answers := rfl
@[simp] theorem send_slow (c : Ctx) (m : Msg) : (c.send m).dev.slow = c.dev.slow := rfl
@[simp] theorem send_fresh (c : Ctx) (m : Msg) : (c.send m).dev.fresh = c.dev.fresh := rfl
@[simp] theorem answer_units (c : Ctx) (k : Nat) (a : Answer) : (c.answer k a).dev.units = c.dev.units := rfl
@[simp] theorem answer_cores (c : Ctx) (k : Nat) (a : Answer) : (c.answer k a).dev.cores = c.dev.cores := rfl
@[simp] theorem answer_clusters (c : Ctx) (k : Nat) (a : Answer) : (c.answer k a).dev.clusters = c.dev.clusters := rfl
@[simp] theorem answer_dies (c : Ctx) (k : Nat) (a : Answer) : (c.answer k a).dev.dies = c.dev.dies := rfl
@[simp] theorem answer_colls (c : Ctx) (k : Nat) (a : Answer) : (c.answer k a).dev.colls = c.dev.colls := rfl
@[simp] theorem answer_cow (c : Ctx) (k : Nat) (a : Answer) : (c.answer k a).dev.cow = c.dev.cow := rfl
@[simp] theorem answer_gov (c : Ctx) (k : Nat) (a : Answer) : (c.answer k a).dev.gov = c.dev.gov := rfl
@[simp] theorem answer_job (c : Ctx) (k : Nat) (a : Answer) : (c.answer k a).dev.job = c.dev.job := rfl
@[simp] theorem answer_linkCfg (c : Ctx) (k : Nat) (a : Answer) : (c.answer k a).dev.linkCfg = c.dev.linkCfg := rfl
@[simp] theorem answer_ports (c : Ctx) (k : Nat) (a : Answer) : (c.answer k a).dev.ports = c.dev.ports := rfl
@[simp] theorem answer_topo (c : Ctx) (k : Nat) (a : Answer) : (c.answer k a).dev.topo = c.dev.topo := rfl
@[simp] theorem answer_frozenRemotes (c : Ctx) (k : Nat) (a : Answer) : (c.answer k a).dev.frozenRemotes = c.dev.frozenRemotes := rfl
@[simp] theorem answer_boot (c : Ctx) (k : Nat) (a : Answer) : (c.answer k a).dev.boot = c.dev.boot := rfl
@[simp] theorem answer_safe (c : Ctx) (k : Nat) (a : Answer) : (c.answer k a).dev.safe = c.dev.safe := rfl
@[simp] theorem answer_pins (c : Ctx) (k : Nat) (a : Answer) : (c.answer k a).dev.pins = c.dev.pins := rfl
@[simp] theorem answer_stw (c : Ctx) (k : Nat) (a : Answer) : (c.answer k a).dev.stw = c.dev.stw := rfl
@[simp] theorem answer_furrows (c : Ctx) (k : Nat) (a : Answer) : (c.answer k a).dev.furrows = c.dev.furrows := rfl
@[simp] theorem answer_srv (c : Ctx) (k : Nat) (a : Answer) : (c.answer k a).dev.srv = c.dev.srv := rfl
@[simp] theorem answer_res (c : Ctx) (k : Nat) (a : Answer) : (c.answer k a).dev.res = c.dev.res := rfl
@[simp] theorem answer_sec (c : Ctx) (k : Nat) (a : Answer) : (c.answer k a).dev.sec = c.dev.sec := rfl
@[simp] theorem answer_epoch (c : Ctx) (k : Nat) (a : Answer) : (c.answer k a).dev.epoch = c.dev.epoch := rfl
@[simp] theorem answer_epochStuck (c : Ctx) (k : Nat) (a : Answer) : (c.answer k a).dev.epochStuck = c.dev.epochStuck := rfl
@[simp] theorem answer_poison (c : Ctx) (k : Nat) (a : Answer) : (c.answer k a).dev.poison = c.dev.poison := rfl
@[simp] theorem answer_errs (c : Ctx) (k : Nat) (a : Answer) : (c.answer k a).dev.errs = c.dev.errs := rfl
@[simp] theorem answer_outbox (c : Ctx) (k : Nat) (a : Answer) : (c.answer k a).dev.outbox = c.dev.outbox := rfl
@[simp] theorem answer_slow (c : Ctx) (k : Nat) (a : Answer) : (c.answer k a).dev.slow = c.dev.slow := rfl
@[simp] theorem answer_fresh (c : Ctx) (k : Nat) (a : Answer) : (c.answer k a).dev.fresh = c.dev.fresh := rfl

/-! ### What an update puts in place -/

@[simp] theorem updJob_job (c : Ctx) (f : JobSt → JobSt) : (c.updJob f).dev.job = f c.dev.job := rfl
@[simp] theorem updBoot_boot (c : Ctx) (f : BootSt → BootSt) : (c.updBoot f).dev.boot = f c.dev.boot := rfl
@[simp] theorem updSafe_safe (c : Ctx) (f : SafeSt → SafeSt) : (c.updSafe f).dev.safe = f c.dev.safe := rfl
@[simp] theorem updPins_pins (c : Ctx) (f : Pins → Pins) : (c.updPins f).dev.pins = f c.dev.pins := rfl
@[simp] theorem updStw_stw (c : Ctx) (f : StwSt → StwSt) : (c.updStw f).dev.stw = f c.dev.stw := rfl
@[simp] theorem updCow_cow (c : Ctx) (f : CowSt → CowSt) : (c.updCow f).dev.cow = f c.dev.cow := rfl
@[simp] theorem updTopo_topo (c : Ctx) (f : Topology → Topology) : (c.updTopo f).dev.topo = f c.dev.topo := rfl
@[simp] theorem updRes_res (c : Ctx) (f : ResSt → ResSt) : (c.updRes f).dev.res = f c.dev.res := rfl
@[simp] theorem updSrv_srv (c : Ctx) (f : SrvSt → SrvSt) : (c.updSrv f).dev.srv = f c.dev.srv := rfl
@[simp] theorem send_outbox (c : Ctx) (m : Msg) : (c.send m).dev.outbox = c.dev.outbox ++ [m] := rfl
@[simp] theorem answer_answers (c : Ctx) (k : Nat) (a : Answer) : (c.answer k a).dev.answers = Tab.set c.dev.answers k a := rfl
@[simp] theorem updUnit_same (c : Ctx) (k : Nat) (f : UnitSt → UnitSt) : (c.updUnit k f).unit k = f (c.unit k) := by
  simp [Ctx.updUnit, Ctx.unit, Ctx.setUnit]
@[simp] theorem updUnit_other (c : Ctx) {j k : Nat} (f : UnitSt → UnitSt) (h : j ≠ k) : (c.updUnit k f).unit j = c.unit j := by
  simp [Ctx.updUnit, Ctx.unit, h, Ctx.setUnit]
@[simp] theorem updCore_same (c : Ctx) (k : Nat) (f : CoreSt → CoreSt) : (c.updCore k f).core k = f (c.core k) := by
  simp [Ctx.updCore, Ctx.core]
@[simp] theorem updCore_other (c : Ctx) {j k : Nat} (f : CoreSt → CoreSt) (h : j ≠ k) : (c.updCore k f).core j = c.core j := by
  simp [Ctx.updCore, Ctx.core, h]
@[simp] theorem updCluster_same (c : Ctx) (k : Nat) (f : ClusterSt → ClusterSt) : (c.updCluster k f).cluster k = f (c.cluster k) := by
  simp [Ctx.updCluster, Ctx.cluster]
@[simp] theorem updCluster_other (c : Ctx) {j k : Nat} (f : ClusterSt → ClusterSt) (h : j ≠ k) : (c.updCluster k f).cluster j = c.cluster j := by
  simp [Ctx.updCluster, Ctx.cluster, h]
@[simp] theorem updDie_same (c : Ctx) (k : Nat) (f : DieSt → DieSt) : (c.updDie k f).die k = f (c.die k) := by
  simp [Ctx.updDie, Ctx.die]
@[simp] theorem updDie_other (c : Ctx) {j k : Nat} (f : DieSt → DieSt) (h : j ≠ k) : (c.updDie k f).die j = c.die j := by
  simp [Ctx.updDie, Ctx.die, h]
@[simp] theorem updColl_same (c : Ctx) (k : Nat) (f : Coll → Coll) : (c.updColl k f).coll k = f (c.coll k) := by
  simp [Ctx.updColl, Ctx.coll]
@[simp] theorem updColl_other (c : Ctx) {j k : Nat} (f : Coll → Coll) (h : j ≠ k) : (c.updColl k f).coll j = c.coll j := by
  simp [Ctx.updColl, Ctx.coll, h]
@[simp] theorem updPort_same (c : Ctx) (k : Nat) (f : Port → Port) : (c.updPort k f).port k = f (c.port k) := by
  simp [Ctx.updPort, Ctx.port]
@[simp] theorem updPort_other (c : Ctx) {j k : Nat} (f : Port → Port) (h : j ≠ k) : (c.updPort k f).port j = c.port j := by
  simp [Ctx.updPort, Ctx.port, h]
@[simp] theorem updPair_same (c : Ctx) (k : Nat) (f : QPair → QPair) : (c.updPair k f).pair k = f (c.pair k) := by simp [Ctx.updPair, Ctx.pair]
@[simp] theorem updPair_other (c : Ctx) {j k : Nat} (f : QPair → QPair) (h : j ≠ k) : (c.updPair k f).pair j = c.pair j := by
  simp [Ctx.updPair, Ctx.pair, h]

/-! ### A part of one table under an update of another -/

@[simp] theorem updUnit_at_core (c : Ctx) (k : Nat) (f : UnitSt → UnitSt) (j : Nat) : (c.updUnit k f).core j = c.core j := rfl
@[simp] theorem updUnit_at_cluster (c : Ctx) (k : Nat) (f : UnitSt → UnitSt) (j : Nat) : (c.updUnit k f).cluster j = c.cluster j := rfl
@[simp] theorem updUnit_at_die (c : Ctx) (k : Nat) (f : UnitSt → UnitSt) (j : Nat) : (c.updUnit k f).die j = c.die j := rfl
@[simp] theorem updUnit_at_coll (c : Ctx) (k : Nat) (f : UnitSt → UnitSt) (j : Nat) : (c.updUnit k f).coll j = c.coll j := rfl
@[simp] theorem updUnit_at_port (c : Ctx) (k : Nat) (f : UnitSt → UnitSt) (j : Nat) : (c.updUnit k f).port j = c.port j := rfl
@[simp] theorem updCore_at_unit (c : Ctx) (k : Nat) (f : CoreSt → CoreSt) (j : Nat) : (c.updCore k f).unit j = c.unit j := rfl
@[simp] theorem updCore_at_cluster (c : Ctx) (k : Nat) (f : CoreSt → CoreSt) (j : Nat) : (c.updCore k f).cluster j = c.cluster j := rfl
@[simp] theorem updCore_at_die (c : Ctx) (k : Nat) (f : CoreSt → CoreSt) (j : Nat) : (c.updCore k f).die j = c.die j := rfl
@[simp] theorem updCore_at_coll (c : Ctx) (k : Nat) (f : CoreSt → CoreSt) (j : Nat) : (c.updCore k f).coll j = c.coll j := rfl
@[simp] theorem updCore_at_port (c : Ctx) (k : Nat) (f : CoreSt → CoreSt) (j : Nat) : (c.updCore k f).port j = c.port j := rfl
@[simp] theorem updCluster_at_unit (c : Ctx) (k : Nat) (f : ClusterSt → ClusterSt) (j : Nat) : (c.updCluster k f).unit j = c.unit j := rfl
@[simp] theorem updCluster_at_core (c : Ctx) (k : Nat) (f : ClusterSt → ClusterSt) (j : Nat) : (c.updCluster k f).core j = c.core j := rfl
@[simp] theorem updCluster_at_die (c : Ctx) (k : Nat) (f : ClusterSt → ClusterSt) (j : Nat) : (c.updCluster k f).die j = c.die j := rfl
@[simp] theorem updCluster_at_coll (c : Ctx) (k : Nat) (f : ClusterSt → ClusterSt) (j : Nat) : (c.updCluster k f).coll j = c.coll j := rfl
@[simp] theorem updCluster_at_port (c : Ctx) (k : Nat) (f : ClusterSt → ClusterSt) (j : Nat) : (c.updCluster k f).port j = c.port j := rfl
@[simp] theorem updDie_at_unit (c : Ctx) (k : Nat) (f : DieSt → DieSt) (j : Nat) : (c.updDie k f).unit j = c.unit j := rfl
@[simp] theorem updDie_at_core (c : Ctx) (k : Nat) (f : DieSt → DieSt) (j : Nat) : (c.updDie k f).core j = c.core j := rfl
@[simp] theorem updDie_at_cluster (c : Ctx) (k : Nat) (f : DieSt → DieSt) (j : Nat) : (c.updDie k f).cluster j = c.cluster j := rfl
@[simp] theorem updDie_at_coll (c : Ctx) (k : Nat) (f : DieSt → DieSt) (j : Nat) : (c.updDie k f).coll j = c.coll j := rfl
@[simp] theorem updDie_at_port (c : Ctx) (k : Nat) (f : DieSt → DieSt) (j : Nat) : (c.updDie k f).port j = c.port j := rfl
@[simp] theorem updColl_at_unit (c : Ctx) (k : Nat) (f : Coll → Coll) (j : Nat) : (c.updColl k f).unit j = c.unit j := rfl
@[simp] theorem updColl_at_core (c : Ctx) (k : Nat) (f : Coll → Coll) (j : Nat) : (c.updColl k f).core j = c.core j := rfl
@[simp] theorem updColl_at_cluster (c : Ctx) (k : Nat) (f : Coll → Coll) (j : Nat) : (c.updColl k f).cluster j = c.cluster j := rfl
@[simp] theorem updColl_at_die (c : Ctx) (k : Nat) (f : Coll → Coll) (j : Nat) : (c.updColl k f).die j = c.die j := rfl
@[simp] theorem updColl_at_port (c : Ctx) (k : Nat) (f : Coll → Coll) (j : Nat) : (c.updColl k f).port j = c.port j := rfl
@[simp] theorem updPort_at_unit (c : Ctx) (k : Nat) (f : Port → Port) (j : Nat) : (c.updPort k f).unit j = c.unit j := rfl
@[simp] theorem updPort_at_core (c : Ctx) (k : Nat) (f : Port → Port) (j : Nat) : (c.updPort k f).core j = c.core j := rfl
@[simp] theorem updPort_at_cluster (c : Ctx) (k : Nat) (f : Port → Port) (j : Nat) : (c.updPort k f).cluster j = c.cluster j := rfl
@[simp] theorem updPort_at_die (c : Ctx) (k : Nat) (f : Port → Port) (j : Nat) : (c.updPort k f).die j = c.die j := rfl
@[simp] theorem updPort_at_coll (c : Ctx) (k : Nat) (f : Port → Port) (j : Nat) : (c.updPort k f).coll j = c.coll j := rfl
@[simp] theorem updJob_at_unit (c : Ctx) (f : JobSt → JobSt) (j : Nat) : (c.updJob f).unit j = c.unit j := rfl
@[simp] theorem updJob_at_core (c : Ctx) (f : JobSt → JobSt) (j : Nat) : (c.updJob f).core j = c.core j := rfl
@[simp] theorem updJob_at_cluster (c : Ctx) (f : JobSt → JobSt) (j : Nat) : (c.updJob f).cluster j = c.cluster j := rfl
@[simp] theorem updJob_at_die (c : Ctx) (f : JobSt → JobSt) (j : Nat) : (c.updJob f).die j = c.die j := rfl
@[simp] theorem updJob_at_coll (c : Ctx) (f : JobSt → JobSt) (j : Nat) : (c.updJob f).coll j = c.coll j := rfl
@[simp] theorem updJob_at_port (c : Ctx) (f : JobSt → JobSt) (j : Nat) : (c.updJob f).port j = c.port j := rfl
@[simp] theorem updBoot_at_unit (c : Ctx) (f : BootSt → BootSt) (j : Nat) : (c.updBoot f).unit j = c.unit j := rfl
@[simp] theorem updBoot_at_core (c : Ctx) (f : BootSt → BootSt) (j : Nat) : (c.updBoot f).core j = c.core j := rfl
@[simp] theorem updBoot_at_cluster (c : Ctx) (f : BootSt → BootSt) (j : Nat) : (c.updBoot f).cluster j = c.cluster j := rfl
@[simp] theorem updBoot_at_die (c : Ctx) (f : BootSt → BootSt) (j : Nat) : (c.updBoot f).die j = c.die j := rfl
@[simp] theorem updBoot_at_coll (c : Ctx) (f : BootSt → BootSt) (j : Nat) : (c.updBoot f).coll j = c.coll j := rfl
@[simp] theorem updBoot_at_port (c : Ctx) (f : BootSt → BootSt) (j : Nat) : (c.updBoot f).port j = c.port j := rfl
@[simp] theorem updSafe_at_unit (c : Ctx) (f : SafeSt → SafeSt) (j : Nat) : (c.updSafe f).unit j = c.unit j := rfl
@[simp] theorem updSafe_at_core (c : Ctx) (f : SafeSt → SafeSt) (j : Nat) : (c.updSafe f).core j = c.core j := rfl
@[simp] theorem updSafe_at_cluster (c : Ctx) (f : SafeSt → SafeSt) (j : Nat) : (c.updSafe f).cluster j = c.cluster j := rfl
@[simp] theorem updSafe_at_die (c : Ctx) (f : SafeSt → SafeSt) (j : Nat) : (c.updSafe f).die j = c.die j := rfl
@[simp] theorem updSafe_at_coll (c : Ctx) (f : SafeSt → SafeSt) (j : Nat) : (c.updSafe f).coll j = c.coll j := rfl
@[simp] theorem updSafe_at_port (c : Ctx) (f : SafeSt → SafeSt) (j : Nat) : (c.updSafe f).port j = c.port j := rfl
@[simp] theorem updPins_at_unit (c : Ctx) (f : Pins → Pins) (j : Nat) : (c.updPins f).unit j = c.unit j := rfl
@[simp] theorem updPins_at_core (c : Ctx) (f : Pins → Pins) (j : Nat) : (c.updPins f).core j = c.core j := rfl
@[simp] theorem updPins_at_cluster (c : Ctx) (f : Pins → Pins) (j : Nat) : (c.updPins f).cluster j = c.cluster j := rfl
@[simp] theorem updPins_at_die (c : Ctx) (f : Pins → Pins) (j : Nat) : (c.updPins f).die j = c.die j := rfl
@[simp] theorem updPins_at_coll (c : Ctx) (f : Pins → Pins) (j : Nat) : (c.updPins f).coll j = c.coll j := rfl
@[simp] theorem updPins_at_port (c : Ctx) (f : Pins → Pins) (j : Nat) : (c.updPins f).port j = c.port j := rfl
@[simp] theorem updStw_at_unit (c : Ctx) (f : StwSt → StwSt) (j : Nat) : (c.updStw f).unit j = c.unit j := rfl
@[simp] theorem updStw_at_core (c : Ctx) (f : StwSt → StwSt) (j : Nat) : (c.updStw f).core j = c.core j := rfl
@[simp] theorem updStw_at_cluster (c : Ctx) (f : StwSt → StwSt) (j : Nat) : (c.updStw f).cluster j = c.cluster j := rfl
@[simp] theorem updStw_at_die (c : Ctx) (f : StwSt → StwSt) (j : Nat) : (c.updStw f).die j = c.die j := rfl
@[simp] theorem updStw_at_coll (c : Ctx) (f : StwSt → StwSt) (j : Nat) : (c.updStw f).coll j = c.coll j := rfl
@[simp] theorem updStw_at_port (c : Ctx) (f : StwSt → StwSt) (j : Nat) : (c.updStw f).port j = c.port j := rfl
@[simp] theorem updCow_at_unit (c : Ctx) (f : CowSt → CowSt) (j : Nat) : (c.updCow f).unit j = c.unit j := rfl
@[simp] theorem updCow_at_core (c : Ctx) (f : CowSt → CowSt) (j : Nat) : (c.updCow f).core j = c.core j := rfl
@[simp] theorem updCow_at_cluster (c : Ctx) (f : CowSt → CowSt) (j : Nat) : (c.updCow f).cluster j = c.cluster j := rfl
@[simp] theorem updCow_at_die (c : Ctx) (f : CowSt → CowSt) (j : Nat) : (c.updCow f).die j = c.die j := rfl
@[simp] theorem updCow_at_coll (c : Ctx) (f : CowSt → CowSt) (j : Nat) : (c.updCow f).coll j = c.coll j := rfl
@[simp] theorem updCow_at_port (c : Ctx) (f : CowSt → CowSt) (j : Nat) : (c.updCow f).port j = c.port j := rfl
@[simp] theorem updTopo_at_unit (c : Ctx) (f : Topology → Topology) (j : Nat) : (c.updTopo f).unit j = c.unit j := rfl
@[simp] theorem updTopo_at_core (c : Ctx) (f : Topology → Topology) (j : Nat) : (c.updTopo f).core j = c.core j := rfl
@[simp] theorem updTopo_at_cluster (c : Ctx) (f : Topology → Topology) (j : Nat) : (c.updTopo f).cluster j = c.cluster j := rfl
@[simp] theorem updTopo_at_die (c : Ctx) (f : Topology → Topology) (j : Nat) : (c.updTopo f).die j = c.die j := rfl
@[simp] theorem updTopo_at_coll (c : Ctx) (f : Topology → Topology) (j : Nat) : (c.updTopo f).coll j = c.coll j := rfl
@[simp] theorem updTopo_at_port (c : Ctx) (f : Topology → Topology) (j : Nat) : (c.updTopo f).port j = c.port j := rfl
@[simp] theorem updRes_at_unit (c : Ctx) (f : ResSt → ResSt) (j : Nat) : (c.updRes f).unit j = c.unit j := rfl
@[simp] theorem updRes_at_core (c : Ctx) (f : ResSt → ResSt) (j : Nat) : (c.updRes f).core j = c.core j := rfl
@[simp] theorem updRes_at_cluster (c : Ctx) (f : ResSt → ResSt) (j : Nat) : (c.updRes f).cluster j = c.cluster j := rfl
@[simp] theorem updRes_at_die (c : Ctx) (f : ResSt → ResSt) (j : Nat) : (c.updRes f).die j = c.die j := rfl
@[simp] theorem updRes_at_coll (c : Ctx) (f : ResSt → ResSt) (j : Nat) : (c.updRes f).coll j = c.coll j := rfl
@[simp] theorem updRes_at_port (c : Ctx) (f : ResSt → ResSt) (j : Nat) : (c.updRes f).port j = c.port j := rfl
@[simp] theorem updSrv_at_unit (c : Ctx) (f : SrvSt → SrvSt) (j : Nat) : (c.updSrv f).unit j = c.unit j := rfl
@[simp] theorem updSrv_at_core (c : Ctx) (f : SrvSt → SrvSt) (j : Nat) : (c.updSrv f).core j = c.core j := rfl
@[simp] theorem updSrv_at_cluster (c : Ctx) (f : SrvSt → SrvSt) (j : Nat) : (c.updSrv f).cluster j = c.cluster j := rfl
@[simp] theorem updSrv_at_die (c : Ctx) (f : SrvSt → SrvSt) (j : Nat) : (c.updSrv f).die j = c.die j := rfl
@[simp] theorem updSrv_at_coll (c : Ctx) (f : SrvSt → SrvSt) (j : Nat) : (c.updSrv f).coll j = c.coll j := rfl
@[simp] theorem updSrv_at_port (c : Ctx) (f : SrvSt → SrvSt) (j : Nat) : (c.updSrv f).port j = c.port j := rfl
@[simp] theorem setUnit_at_core (c : Ctx) (k : Nat) (x : UnitSt) (j : Nat) : (c.setUnit k x).core j = c.core j := rfl
@[simp] theorem setUnit_at_cluster (c : Ctx) (k : Nat) (x : UnitSt) (j : Nat) : (c.setUnit k x).cluster j = c.cluster j := rfl
@[simp] theorem setUnit_at_die (c : Ctx) (k : Nat) (x : UnitSt) (j : Nat) : (c.setUnit k x).die j = c.die j := rfl
@[simp] theorem setUnit_at_coll (c : Ctx) (k : Nat) (x : UnitSt) (j : Nat) : (c.setUnit k x).coll j = c.coll j := rfl
@[simp] theorem setUnit_at_port (c : Ctx) (k : Nat) (x : UnitSt) (j : Nat) : (c.setUnit k x).port j = c.port j := rfl
@[simp] theorem updPair_at_unit (c : Ctx) (k : Nat) (f : QPair → QPair) (j : Nat) : (c.updPair k f).unit j = c.unit j := rfl
@[simp] theorem updPair_at_core (c : Ctx) (k : Nat) (f : QPair → QPair) (j : Nat) : (c.updPair k f).core j = c.core j := rfl
@[simp] theorem updPair_at_cluster (c : Ctx) (k : Nat) (f : QPair → QPair) (j : Nat) : (c.updPair k f).cluster j = c.cluster j := rfl
@[simp] theorem updPair_at_die (c : Ctx) (k : Nat) (f : QPair → QPair) (j : Nat) : (c.updPair k f).die j = c.die j := rfl
@[simp] theorem updPair_at_coll (c : Ctx) (k : Nat) (f : QPair → QPair) (j : Nat) : (c.updPair k f).coll j = c.coll j := rfl
@[simp] theorem updPair_at_port (c : Ctx) (k : Nat) (f : QPair → QPair) (j : Nat) : (c.updPair k f).port j = c.port j := rfl
@[simp] theorem send_at_unit (c : Ctx) (m : Msg) (j : Nat) : (c.send m).unit j = c.unit j := rfl
@[simp] theorem send_at_core (c : Ctx) (m : Msg) (j : Nat) : (c.send m).core j = c.core j := rfl
@[simp] theorem send_at_cluster (c : Ctx) (m : Msg) (j : Nat) : (c.send m).cluster j = c.cluster j := rfl
@[simp] theorem send_at_die (c : Ctx) (m : Msg) (j : Nat) : (c.send m).die j = c.die j := rfl
@[simp] theorem send_at_coll (c : Ctx) (m : Msg) (j : Nat) : (c.send m).coll j = c.coll j := rfl
@[simp] theorem send_at_port (c : Ctx) (m : Msg) (j : Nat) : (c.send m).port j = c.port j := rfl
@[simp] theorem answer_at_unit (c : Ctx) (k : Nat) (a : Answer) (j : Nat) : (c.answer k a).unit j = c.unit j := rfl
@[simp] theorem answer_at_core (c : Ctx) (k : Nat) (a : Answer) (j : Nat) : (c.answer k a).core j = c.core j := rfl
@[simp] theorem answer_at_cluster (c : Ctx) (k : Nat) (a : Answer) (j : Nat) : (c.answer k a).cluster j = c.cluster j := rfl
@[simp] theorem answer_at_die (c : Ctx) (k : Nat) (a : Answer) (j : Nat) : (c.answer k a).die j = c.die j := rfl
@[simp] theorem answer_at_coll (c : Ctx) (k : Nat) (a : Answer) (j : Nat) : (c.answer k a).coll j = c.coll j := rfl
@[simp] theorem answer_at_port (c : Ctx) (k : Nat) (a : Answer) (j : Nat) : (c.answer k a).port j = c.port j := rfl

/-! ### The state after a command, part by part -/

@[simp] theorem State.run_at_unit (s : State) (f : Ctx → Ctx) (j : Nat) : (s.run f).ctx.unit j = (f s.ctx).unit j := rfl
@[simp] theorem State.run_at_core (s : State) (f : Ctx → Ctx) (j : Nat) : (s.run f).ctx.core j = (f s.ctx).core j := rfl
@[simp] theorem State.run_at_cluster (s : State) (f : Ctx → Ctx) (j : Nat) : (s.run f).ctx.cluster j = (f s.ctx).cluster j := rfl
@[simp] theorem State.run_at_die (s : State) (f : Ctx → Ctx) (j : Nat) : (s.run f).ctx.die j = (f s.ctx).die j := rfl
@[simp] theorem State.run_at_coll (s : State) (f : Ctx → Ctx) (j : Nat) : (s.run f).ctx.coll j = (f s.ctx).coll j := rfl
@[simp] theorem State.run_at_port (s : State) (f : Ctx → Ctx) (j : Nat) : (s.run f).ctx.port j = (f s.ctx).port j := rfl
@[simp] theorem State.run_at_pair (s : State) (f : Ctx → Ctx) (j : Nat) : (s.run f).ctx.pair j = (f s.ctx).pair j := rfl

/-! ### A control core's registers -/

/-- x0 reads zero (R210). -/
@[simp] theorem reg_zero (k : CoreSt) : k.reg 0 = 0 := rfl
/-- A write to x0 changes nothing. -/
@[simp] theorem setReg_zero (k : CoreSt) (v : Word64) : k.setReg 0 v = k := rfl
@[simp] theorem setReg_pc (k : CoreSt) (r : Nat) (v : Word64) : (k.setReg r v).pc = k.pc := by
  unfold CoreSt.setReg; split <;> rfl
/-- A register holds what was written to it. -/
theorem reg_setReg_same (k : CoreSt) {r : Nat} (v : Word64) (h : r ≠ 0) : (k.setReg r v).reg r = v := by
  simp [CoreSt.reg, CoreSt.setReg, h]
/-- The other registers keep their values. -/
theorem reg_setReg_other (k : CoreSt) {r q : Nat} (v : Word64) (h : q ≠ r) : (k.setReg r v).reg q = k.reg q := by
  unfold CoreSt.reg CoreSt.setReg
  split
  · rfl
  · split <;> simp [h]

end Sys2Proof.Machine
end

