-- ==== Sys2Proof/Laws/Step.lean ====
section
/-!
SUPPORT. Once and for all what a command and a step can do: every command performs its meaning, and a step runs the front command or
lets a CLK_SLOW cycle pass.
-/
namespace Sys2Proof.Machine

/-- Every command performs a meaning of its own. -/
theorem exec_performs (i : Instr) (s : State) : ∃ f : Ctx → Ctx, exec i s = perform i s f := by
  cases i <;> exact ⟨_, rfl⟩

/-- A next state of a command is a run of its meaning. -/
theorem exec_next {i : Instr} {s t : State} (h : exec i s = .next t) : i.wf = true ∧ ∃ f : Ctx → Ctx, t = s.run f := by
  obtain ⟨f, hf⟩ := exec_performs i s
  rw [hf] at h
  exact ⟨(perform_next h).1, f, (perform_next h).2⟩

/-- A well-formed command completes in the state its meaning makes. -/
theorem Completes.of_run {i : Instr} {s : State} {P : State → Prop} (f : Ctx → Ctx) (hw : i.wf = true)
    (he : exec i s = perform i s f) (h : P (s.run f)) : Completes i s P :=
  ⟨_, he.trans (perform_wf s f hw), h⟩

/-- Everything a step can answer. -/
theorem step_cases {s : State} {o : Host.Outcome State Fault Refusal} (h : step s = o) :
    (s.pending = [] ∧ o = .next (tick s)) ∨ (∃ c rest, s.pending = c :: rest ∧ o = exec c { s with pending := rest }) := by
  unfold step at h
  split at h
  · next hp => exact .inl ⟨hp, h.symm⟩
  · next c rest hp => exact .inr ⟨c, rest, hp, h.symm⟩

@[simp] theorem tick_mem (s : State) : (tick s).mem = s.mem := rfl
@[simp] theorem tick_pending (s : State) : (tick s).pending = s.pending := rfl

end Sys2Proof.Machine
end

