-- ==== Sys2Proof/Laws/Ops.lean ====
section
/-!
SUPPORT. What the shared operations can do, once each: the lengths of byte lists and digests, a read and a write of memory without errors, the start and the end of a command of
a queue, a core's exception, a draw of a free value, an event of the record.
-/
namespace Sys2Proof.Machine

/-! ### Bytes and digests -/

@[simp] theorem length_toBytes (n x : Nat) : (toBytes n x).length = n := by simp [toBytes]
@[simp] theorem length_toBytesBE (n x : Nat) : (toBytesBE n x).length = n := by simp [toBytesBE]

/-- The rounds keep four values of each sequence. -/
theorem length_shaRounds (l p q : List Word64) (hp : p.length = 4) (hq : q.length = 4) :
    (l.foldl shaRound (p, q)).1.length = 4 ∧ (l.foldl shaRound (p, q)).2.length = 4 := by
  induction l generalizing p q with
  | nil => exact ⟨hp, hq⟩
  | cons w l ih => exact ih _ _ (by simp [hp]) (by simp [hq])

/-- A block keeps eight words. -/
theorem length_shaBlock (h : List Word64) (b : List Byte) (hl : h.length = 8) : (shaBlock h b).length = 8 := by
  have := length_shaRounds (List.zipWith (· + ·) (shaSchedule 64 (unpackWords 16 (ofBytesBE b)).reverse).reverse shaK) (h.take 4) (h.drop 4)
    (by simp [hl]) (by simp [hl])
  simp only [shaBlock, List.length_zipWith, List.length_append, hl, this.1, this.2]
  rfl

theorem length_shaBlocks (n : Nat) (h : List Word64) (m : List Byte) (hl : h.length = 8) : (shaBlocks n h m).length = 8 := by
  induction n generalizing h m with
  | zero => simpa [shaBlocks] using hl
  | succ n ih =>
    rw [shaBlocks]
    split
    · exact hl
    · exact ih _ _ (length_shaBlock _ _ hl)

/-- A digest has 48 bytes. -/
theorem length_sha384 (m : List Byte) : (sha384 m).length = 48 := by
  have h6 (n : Nat) (p : List Byte) : ((shaBlocks n shaH0 p).take 6).length = 6 := by simp [length_shaBlocks _ shaH0 _ rfl]
  have : ∀ l : List Word64, (l.flatMap (fun w => toBytesBE 8 w.toNat)).length = 8 * l.length := by
    intro l
    induction l with
    | nil => rfl
    | cons w l ih => simp [List.flatMap_cons, ih]; omega
  simp only [sha384]
  rw [this, h6]

/-! ### Memory without errors -/

/-- A context none of whose codewords is poisoned or holds errors. -/
def Ctx.Clean (c : Ctx) : Prop := c.dev.poison = [] ∧ c.dev.errs = []

theorem State.clean_ctx {s : State} (h : Machine.Clean s) : s.ctx.Clean := h

/-- A read finds no error to correct. -/
theorem eccRead_clean {c : Ctx} (a n : Nat) (h : c.Clean) : eccRead a n c = c := by simp [eccRead, h.2]

/-- No read is poisoned. -/
theorem poisonAt_clean {c : Ctx} (a n : Nat) (h : c.Clean) : poisonAt c a n = false := by simp [poisonAt, h.1]

/-- A store is a plain write. -/
theorem store_clean {c : Ctx} (a : Nat) (l : List Byte) (h : c.Clean) : store a l c = c.write a l := by simp [store, h.1, h.2]

/-- A write leaves memory so. -/
theorem Ctx.clean_write {c : Ctx} (a : Nat) (l : List Byte) (h : c.Clean) : (c.write a l).Clean := by simpa [Ctx.Clean] using h

/-- The bytes a command leaves are those of its context, where it leaves the memory it read from alone. -/
theorem State.bytes_run (s : State) (f : Ctx → Ctx) (a n : Nat) (h : (f s.ctx).mem = s.mem) :
    (s.run f).bytes a n = (f s.ctx).read a n := by
  simp only [State.bytes, Ctx.read, State.byte_run' s f _ h]

/-- A command whose meaning ends in context `c`. -/
theorem Becomes.of_eq {s : State} {f : Ctx → Ctx} {c : Ctx} (h : f s.ctx = c) : Becomes s c (s.run f) := by subst h; exact ⟨rfl, rfl⟩

/-- A command whose meaning writes what context `c` has written. -/
theorem Wrote.of_log {s : State} {f : Ctx → Ctx} {c : Ctx} (h : (f s.ctx).log = c.log) : Wrote s c (s.run f) := by
  unfold Wrote; rw [← h]; rfl

/-! ### Queues -/

/-- A command that may start is the queue's first unstarted one, of an engine that runs. -/
theorem startable_some {c : Ctx} {u q op i : Nat} {e : Entry} (h : startable c u q op = some (i, e)) :
    ((c.unit u).queue q).entries[i]? = some e ∧ queueLive c u q = true ∧ ((c.unit u).queue q).halted = false ∧
      startsAs q op (hOpcode e.desc) = true := by
  unfold startable at h
  dsimp only at h
  split at h
  · cases h
  · next e' he =>
    split at h
    · next hc =>
      simp only [Option.some.injEq, Prod.mk.injEq] at h
      obtain ⟨rfl, rfl⟩ := h
      simp only [Bool.and_eq_true, Bool.not_eq_true'] at hc
      exact ⟨he, hc.1.1.1.1.1, hc.1.1.1.1.2, hc.1.1.1.2⟩
    · cases h

/-- A command under way stands in its queue, has the opcode asked for and satisfies the condition. -/
theorem findActive_some {c : Ctx} {u q op i : Nat} {p : Entry → Bool} {e : Entry} (h : findActive c u q op p = some (i, e)) :
    ((c.unit u).queue q).entries[i]? = some e ∧ e.active = true ∧ hOpcode e.desc = op ∧ p e = true := by
  unfold findActive at h
  dsimp only at h
  split at h
  · cases h
  · next j hj =>
    split at h
    · next e' he =>
      simp only [Option.some.injEq, Prod.mk.injEq] at h
      obtain ⟨rfl, rfl⟩ := h
      refine ⟨he, ?_⟩
      have hs := (List.findIdx?_eq_some_iff_getElem.mp hj)
      obtain ⟨hlt, hp, -⟩ := hs
      have : ((c.unit u).queue q).entries[j] = e' := by
        rw [List.getElem?_eq_getElem hlt] at he; exact Option.some.inj he
      rw [this] at hp
      simpa [and_assoc] using hp
    · cases h

/-- A command that ends with status 0 waits for its record where one is due, else leaves with its signal. -/
theorem finish_zero {c : Ctx} {u q i : Nat} (detail : Nat) {e : Entry} (h : ((c.unit u).queue q).entries[i]? = some e) :
    finish u q i 0 detail c =
      if recordDue c u e then c.updEntry u q i (fun x => { x with started := true, ended := some (0, detail) })
      else signalOf u e (c.dropEntry u q i) := by
  simp [finish, h, halts]

/-- A queue read after it is set. -/
theorem queue_setQueue (x : UnitSt) (q : Nat) (y : Queue) : (x.setQueue q y).queue q = y := by
  match q with
  | 0 => rfl
  | 1 => rfl
  | _ + 2 => rfl

/-- A queue set twice. -/
theorem setQueue_setQueue (x : UnitSt) (q : Nat) (y z : Queue) : (x.setQueue q y).setQueue q z = x.setQueue q z := by
  match q with
  | 0 => rfl
  | 1 => rfl
  | _ + 2 => rfl

end Sys2Proof.Machine
end

