-- ==== Sys2Proof/Tests/Slice0.lean ====
section
/-!
SUPPORT. The model's own tests: ill-formed commands are refused, small examples of single commands, and for every statement with hypotheses
a concrete state and operands that meet them.
-/
namespace Sys2Proof.Machine

set_option Elab.async false

/-- A state of given devices with empty memory and queue. -/
def tState (d : Dev) : State := { mem := [], dev := d, pending := [] }

/-- A descriptor of fields at bit offsets. -/
def tDesc (l : List (Nat × Nat)) : Desc := BitVec.ofNat 512 ((l.map (fun p => p.2 * 2 ^ p.1)).sum)

/-- A released job of a kind. -/
def tJob (kind : Nat) : JobSt := { running := true, released := true, kind := kind }

/-- Core `n` runs, with register values. -/
def tCore (n : Nat) (regs : Tab Word64) : Dev := { job := tJob 0, cores := [(n, { load := .loaded, regs := regs })] }

/-! ### Well-formedness: each check refuses an ill-formed term -/

theorem test_wf_core : Instr.wf (.uqPush 2048 0 0 0) = false ∧ Instr.wf (.uqPush 2047 31 31 31) = true := by decide
theorem test_wf_register : Instr.wf (.uqPush 0 32 0 0) = false ∧ Instr.wf (.uqEvt 0 0 32) = false := by decide
theorem test_wf_access : Instr.wf (.controlCoreAccess 0 .load 0 8 0 0 false) = false ∧ Instr.wf (.controlCoreAccess 0 .load (2 ^ 32) 4 0 0 false) = false := by
  decide
theorem test_wf_unit : Instr.wf (.meLoad 512) = false ∧ Instr.wf (.ringRowConsume 0 4) = false ∧ Instr.wf (.completionRecordWrite 0 3) = false := by decide
theorem test_wf_cluster : Instr.wf (.dmaChunk 64) = false := by decide
theorem test_wf_remote : Instr.wf (.remoteAccessRequest 36 0 0 0 false [] false) = false ∧
    Instr.wf (.remoteAccessRequest 0 0 0 2 true [1] false) = false := by decide
theorem test_wf_channel : Instr.wf (.lpPatrolScrub 128) = false ∧ Instr.wf (.furReduce 4 1) = false ∧ Instr.wf (.furReduce 0 0) = false ∧
    Instr.wf (.furReduce 3 4) = true := by decide
theorem test_wf_write : Instr.wf (.cowFirstWrite 0 []) = false ∧ Instr.wf (.cowFirstWrite (2 ^ 48) [1]) = false := by decide
theorem test_wf_source : Instr.wf (.submit (.pair 8) 0) = false ∧ Instr.wf (.submit (.frontEnd (2 ^ 18)) 0) = false := by decide
theorem test_wf_port : Instr.wf (.flitSend 36 []) = false ∧ Instr.wf (.rateProposal 0 3 0) = false ∧ Instr.wf (.equalisationComplete 0 16 0 0) = false := by
  decide
theorem test_wf_fault : Instr.wf (.faultEvent { coll := 0, source := 48, causes := [{ cause := 0, unit := 0, ident := 0 }] }) = false ∧
    Instr.wf (.faultEvent { coll := 0, source := 0, causes := [] }) = false ∧
    Instr.wf (.faultEvent { coll := 0, source := 20, causes := [{ cause := 3, unit := 0, ident := 0 }] }) = false := by decide
theorem test_wf_die : Instr.wf (.thermalTrip 5) = false ∧ Instr.wf (.supplyWindow 7) = false ∧ Instr.wf (.clkUreset 4 0) = false := by decide
theorem test_wf_straps : Instr.wf (.bootRom [0] 0 0) = false ∧ Instr.wf (.bootRom [1981, 0, 0, 0, 0, 0, 0, 0] 0 0) = false := by decide
theorem test_wf_training : Instr.wf (.rootPllLock [] [(0, 0), (0, 0), (0, 0), (0, 0)]) = false ∧ Instr.wf (.lpddr5xTraining [] []) = false := by decide
theorem test_wf_master : Instr.wf (.stwQptrTail (.vf 0) 0 0) = false ∧ Instr.wf (.stwQptrTail .pf 8 0) = false ∧ Instr.wf (.secAttestStart (.app 24) 0) = false := by
  decide
theorem test_wf_pcie : Instr.wf (.pcieAccess 9 0 0 4 false 0) = false ∧ Instr.wf (.pcieAccess 0 1 0 4 false 0) = false ∧
    Instr.wf (.pcieAccess 0 0 0 3 false 0) = false ∧ Instr.wf (.sriovDisable (some 0)) = false := by decide
theorem test_wf_steward : Instr.wf (.stewardCoreAccess 2069 .load 0 4 0 0 false) = false ∧ Instr.wf (.mgmtCoreAccess 2070 .load 0 4 0 0 false) = false := by
  decide
theorem test_wf_refused : exec (.meLoad 512) (tState {}) = .refused .illFormed := rfl

/-! ### The queue -/

/-- A step takes the front command (a store by core 0 of one byte to its data RAM) and leaves the rest. -/
theorem test_step_front :
    ∃ t, step { tState (tCore 0 []) with pending := [.controlCoreAccess 0 .store 0x10000 1 7 0 false, .bypass] } = .next t ∧
      t.pending = [.bypass] ∧ t.mem = [(2 ^ 48 + 0x10000, 7)] := ⟨_, rfl, by decide +kernel⟩
/-- An empty queue idles for one CLK_SLOW cycle. -/
theorem test_step_idle : step State.reset = .next { State.reset with dev := { slow := 1 } } := rfl
theorem test_inv_reset : Inv State.reset := ⟨List.Pairwise.nil, by simp [State.reset]⟩
theorem wit_idle : (tState {}).pending = [] := rfl
theorem wit_wf : Instr.wf .bypass = true ∧ Instr.wf (.meLoad 512) = false := by decide
theorem wit_run : Host.Core.run Sys2Proof.core 1 { tState {} with pending := [.bypass] } = .next (tState {}) := rfl

/-! ### Control cores -/

/-- Where each statement about the cores has its hypotheses met: a push with the queue empty, with it full, and a waiting push. -/
theorem wit_pushes :
    (let s := tState (tCore 0 [(5, 0x17FC0), (6, 2)])
     PushReady s 0 5 6 ∧ ((s.ctx.unit 0).queue 2).entries.length < 64 ∧ lowerWaits s.ctx 0 2 = false ∧ mayContend s.ctx 0 2 = false) ∧
    (let s := tState { tCore 1 [(5, 0x17FC0), (6, 2)] with units := [(0, { dma := { lastCore := some 0 } })] }
     PushReady s 1 5 6 ∧ ((s.ctx.unit 0).queue 2).entries.length < 64 ∧ lowerWaits s.ctx 1 2 = false ∧ mayContend s.ctx 1 2 = true) ∧
    (let s := tState { job := tJob 0, cores := [(0, { load := .loaded, stall := .push 2 7 3 }), (1, { load := .loaded, regs := [(5, 0x17FC0), (6, 2)] })] }
     PushReady s 1 5 6 ∧ ((s.ctx.unit 0).queue 2).entries.length < 64 ∧ lowerWaits s.ctx 1 2 = true) ∧
    (let s := tState { tCore 2047 [(5, 0x10000)] with units := [(511, { me := { entries := List.replicate 64 { core := 2044, desc := 0 } } })] }
     PushReady s 2047 5 6 ∧ 64 ≤ ((s.ctx.unit 511).queue 0).entries.length) ∧
    (let s := tState { job := tJob 0, cores := [(1, { load := .loaded, stall := .push 1 7 3 })] }
     (s.ctx.core 1).stall = .push 1 7 3 ∧ (s.ctx.core 1).halted = false ∧ (s.ctx.core 1).frozen = false ∧ s.ctx.dieStopped 0 = false ∧
     pushRefused s.ctx 0 = false ∧ ((s.ctx.unit 0).queue 1).entries.length < 64 ∧ ∀ i, i < 1 % 4 → (s.ctx.core (4 * 0 + i)).stall = .no) := by
  unfold PushReady; decide +kernel
/-- A push of opcode 20H with slot S0 from register x7 takes the register's value. -/
theorem test_push_slot : slotRegs { regs := [(7, 0xAABBCCDD)] } 1 (0x20 + 2 ^ 112 + 7 * 2 ^ 448) = 0x20 + 2 ^ 112 + 0xAABBCCDD * 2 ^ 448 := by decide +kernel
theorem wit_events :
    (let s := tState (tCore 0 [(5, 15), (6, 3)])
     s.ctx.coreRuns 0 = true ∧ (s.ctx.core 0).reg32 6 ≠ 0 ∧ (s.ctx.core 0).reg32 0 % 4 ≠ 3) ∧
    (let s := tState { cores := [(0, { stall := .wait 3 2 9 })], units := [(0, { evts := [(3, { count := 2 })] })] }
     (s.ctx.core 0).stall = .wait 3 2 9 ∧ (s.ctx.core 0).halted = false ∧ (s.ctx.core 0).frozen = false ∧ s.ctx.dieStopped (dieOfCore 0) = false ∧
     2 ≤ evtWord s.ctx 0 3) := by decide +kernel
/-- A signal beyond the top sticks there and sets bit 31 (R216). -/
theorem test_sig_sticks :
    let t := (tState { tCore 0 [(6, 2)] with units := [(0, { evts := [(0, { count := 0x7FFFFFFE })] })] }).run (uqSigOp 0 5 6)
    evtWord t.ctx 0 0 = 0xFFFFFFFF ∧ (t.ctx.core 0).pc = 4 := by decide +kernel
/-- UQ.WAIT on a counter below its value stalls the core, its pc where it was. -/
theorem test_wait_stalls :
    let t := (tState (tCore 0 [(6, 2)])).run (uqWaitOp 0 1 5 6)
    (t.ctx.core 0).stall = .wait 0 2 1 ∧ (t.ctx.core 0).pc = 0 := by decide +kernel
/-- UQ.QSTAT answers 64 on an empty queue. -/
theorem test_qstat : (((tState (tCore 0 [])).run (uqQstatOp 0 1 0)).ctx.core 0).reg 1 = 64 := by decide +kernel
theorem wit_illegal :
    (let s := tState (tCore 0 [(5, 3)])
     s.ctx.coreRuns 0 = true ∧ (∀ w ∈ [0x600B, 0x0200100B], bits w 0 7 = 0x0B ∧ ¬ (bits w 25 7 = 0 ∧ bits w 12 3 ≤ 5) ∧ ¬ (bits w 25 7 = 1 ∧ bits w 12 3 = 0)) ∧
      (s.ctx.core 0).reg32 5 % 4 = 3) := by decide +kernel
/-- The words of Table 05-8: UQ.PUSH x1, x2, x3 and UQ.PUSHNB; FUNCT3 6 in custom-0 is illegal. -/
theorem test_uq_words : uqWord 0 0 1 2 3 = 0x0031008B ∧ uqWord 1 0 1 2 3 = 0x0231008B ∧ isUq 0x0031008B = true ∧ isUq 0x0231008B = true ∧
    isUq 0x0031608B = false := by decide +kernel
theorem wit_access :
    (let s := tState (tCore 0 [])
     s.ctx.coreRuns 0 = true ∧ (4 : Nat) ∈ [1, 2, 4] ∧ 0xFFFC % 4 = 0 ∧ 0xFFFC < 0x10000 ∧ 0x10000 ≤ 0x17FFC ∧ 0x17FFC < 0x18000 ∧ 0x17FFC % 4 = 0) := by
  decide +kernel
/-- A signed byte load of 80H extends its sign to the core's 32 bits. -/
theorem test_load_signed :
    let s : State := { tState (tCore 0 []) with mem := [(2 ^ 48 + 0x10001, 0x80)] }
    ((s.run (controlCoreAccessOp 0 .load 0x10001 1 0 4 true)).ctx.core 0).reg 4 = 0xFFFFFF80 := by decide +kernel
/-- A store outside the map is a protection violation that freezes the core (R211, R500). -/
theorem test_access_violates :
    let t := (tState (tCore 0 [])).run (controlCoreAccessOp 0 .store 0x18000 4 0 0 false)
    (t.ctx.core 0).frozen = true ∧ t.dev.job.endCode = 0x14 ∧ (t.ctx.coll 0).pvValid = true := by decide +kernel
theorem wit_stash :
    (let s := tState { tCore 0 [] with units := [(0, { region := { stashSize := 1 }, stash := { spillSize := 1 } })] }
     let h := (s.ctx.unit 0).stash
     s.ctx.coreRuns 0 = true ∧ h.frames.length ≠ 1024 ∧ (h.spillTop = 0 ∧ h.unitTop + 16 ≤ 16 * (s.ctx.unit 0).region.stashSize)) ∧
    (let s := tState { tCore 0 [] with units := [(0, { region := { stashSize := 1 }, stash := { unitTop := 16, spillSize := 1, frames := [(0, 16)] } })] }
     let h := (s.ctx.unit 0).stash
     ¬ (h.spillTop = 0 ∧ h.unitTop + 16 ≤ 16 * (s.ctx.unit 0).region.stashSize) ∧ h.spillTop + 16 ≤ 16 * h.spillSize ∧
     16 * h.spillSize < h.spillTop + 17 ∧ h.frames = (0, 16) :: [] ∧ s.dev.boot.armed = false) ∧
    (tState (tCore 0 [])).ctx.coreRuns 0 = true ∧ ((tState (tCore 0 [])).ctx.unit 0).stash.frames = [] ∧ 0x100000 % 2 ^ 20 = 0 := by decide +kernel
/-- A claim of 3 pages, then one of 2, grant offsets 0 and 3 (R304). -/
theorem test_stash_claims :
    let s := tState { tCore 0 [] with units := [(0, { region := { stashSize := 1 } })] }
    let t := (s.run (umStashClaimOp 0 3)).run (umStashClaimOp 0 2)
    (t.ctx.unit 0).stash.frames = [(0, 2), (0, 3)] ∧ Tab.get (9, 9) (t.ctx.unit 0).stash.grants 0 = (0, 3) := by decide +kernel

/-! ### Matrix engine -/

/-- A BF16 load of one element with a signal on counter 3, a one-row stream to tile register 0, a one-element drain. -/
def tLoad : Desc := tDesc [(0, 0x10), (9, 1), (32, 3), (64, umBase 0), (128, 4), (160, 1), (168, 1), (176, 1)]
def tStream : Desc := tDesc [(0, 0x11), (64, umBase 0), (128, 4), (160, 1), (184, 1)]
def tRingStream : Desc := tDesc [(0, 0x11), (64, umBase 0), (128, 4), (160, 1), (184, 1), (192, 1), (224, 1)]
def tDrain (release : Nat) : Desc := tDesc [(0, 0x12), (64, umBase 0 + 64), (128, 4), (164, release), (192, 1), (208, 1)]
def tTile : Tile := { mode := 0, fmt := 1, rows := 1, cols := 1, elems := [[0x4000]] }
/-- Unit 0 with these commands in its ME queue and a tile. -/
def tMe (l : List Entry) : State :=
  { mem := [(umBase 0, 0x40), (umBase 0 + 1, 0x40)]
    dev := { units := [(0, { me := { entries := l }, width := 128, tile := some tTile })] }, pending := [] }
def tE (d : Desc) : Entry := { core := 0, desc := d }

theorem wit_me_load :
    (let s := tMe [tE tLoad]
     startable s.ctx 0 0 0x10 = some (0, tE tLoad) ∧ hOpcode tLoad = 0x10 ∧ arrayBusy s.ctx 0 = false ∧ loadOk tLoad = true ∧
     lCols tLoad ≤ (s.ctx.unit 0).width ∧ (∀ p ∈ loadRecords tLoad, ownUm s.ctx 0 p.1 p.2 false = true) ∧
     (lFromTr tLoad && streamTo (s.ctx.unit 0).me 0 (lTr tLoad)) = false ∧ Clean s) ∧
    (let e := { tE tLoad with started := true, tile := some tTile }
     let s := tMe [e]
     findActive s.ctx 0 0 0x10 (fun _ => true) = some (0, e) ∧ unitLive s.ctx 0 = true ∧ e.poison = false ∧ hSig tLoad = true ∧
     recordDue s.ctx 0 e = false) := by unfold Clean; decide +kernel
/-- The load reads its element; once complete it signals its counter and leaves the queue (R138, R146). -/
theorem test_me_load : loadTile (tMe [tE tLoad]).ctx 0 tLoad = { tTile with elems := [[0x4040]] } ∧
    (let t := (tMe [{ tE tLoad with started := true, tile := some tTile }]).run (meLoadCompleteOp 0)
     evtWord t.ctx 0 3 = 1 ∧ (t.ctx.unit 0).me.entries = []) := by decide +kernel
theorem wit_me_stream :
    (let s := tMe [tE tStream]
     startable s.ctx 0 0 0x11 = some (0, tE tStream) ∧ arrayBusy s.ctx 0 = false ∧ streamOk tStream = true ∧ (s.ctx.unit 0).tile = some tTile ∧
     pairs tTile tStream = true ∧ streamWindow s.ctx 0 tTile tStream = none ∧ drainOf (s.ctx.unit 0).me 0 (sTr tStream) = false ∧ sDest tStream = 0) ∧
    (let s := tMe [tE tRingStream]
     startable s.ctx 0 0 0x11 = some (0, tE tRingStream) ∧ arrayBusy s.ctx 0 = false ∧ streamOk tRingStream = true ∧
     pairs tTile tRingStream = true ∧ streamWindow s.ctx 0 tTile tRingStream = none ∧ drainOf (s.ctx.unit 0).me 0 (sTr tRingStream) = false ∧
     sDest tRingStream = 1) := by decide +kernel
/-- The one row of `tStream` in the feeder queues, its only element 3.0 in BF16. -/
def tFed (d : Desc) : Entry := { tE d with started := true, tile := some tTile, feed := [{ n := 0, codes := [0x4040], scales := [] }], fetchNext := some 1 }
theorem wit_me_row :
    (let s := tMe [tFed tStream]
     findActive s.ctx 0 0 0x11 (fun e => decide (e.pos < sN e.desc)) = some (0, tFed tStream) ∧ (s.ctx.unit 0).tile = some tTile ∧
     unitLive s.ctx 0 = true ∧ govHolds s.ctx 0 = false ∧ Clean s ∧ sDest tStream = 0) ∧
    (let s := tMe [tFed tRingStream]
     findActive s.ctx 0 0 0x11 (fun e => decide (e.pos < sN e.desc)) = some (0, tFed tRingStream) ∧ sDest tRingStream = 1 ∧
     (tFed tRingStream).pos < (Tab.get {} (s.ctx.unit 0).rings 0).len + (Tab.get {} (s.ctx.unit 0).rings 0).released) := by
  unfold Clean; decide +kernel
theorem wit_me_fetch :
    let e := { tE tStream with started := true, tile := some tTile, fetchNext := some 0 }
    let s := tMe [e]
    findActive s.ctx 0 0 0x11 (fun e => decide (e.pos < sN e.desc)) = some (0, e) ∧ unitLive s.ctx 0 = true ∧ govHolds s.ctx 0 = false ∧
    Clean s ∧ 0 < sN tStream ∧ feedTarget s.ctx 0 = some (0, tTile) ∧ feedCount s.ctx 0 < 32 := by unfold Clean; decide +kernel
/-- A stream whose only row has left the array with the sum 6. -/
def tOut (d : Desc) : Entry := { tE d with started := true, pos := 1, flight := [{ n := 0, sums := [.fin false 6 0] }] }
theorem wit_me_output :
    (let s := tMe [tOut tStream]
     findActive s.ctx 0 0 0x11 (fun e => !e.flight.isEmpty) = some (0, tOut tStream) ∧ unitLive s.ctx 0 = true ∧ Clean s ∧ sDest tStream = 0) ∧
    (let s := tMe [tOut tRingStream]
     findActive s.ctx 0 0 0x11 (fun e => !e.flight.isEmpty) = some (0, tOut tRingStream) ∧ sDest tRingStream = 1) := by unfold Clean; decide +kernel
/-- 3.0 in BF16 streamed against 2.0 gives 6.0 in FP32, 40C00000H, in row 0 of tile register 0 (R111, R119). -/
theorem test_me_stream :
    rowOperands (tMe []).ctx tTile tStream (umBase 0) = ([0x4040], []) ∧
    (let e := { tE tStream with started := true, pos := 1, flight := [{ n := 0, sums := rowSums tTile tStream [0x4040] [] }] }
     ((tMe [e]).run (meOutputRowWriteOp 0)).ctx.readNat (trAddr 0 0 0 0) 4 = 0x40C00000) := by decide +kernel
theorem wit_me_complete :
    (let e := { tE tRingStream with started := true, pos := 1 }
     let s := tMe [e]
     unitLive s.ctx 0 = true ∧ findActive s.ctx 0 0 0x11 (fun e => decide (sN e.desc ≤ e.pos) && e.flight.isEmpty) = some (0, e) ∧ e.poison = false) ∧
    (∀ k, k < 2 → let e := { tE (tDrain k) with started := true, pos := 1, rows := [[1]] }
     let s := tMe [e]
     unitLive s.ctx 0 = true ∧ findActive s.ctx 0 0 0x12 (fun e => decide (dCount e.desc ≤ e.pos)) = some (0, e) ∧ Clean s ∧
     dRelease e.desc = decide (k = 1)) := by unfold Clean; decide +kernel
theorem wit_me_drain :
    ∀ k, k < 2 → let d := tDrain k
      let s := tMe [tE d]
      startable s.ctx 0 0 0x12 = some (0, tE d) ∧ (s.ctx.unit 0).me.entries.any (fun x => x.active && hOpcode x.desc == 0x12) = false ∧
      drainOk d = true ∧ (∀ r, r < drainRecords d → ownUm s.ctx 0 (dDst d + r * dStride d) (drainBytes d) false = true) ∧ Clean s ∧
      dRelease d = decide (k = 1) ∧ streamTo (s.ctx.unit 0).me 0 (dTr d) = false := by unfold Clean; decide +kernel
/-- A drain copies the FP32 element of row 0 to its destination (R143). -/
theorem test_me_drain :
    let s : State := { tMe [tE (tDrain 0)] with mem := [(trAddr 0 0 0 0, 0x78), (trAddr 0 0 0 0 + 3, 0x40)] }
    (s.run (meDrainOp 0)).ctx.readNat (umBase 0 + 64) 4 = 0x40000078 := by decide +kernel

/-- A chain that moves one FP32 element from A to D, from unit memory or from ring 0; a winnow of one row and one token, K = 1. -/
def tChain (ring : Nat) : Desc := tDesc [(0, 0x20), (64, 1), (88, 1), (120, 1), (158, ring), (176, ring), (320, 64)]
def tWinnow (ring finish : Nat) : Desc :=
  tDesc [(0, 0x21), (64, 1), (88, 1), (96, 1), (112, 1), (113, finish), (158, ring), (176, ring), (192, 65536), (224, 65536 + 256), (288, 16),
    (320, 0x3F800000)]
/-- Unit 0 with these commands in its VE queue, a seedbed of one page, and a row written to ring 0. -/
def tVe (l : List Entry) : State :=
  { mem := [(umBase 0, 5)]
    dev := { units := [(0, { ve := { entries := l }, region := { sbBase := 1, sbSize := 1 }, rings := [(0, { written := 1, active := true })] })] }
    pending := [] }
/-- Unit 0 with a RELEASE drain, a ring chain and a ring winnow under way, as `k` selects them, and a row written to ring 0. -/
def tRings (k : Nat) : State := tState { units := [(0, {
  me := { entries := if k.testBit 0 then [{ tE (tDrain 1) with started := true }] else [] }
  ve := { entries := (if k.testBit 1 then [{ tE (tChain 1) with started := true }] else []) ++
    (if k.testBit 2 then [{ tE (tWinnow 1 0) with started := true }] else []) }
  region := { sbBase := 1, sbSize := 1 }, rings := [(0, { written := 1, active := true })] })] }
theorem wit_rings :
    ∀ k, k < 8 → let s := tRings k
      let g := Tab.get {} (s.ctx.unit 0).rings 0
      unitLive s.ctx 0 = true ∧ Clean s ∧ govHolds s.ctx 0 = false ∧
      (findActive s.ctx 0 0 0x12 (fun e => ringReady g 0 (dCount e.desc) e)).map (·.1) = (if k.testBit 0 then some 0 else none) ∧
      (findActive s.ctx 0 1 0x20 (fun e => chainRing e.desc && ringReady g 0 (vRows e.desc) e)).map (·.1) = (if k.testBit 1 then some 0 else none) ∧
      (k.testBit 1 = false → (findActive s.ctx 0 1 0x21 (fun e => ringReady g 0 (wRows e.desc) e)).map (fun p => (p.1, p.2.poison)) =
        (if k.testBit 2 then some (0, false) else none)) := by
  unfold Clean; decide +kernel
/-- The drain takes row 0 of the ring, at its base row, and releases it (R124). -/
theorem test_ring_drain :
    let t := (tRings 1).run (ringTake 0 0 0 0 { tE (tDrain 1) with started := true })
    (Tab.get {} (t.ctx.unit 0).rings 0).released = 1 ∧ ((t.ctx.unit 0).me.entries.map (·.rows)) = [[[0]]] := by decide +kernel
theorem wit_record :
    let e := { tE (tDesc [(0, 0x13), (8, 1), (16, 0xBEEF)]) with started := true, ended := some (0x10, 5) }
    ∀ (full on : Bool), let ring : Cpl := { enable := on, lenLog2 := 7, head := 127, tail := if full then 255 else 0 }
    let s : State := tState { units := [(0, { me := { entries := [e, tE tLoad] }, cpls := [(0, ring)] })] }
    let r : Cpl := Tab.get {} (s.ctx.unit 0).cpls (e.core % 4)
    ((s.ctx.unit 0).queue 0).entries.findIdx? (fun e => e.ended.isSome) = some 0 ∧ ((s.ctx.unit 0).queue 0).entries[0]? = some e ∧
    e.ended = some (0x10, 5) ∧ unitLive s.ctx 0 = true ∧ decide ((r.head + 256 - r.tail) % 256 = 2 ^ r.lenLog2) = full ∧ r.enable = on := by
  decide +kernel
/-- The record of Table 05-9: queue, status, tag, detail. -/
theorem test_record_bytes : recordBytes 2 0x20 0xBEEF 5 = [2, 0x20, 0xEF, 0xBE, 5, 0, 0, 0, 0, 0, 0, 0, 0, 0, 0, 0] := by decide +kernel
/-- Unit 0 with a fence in its queue `q`: one that waits for counter 0 to reach `v`. -/
def tFence (q v : Nat) (started : Bool) : State :=
  let y : Queue := { entries := [{ tE (tDesc [(0, [0x13, 0x22, 0x31].getD q 0), (65, 1), (96, v)]) with started := started }] }
  tState { units := [(0, { me := if q = 0 then y else {}, ve := if q = 1 then y else {}, dma := if q = 2 then y else {} })] }
def tFenceE (q v : Nat) (started : Bool) : Entry := (((tFence q v started).ctx.unit 0).queue q).entries.getD 0 (tE 0)
def tMet (s : State) (i : Nat) (e : Entry) : Bool :=
  (fld e.desc 8 0 1 != 1 || i == 0) && (fld e.desc 8 1 1 != 1 || decide (fld e.desc 12 0 32 ≤ evtWord s.ctx 0 (fld e.desc 9 0 4)))
theorem wit_fences :
    ∀ q, q < 3 → ∀ v, v < 2 → let op := [0x13, 0x22, 0x31].getD q 0
      (startable (tFence q v false).ctx 0 q op = some (0, tFenceE q v false) ∧ fenceOk (tFenceE q v false).desc = true ∧
        tMet (tFence q v false) 0 (tFenceE q v false) = decide (v = 0)) ∧
      (findActive (tFence q v true).ctx 0 q op (fun _ => true) = some (0, tFenceE q v true) ∧ unitLive (tFence q v true).ctx 0 = true ∧
        tMet (tFence q v true) 0 (tFenceE q v true) = decide (v = 0)) := by decide +kernel

/-! ### Vector engine -/

theorem wit_ve_chain :
    (∀ k, k < 2 → let d := tChain k
      let s := tVe [tE d]
      startable s.ctx 0 1 0x20 = some (0, tE d) ∧ govHolds s.ctx 0 = false ∧ chainOk d = true ∧ chainWindow 0 d = none ∧
      chainRing d = decide (k = 1) ∧ Clean s) ∧
    (∀ n, n < 2 → let e := { tE (tChain 0) with started := true, pos := 1, rows := [[5]], lanes := n }
     let s := tVe [e]
     unitLive s.ctx 0 = true ∧ e.poison = false ∧ Clean s ∧ chainOk e.desc = true ∧
     findActive s.ctx 0 1 0x20 (fun e => decide (vRows e.desc ≤ e.pos)) = some (0, e) ∧ govHolds s.ctx 0 = false ∧
     e.rows.length = vRows e.desc ∧ ∀ r ∈ e.rows, r.length = vCols e.desc) := by unfold Clean; decide +kernel
/-- The chain reads the element of A; completing, it writes it to D. -/
theorem test_ve_chain : chainRow (tVe []).ctx 0 (tChain 0) 0 [] = [5] ∧
    ((tVe [{ tE (tChain 0) with started := true, pos := 1, rows := [[5]] }]).run (veChainCompleteOp 0)).byte (umBase 0 + 64) = 5 := by
  decide +kernel
/-- FP32 2 + 3 = 5 and the minimum of two numbers, as Table 05-3 gives them; a shift takes its count modulo the width (R182). -/
theorem test_ve_ops : chainOp1 0 0x01 0x40000000 0x40400000 0 = 0x40A00000 ∧ chainOp1 0 0x05 0x40000000 0x40400000 0 = 0x40000000 ∧
    chainOp1 7 0x18 1 33 0 = 2 := by decide +kernel
theorem wit_ve_winnow :
    ∀ k, k < 2 → let d := tWinnow k 0
      let s := tVe [tE d]
      startable s.ctx 0 1 0x21 = some (0, tE d) ∧ govHolds s.ctx 0 = false ∧ winnowOk s.ctx 0 d = true ∧ isWide 0 = true ∧
      outside (if (wSlot d).kind = 1 then 2 ^ 20 else umSize)
        (if wRows d = 0 then [] else slotRanges (wSlot d) (wRows d) (wCols d)) = none ∧ Clean s ∧ (wSlot d).ring = decide (k = 1) := by
  unfold Clean; decide +kernel
theorem wit_ve_complete :
    (∀ k, k < 2 → let e := { tE (tChain k) with started := true, pos := 1, rows := [[7]], lanes := 5 * k }
     let s := tVe [e]
     unitLive s.ctx 0 = true ∧ e.poison = false ∧ Clean s ∧ chainRing e.desc = decide (k = 1) ∧ govHolds s.ctx 0 = false ∧
     findActive s.ctx 0 1 0x20 (fun e => decide (vRows e.desc ≤ e.pos)) = some (0, e)) ∧
    (∀ k, k < 2 → let e := { tE (tWinnow 0 k) with started := true, pos := 1 }
     let s := tVe [e]
     unitLive s.ctx 0 = true ∧ e.poison = false ∧ Clean s ∧ wFinish e.desc = decide (k = 1) ∧ govHolds s.ctx 0 = false ∧
     findActive s.ctx 0 1 0x21 (fun e => decide (wRows e.desc ≤ e.pos)) = some (0, e)) := by unfold Clean; decide +kernel

/-! ### DMA and the memories -/

/-- A copy of 4 bytes from 0 to 1000H: both sides here, the source in package 1, or the destination in package 1. -/
def tCopy (remote : Nat) : Desc :=
  tDesc [(0, 0x30), (9, 1), (32, 3), (128, 0x1000), (256, 4), (288, 1), (320, 4), (352, 4), (192, if remote = 1 then 1 else 0),
    (223, if remote = 1 then 1 else 0), (224, if remote = 2 then 1 else 0), (255, if remote = 2 then 1 else 0)]
/-- Unit 0 with these commands in its DMA queue; port 0 is UP and the route to slot 1. -/
def tDma (l : List Entry) : State :=
  { mem := [(0, 7), (3, 9)]
    dev := { units := [(0, { dma := { entries := l } })], linkCfg := [(0, { routes := [(1, 0x80)] })], ports := [(0, { state := 2, lanes := 15 })] }
    pending := [] }

theorem wit_dma_copy :
    (∀ k, k < 3 → let s := tDma [tE (tCopy k)]
      startable s.ctx 0 2 0x30 = some (0, tE (tCopy k)) ∧ copyOk s.ctx (tCopy k) = true ∧ copyRefused s.ctx (tCopy k) = none ∧
      cRemote (tCopy k) = (if k = 0 then none else some 1) ∧ (route s.ctx 0 1 s.dev.boot.pkg).isSome = true) ∧
    (let e := { tE (tCopy 0) with started := true, pos := 4 }
     let s := tDma [e]
     findActive s.ctx 0 2 0x30 (fun e => !hasChunk e && e.await.isEmpty) = some (0, e) ∧ queueLive s.ctx 0 2 = true ∧ e.remoteRefused = false ∧
     e.poison = false) := by decide +kernel
theorem wit_dma_chunk :
    ∀ k, k < 3 → let e := { tE (tCopy k) with started := true }
      let s := tDma [e]
      (s.ctx.cluster 0).frozen = false ∧ (s.ctx.cluster 0).turn = 0 ∧ unitLive s.ctx 0 = true ∧ findActive s.ctx 0 2 0x30 hasChunk = some (0, e) ∧
      Clean s ∧ cRemote (tCopy k) = (if k = 0 then none else some 1) ∧ cSrcRemote (tCopy k) = decide (k = 1) ∧ cDstRemote (tCopy k) = decide (k = 2) ∧
      windowHeld s.ctx 0 = false ∧ windowHeld s.ctx 0x1000 = false ∧ chunkRefused s.ctx (some 0) (some 0x1000) 4 = none ∧
      chunkRefused s.ctx none (some 0x1000) 4 = none ∧ chunkRefused s.ctx (some 0) none 4 = none ∧ firstProtected s.ctx 0x1000 4 = none ∧
      (route s.ctx 0 1 s.dev.boot.pkg).isSome = true := by unfold Clean; decide +kernel
/-- The copy of four bytes, its chunk and its signal on counter 3. -/
theorem test_dma_copy :
    let t := (((tDma [tE (tCopy 0)]).run (dmaCopyOp 0)).run (dmaChunkOp 0)).run (dmaCopyCompleteOp 0)
    t.bytes 0x1000 4 = [7, 0, 0, 9] ∧ evtWord t.ctx 0 3 = 1 ∧ (t.ctx.unit 0).dma.entries = [] := by decide +kernel
/-- A copy whose rows of destination overlap those of its source is refused with BAD_DESCRIPTOR and halts the queue (R222, R165). -/
theorem test_dma_overlap :
    let d := tDesc [(0, 0x30), (128, 2), (256, 4), (288, 1)]
    let t := (tDma [tE d]).run (dmaCopyOp 0)
    (t.ctx.unit 0).dma.halted = true ∧ (t.ctx.unit 0).dma.haltStatus = 1 := by decide +kernel
theorem wit_remote_answer :
    ∀ k, 1 ≤ k → k < 3 → let e := { tE (tCopy k) with started := true, pos := 4, await := [(0, 4)], sentAt := [0], via := [0] }
      let s := tDma [e]
      findActive s.ctx 0 2 0x30 (fun e => !e.await.isEmpty) = some (0, e) ∧ Clean s ∧ cSrcRemote e.desc = decide (k = 1) ∧
      unitLive s.ctx 0 = true ∧ windowHeld s.ctx 0x1000 = false ∧ chunkRefused s.ctx none (some 0x1000) 4 = none ∧
      firstProtected s.ctx 0x1000 4 = none ∧ ∃ x ∈ e.sentAt, (s.ctx.linkCfg (dieOfUnit 0)).respTimeout ≤ s.dev.slow - x := by unfold Clean; decide +kernel
/-- A job runs whose only area, one page at 0, is remote and may be written; port 35 is in state `k`. -/
def tRemote (k : Nat) : State :=
  tState { job := { tJob 0 with areas := [{ base := 0, size := 65536, write := true, host := false, remote := true, sheaf := false, staging := false }] }
           ports := [(35, { state := k, lanes := 15 })] }
theorem wit_remote_access :
    (∀ k, 2 ≤ k → k < 4 → ((tRemote k).ctx.port 35).state = k ∧ Clean (tRemote k) ∧ (tRemote k).dev.safe.safe = false ∧
      refusesFrom (tRemote k).ctx 0x3FFFF = false ∧
      remoteAllowed (tRemote k).ctx 65535 1 false = true ∧ remoteAllowed (tRemote k).ctx 65535 1 true = true ∧
      isT2Block (tRemote k).ctx 0x3FFFF 1 true = false ∧ firstProtected (tRemote k).ctx 65535 1 = none) ∧
    (let s := { tRemote 2 with dev := { (tRemote 2).dev with job := { (tRemote 2).dev.job with kind := 2 }, srv := { blockBytes := 16 } } }
     remoteAllowed s.ctx 0 16 true = true ∧ isT2Block s.ctx 0x3FFFF 16 true = true ∧ s.dev.job.overQuota = false ∧
     firstProtected s.ctx 0 16 = none) := by unfold Clean; decide +kernel
/-- Beyond the area the access is refused and recorded as a protection violation (R264, R500). -/
theorem test_remote_refused :
    ((tRemote 2).run (remoteAccessRequestOp 35 0x3FFFF 65535 2 false [] false)).dev.outbox = [.remoteResponse 0x3FFFF 35 true [] false] := by
  decide +kernel
theorem wit_scrub :
    let s := tState { units := [(511, { scrub := 786431 })], dies := [(3, { trained := true })] }
    s.dev.errs = [] ∧ (s.ctx.unit 511).resetting = false ∧ (s.ctx.die (127 / 32)).trained = true := by decide +kernel
/-- A pass has 786,432 words (R260). -/
theorem test_scrub_wraps : (((tState { units := [(511, { scrub := 786431 })] }).run (umPatrolScrubOp 511)).ctx.unit 511).scrub = 0 := by decide +kernel
/-- A job with page 1 in scope and a staging area of one page at 40000H, a sheaf running with generation 1. -/
def tCow (waiting : List (Nat × List Byte)) : State :=
  tState { job := { tJob 0 with areas := [{ base := 65536, size := 65536, write := true, host := false, remote := false, sheaf := true, staging := false },
                      { base := 0x40000, size := 65536, write := false, host := false, remote := false, sheaf := false, staging := true }] }
           cow := { gen := 1, active := true, waiting := waiting }
           res := { run := some { seq := 1, step := 1, slot := 0, startStep := 1, since := 0, pages := 3 }, homeBase := 0x1000000 } }
theorem wit_cow :
    (firstProtected (tCow []).ctx 0 1 = none) ∧ (firstProtected (tCow []).ctx 131071 1 ≠ none ∧ (tCow []).dev.cow.waiting.contains (131071, [5]) = false) ∧
    (let s := tCow [(131071, [5])]
     protectedPage s.ctx 1 = true ∧ s.dev.cow.waiting = [(131071, [5])] ∧ pagesOf 131071 1 = [1] ∧ stagingFree s.ctx = some 0x40000 ∧ s.dev.safe.safe = false ∧ Clean s) := by
  unfold Clean; decide +kernel
theorem test_cow_waits : ((tCow []).run (cowFirstWriteOp 131071 [5])).dev.cow.waiting = [(131071, [5])] := by decide +kernel
theorem wit_sheaf_stream :
    let s := tCow []
    s.dev.res.run = some { seq := 1, step := 1, slot := 0, startStep := 1, since := 0, pages := 3 } ∧ furLive s.ctx 0 = true ∧ Clean s ∧
    s.dev.cow.waiting = [] ∧ s.dev.cow.early = [] ∧ (scopePages s.ctx)[s.dev.cow.next]? = some 1 := by unfold Clean; decide +kernel

/-! ### Serving -/

/-- A request: 16 tokens of prompt at 0, at most 4 new tokens, answers to package 5. -/
def tReq (id : Nat) : Req := { id := id, dest := 8, destPkg := 5, promptLen := 16, maxNew := 4, maxLen := 32, isLocal := true, dCur := 2 }
/-- A SERVE job with one host area, one class, one variant, one tenant, and these requests. -/
def tSrv (reqs : List Req) : State :=
  tState { job := { tJob 2 with areas := [{ base := 0, size := 65536, write := true, host := true, remote := false, sheaf := false, staging := false }] }
           srv := { t0Blocks := 100, t1Blocks := 100, sharedExperts := 0, maxLenLimit := 64, dMax := 2, chunkMax := 16, decodeToken := [1], draftToken := [1],
                    prefillToken := [1], classes := [{ deadline := 1000, ttl1 := 5, ttl2 := 9, idle := 7 }], quotaAdjust := true,
                    variants := [(0, { valid := true, quota := 50, image := 50 })], tenants := [(0, { quota := 50, image := 50 })], reqs := reqs } }
/-- A SUBMIT of request 7 with the given MAX_LEN. -/
def tSubmit (maxLen : Nat) : Desc := tDesc [(0, 1), (32, 7), (72, 8), (96, 5), (192, 16), (224, 4), (256, maxLen), (319, 1)]

theorem tReady_frontEnd (s : State) (d : Desc) (h : seqRuns s.ctx = true) (ht : sourceTurn s.ctx 13 = true) : RecordReady s (.frontEnd 5) d :=
  ⟨h, rfl, ht, fun _ e => Source.noConfusion e⟩
/-- The record at the HEAD of pair 7. -/
theorem wit_record_ready :
    let d := tSubmit 32
    let s : State := { tSrv [] with mem := (toBytes 64 d.toNat).zipIdx.map (fun p => (queueRam + p.2, p.1)) }
    let s1 : State := { s with dev := { s.dev with stw := { pairs := [(7, { enable := true, tail := 1, rsizeLog2 := 12 })] } } }
    RecordReady s1 (.pair 7) d :=
  ⟨by decide +kernel, rfl, by decide +kernel, fun q e => by injection e with e; subst e; decide +kernel⟩
/-- After pair 3, pair 5 comes before pair 7 and package 0 of the front end (R375). -/
theorem test_source_turn : comesBetween 3 7 5 = true ∧ comesBetween 3 8 5 = true ∧ comesBetween 3 5 7 = false ∧ comesBetween 5 3 7 = true := by decide
theorem wit_submit :
    (RecordReady (tSrv []) (.frontEnd 5) (tSubmit 32) ∧ rOpcode (tSubmit 32) = 1 ∧ (tSrv []).dev.job.ending = false ∧
      submitStatus (recordTaken (tSrv []) (.frontEnd 5)) (tSubmit 32) = 0) ∧
    submitStatus (recordTaken (tSrv []) (.frontEnd 5)) (tSubmit 16) = 4 :=
  ⟨⟨tReady_frontEnd _ _ (by decide) (by decide +kernel), by decide +kernel, rfl, by decide +kernel⟩, by decide +kernel⟩
/-- Several statuses apply; the first of Table 10-5's order answers: the ID in use (2) before the length (4) (R376). -/
theorem test_submit_order : submitStatus (tSrv [tReq 7]).ctx (tSubmit 16) = 2 := by decide +kernel
/-- Accepted and admitted at once: the request stands in PREFILL, state 1. -/
theorem test_submit_joins : (((tSrv []).run (submitOp (.frontEnd 5) (tSubmit 32))).dev.srv.reqs.map (fun r => (r.id, r.state, r.admitted))) = [(7, 1, true)] := by
  decide +kernel
theorem wit_cancel :
    let d := tDesc [(0, 2), (32, 7)]
    RecordReady (tSrv [tReq 7]) (.frontEnd 5) d ∧ rOpcode d = 2 ∧ (zeroBytes d 1 3 && zeroBytes d 8 63) = true ∧
    (recordTaken (tSrv [tReq 7]) (.frontEnd 5)).req? (rId d) = some (tReq 7) ∧ (recordTaken (tSrv []) (.frontEnd 5)).req? (rId d) = none ∧
    (∀ l ∈ [[], [({ id := 7, state := 5, forward := none } : LedgerEntry)], [{ id := 7, state := 0, forward := some 9 }, { id := 7, state := 6, forward := none }]],
      let mine := l.filter (fun e => e.id == rId d)
      (mine.reverse.findSome? (fun e => e.forward) = some 9 ∨ mine.all (fun e => e.forward.isNone) = true)) :=
  ⟨tReady_frontEnd _ _ (by decide) (by decide +kernel), by decide +kernel⟩
/-- The FINAL entry of a cancelled request: kind 1, state 6, reason 10H (Table 10-6). -/
theorem test_cancel_entry : recordEntry 7 0xFFFFFFFF 1 6 0x10 0 = [7, 0, 0, 0, 0xFF, 0xFF, 0xFF, 0xFF, 1, 6, 0x10, 0, 0, 0, 0, 0] := by decide +kernel
/-- A conversation that waits: in T0 (blocked) or paused. -/
def tTalk (state : Nat) : Req := { tReq 7 with converse := true, turnOver := true, state := state, cause := 2, tier := 0, length := 15, admitted := state == 3 }
theorem wit_conversation :
    (∀ k, 3 ≤ k → k < 5 → let s := tSrv [tTalk k]
      let d := tDesc [(0, 3), (32, 7), (192, 16)]
      RecordReady s (.frontEnd 5) d ∧ (recordTaken s (.frontEnd 5)).req? (rId d) = some (tTalk k) ∧ takesInput (tTalk k) = true ∧ rOpcode d = 3 ∧
      (zeroBytes d 1 3 && zeroBytes d 8 15 && zeroBytes d 22 23 && zeroBytes d 28 63 && promptOk (recordTaken s (.frontEnd 5)) (fld d 16 0 48) (fld d 24 0 32)) =
        true ∧ (tTalk k).length + (tTalk k).promptLeft + ((tTalk k).inputs.map (fun p => p.2)).sum + fld d 24 0 32 ≤ (tTalk k).maxLen) ∧
    (let d := tDesc [(0, 4), (32, 7)]
     rOpcode d = 4 ∧ (zeroBytes d 1 3 && zeroBytes d 8 63) = true ∧ waits (tTalk 3) = true ∧ (tTalk 3).state = 3) := by
  refine ⟨fun k h1 h2 => ⟨tReady_frontEnd _ _ rfl (by rfl), ?_⟩, by decide +kernel⟩
  have : k = 3 ∨ k = 4 := by omega
  rcases this with rfl | rfl <;> decide +kernel
/-- A QUOTA of variant 0 to `n` blocks. -/
def tQuota (n : Nat) : Desc := tDesc [(0, 5), (64, n)]
theorem wit_quota :
    let s := tSrv [{ tReq 7 with admitted := true, state := 2 }]
    let c := recordTaken s (.frontEnd 5)
    seqRuns s.ctx = true ∧ rOpcode (tQuota 2) = 5 ∧ fld (tQuota 2) 1 0 8 ≤ 1 ∧ fld (tQuota 2) 2 0 16 < 1024 ∧
    (zeroBytes (tQuota 2) 4 7 && zeroBytes (tQuota 2) 12 63) = true ∧ s.dev.srv.quotaAdjust = true ∧ fld (tQuota 2) 8 0 32 ≤ holderImage c (.variant 0) ∧
    holderUse c (ofHolder (.variant 0)) ≤ fld (tQuota 2) 8 0 32 ∧ fld (tQuota 1) 8 0 32 < holderUse c (ofHolder (.variant 0)) ∧
    (let d := tDesc [(0, 6)]
     rOpcode d = 6 ∧ fld d 1 0 8 = 0 ∧ fld d 2 0 16 < 1024 ∧ zeroBytes d 4 63 = true ∧ (variantOf c (fld d 2 0 16)).valid = true) := by decide +kernel
theorem wit_build :
    let s := tSrv [{ tReq 7 with admitted := true, state := 1, promptLeft := 16 }, { tReq 8 with admitted := true, state := 2, length := 16 }]
    seqRuns s.ctx = true ∧ s.dev.job.ending = false ∧ s.dev.srv.plan = none ∧
    ([0, 1, 2, 3].flatMap (scanOrder (unblock s.ctx))).foldl (takeDecode (unblock s.ctx)) {} ≠ ({} : Building) ∧
    ((s.run buildStepOp).dev.srv.plan.map (fun p => (p.decodes, p.chunks))) = some ([(8, 0)], [(7, 16)]) := by decide +kernel
/-- One chunk of 16 tokens that ends request 7's prompt, with its first token. -/
def tPlan : StepPlan := { chunks := [(7, 16)], worst := 16 }
def tStep : State := let s := tSrv [{ tReq 7 with admitted := true, state := 1, promptLeft := 16 }]
  { s with dev := { s.dev with srv := { s.dev.srv with plan := some tPlan } } }
theorem wit_commit :
    tStep.dev.srv.plan = some tPlan ∧ seqRuns tStep.ctx = true ∧ tPlan.lost = false ∧
    resultsOk tStep.ctx tPlan [{ req := 7, drafts := [], mains := [42], eos := [false] }] = true ∧
    tStep.ctx.req? 7 = some { tReq 7 with admitted := true, state := 1, promptLeft := 16 } ∧ inPlan tStep.ctx 7 = true := by decide +kernel
/-- The first token is emitted and the request is READY with 17 tokens; the step counter has risen (R385, R409). -/
theorem test_commit :
    let c := stepRise (commitChunk [{ req := 7, drafts := [], mains := [42], eos := [false] }] tStep.ctx (7, 16))
    (c.srv.reqs.map (fun r => (r.state, r.length, r.emitted))) = [(2, 17, 1)] ∧ c.dev.job.step = 1 := by decide +kernel
/-- Of two drafts the first equals its main token: one is accepted (R392). -/
theorem test_accepted : accepted [4, 9] [4, 5, 6] = 1 := by decide
theorem wit_srv_timers :
    (let s : State := { tStep with dev := { tStep.dev with slow := 17 } }
     (s.ctx.coll 0).episodes.find? (fun p => p.1 == 42) = none ∧ s.dev.srv.plan = some tPlan ∧ tPlan.overran = false ∧ tPlan.worst < s.dev.slow - tPlan.since) ∧
    (let s0 := tSrv []
     let s : State := { s0 with dev := { s0.dev with slow := 3, srv := { s0.dev.srv with variants := [(1023, { valid := true, reclaim := some (3, false) })] } } }
     (variantOf s.ctx 1023).reclaim = some (3, false) ∧ seqRuns s.ctx = true ∧ 3 ≤ s.dev.slow) ∧
    (let s0 := tSrv [tTalk 3]
     let s : State := { s0 with dev := { s0.dev with slow := 7 } }
     s.ctx.req? 7 = some (tTalk 3) ∧ seqRuns s.ctx = true ∧ (tTalk 3).cause = 2 ∧ (classOf s.ctx 0).idle ≤ s.dev.slow - (tTalk 3).since) ∧
    (∀ k, k < 2 → let r := { tTalk 4 with tier := k + 1 }
     let s0 := tSrv [r]
     let s : State := { s0 with dev := { s0.dev with slow := 9 } }
     s.ctx.req? 7 = some r ∧ r.moving = none ∧ (classOf s.ctx 0).ttl1 ≤ 9 ∧ (classOf s.ctx 0).ttl2 ≤ 9) := by decide +kernel
/-- Request 7 with one block of 4 bytes, moving from tier `a` to tier `b`. -/
def tMove (a b hand : Nat) : State :=
  let r := { tTalk 4 with tier := a, moving := if hand = 4 then none else some b, hand := hand }
  let s := tSrv [{ r with crcs := if a = 2 then [crc32c [1, 2, 3, 4]] else [], t2 := if b = 2 then [3] else [] }]
  { s with dev := { s.dev with srv := { s.dev.srv with blockBytes := 4 } } }
theorem wit_moves :
    (∀ p ∈ [(2, 0), (1, 0), (0, 1), (0, 2)], let s := tMove p.1 p.2 0
      (s.ctx.req? 7).map (fun r => (moveTurn s.ctx r, r.moving, r.blocks, fitsT1 s.ctx r)) = some (true, some p.2, 1, true) ∧
      (s.ctx.req? 7).map (fun r => (freshPlaces s.ctx r 0 [umBase 0], freshPlaces s.ctx r 1 [0], sourcePlaces s.ctx r 0 [umBase 0],
        sourcePlaces s.ctx r 1 [0])) = some (true, true, true, true)) ∧
    (let s := tMove 0 0 4
     (s.ctx.req? 7).map (fun r => (moveTurn s.ctx r, r.hand, sourcePlaces s.ctx r 0 [umBase 0], placesApart s.dev.srv.blockBytes r.blocks [64])) =
       some (true, 4, true, true)) ∧
    (∀ k, k < 2 → let s : State := { tSrv [] with dev := { (tSrv []).dev with frozenRemotes := if k = 1 then [5] else [] } }
     refusesFrom s.ctx 5 = decide (k = 1)) := by decide +kernel
/-- A block that comes back from T2 with another CRC ends its request; with the right one it lies in T0 (R275). -/
theorem test_move_crc :
    (((tMove 2 0 0).run (tierMoveCompleteOp 7 { src := [], dst := [umBase 0], data := [[1, 2, 3, 4]] })).dev.srv.reqs.map (fun r => r.tier)) = [0] ∧
    (((tMove 2 0 0).run (tierMoveCompleteOp 7 { src := [], dst := [umBase 0], data := [[1, 2, 3, 5]] })).dev.srv.reqs.map (fun r => r.tier)) = [] := by decide +kernel

/-! ### Furrows -/

/-- Bytes at an address, zeros left out. -/
def tAt (a : Nat) (l : List Byte) : List Host.Cell := (l.zipIdx.map (fun p => (a + p.2, p.1))).filter (fun p => p.2 != 0)
/-- A group entry: VALID, level 1 with `n` members, this one at `pos`, package 9 before it; one member at levels 2 and 3. -/
def tGroup (n pos : Nat) : List Byte := [1, 2] ++ List.replicate 14 0 ++ toBytes 2 n ++ toBytes 2 pos ++ [0, 0, 0, 0] ++ toBytes 4 9 ++ [0, 0, 0, 0] ++
  [1] ++ List.replicate 15 0 ++ [1]
/-- FUR_REDUCE or FUR_SCALE of one FP32 element without a source. -/
def tReduce (op kind : Nat) : Desc := tDesc [(0, op), (40, kind), (64, umBase 0), (128, umBase 0 + 0x100), (192, 1), (256, umBase 0 + 0x200)]
/-- Channel 4 of die `d` in a state with a descriptor, its group having `n` members. -/
def tFur (d n pos st : Nat) (D : Desc) (run : Option FurRun) : State :=
  { mem := tAt 0x1000 (toBytes 64 D.toNat) ++ tAt 0x2000 (tGroup n pos)
    dev := { job := tJob 0
             furrows := [(d, { groups := 1, groupBase := 0x2000, chans := [(4, { base := 0x1000, len := 1, state := st, run := run })] })] }
    pending := [] }
theorem wit_fur_take :
    (let D := tDesc [(0, 0x43)]
     let s := tFur 3 1 0 1 D none
     chanOk 3 4 = true ∧ nextDesc s.ctx 3 4 = some D ∧ (s.ctx.chan 3 4).state = 1 ∧ Clean s ∧ zeroBytes D 1 63 = true ∧ hOpcode D = 0x43) ∧
    (let D := tDesc [(0, 0x42)]
     let s := tFur 1 1 0 1 D none
     let v := umBase (notifyUnit 1 D) + uCondOff D
     nextDesc s.ctx 1 4 = some D ∧ trigger D 0 ≤ evtWord s.ctx (notifyUnit 1 D) (uWaitEvt D) ∧ hOpcode D = 0x42 ∧ commitOk D = true ∧
     furReach s.ctx true v 1 = true ∧ atSheafPoint s.ctx 1 = false ∧
     atSheafPoint { s.ctx with dev := { s.dev with res := { enable := true, planned := some 0 } } } 1 = true) ∧
    (∀ op, op < 2 → let D := tReduce (0x40 + op) 0
     let s := tFur 1 2 1 1 D none
     nextDesc s.ctx 1 4 = some D ∧ uCondEn D = false ∧ groupOk s.ctx 1 (uGroup D) = true ∧ portGone s.ctx 1 (uGroup D) = false ∧ reduceOk D = true ∧
     furReach s.ctx false (listSpan D).1 (listSpan D).2 = true ∧ listsOk s.ctx D = true ∧
     (∀ p ∈ furSpans s.ctx 1 D (geoOf s.ctx 1 D), furReach s.ctx p.1 p.2.1 p.2.2 = true) ∧ sums? D = true) := by unfold Clean; decide +kernel
/-- On two members the reduction of one element starts with a header to the next die and one to the next member, and die 1 sends the first
word, its part of a sum without source: negative zero (R327, R332, R334). -/
theorem test_fur_start :
    ((tFur 1 2 1 1 (tReduce 0x40 0) none).run (furTake 0x40 1 4 (reduceAct 1 4))).dev.outbox.length = 3 ∧
    ((tFur 1 2 1 1 (tReduce 0x40 0) none).run (furTake 0x40 1 4 (reduceAct 1 4))).dev.outbox.getLast? =
      some (.furWord 1 4 (.crossing 4 2) { level := 0, first := 0, elems := [0x80000000], poison := false, gather := false }) := by decide +kernel
/-- FUR_LOOP: entry 0, ITER one on (R325). -/
theorem test_fur_loop :
    let t := (tFur 3 1 0 1 (tDesc [(0, 0x43)]) none).run (furTake 0x43 3 4 (fun _ _ => loopAct 3 4))
    (t.ctx.chan 3 4).pc = 0 ∧ (t.ctx.chan 3 4).iter = 1 := by decide +kernel
theorem wit_fur_words :
    (let D := tReduce 0x40 0
     let r : FurRun := { desc := D, headers := [0] }
     let s := tFur 2 1 0 2 D (some r)
     let g := geoOf s.ctx 2 D
     (s.ctx.chan 2 4).run = some r ∧ furLive s.ctx 2 = true ∧
     wordTaken s.ctx r g { level := 0, first := 0, elems := [0x3F800000], poison := false, gather := false } = true ∧ g.pos 0 ≠ g.ownerPos (g.ownerOf 0) 0 ∧
     ∀ p ∈ wordSpans s.ctx r.desc g { level := 0, first := 0, elems := [0x3F800000], poison := false, gather := false }, furReach s.ctx p.1 p.2.1 p.2.2 = true) ∧
    (let D := tReduce 0x40 1
     let r : FurRun := { desc := D, headers := [1] }
     let s := tFur 0 2 1 2 D (some r)
     let g := geoOf s.ctx 0 D
     (s.ctx.chan 0 4).run = some r ∧ wordTaken s.ctx r g { level := 1, first := 0, elems := [0x3F800000], poison := false, gather := true } = true ∧
     (∀ p ∈ wordSpans s.ctx r.desc g { level := 1, first := 0, elems := [0x3F800000], poison := false, gather := true }, furReach s.ctx p.1 p.2.1 p.2.2 = true) ∧
     uScale D = false ∧ Clean s ∧ firstProtected s.ctx (resultSpan D g 0).1 (resultSpan D g 0).2 = none) ∧
    (let D := tReduce 0x40 0
     let r : FurRun := { desc := D, headers := [0], taken := [(0, false, 0)], agreed := some noCounts }
     let s := tFur 2 1 0 2 D (some r)
     agreedCounts s.ctx 2 4 r noCounts ≠ none ∧ r.exps.all (fun p => furReach s.ctx true (uAux r.desc + p.1) 1) = true ∧ hCpl D = false ∧ hSig D = false ∧
     r.exps.find? (fun p => (firstProtected s.ctx (uAux D + p.1) 1).isSome) = none ∧ (s.ctx.chan 2 4).state = 2) := by unfold Clean; decide +kernel
/-- A sum travels with the arriving word first: 1 + 2 = 3 (R332); the maximum and INT32 forms of Table 09-2. -/
theorem test_headland : headland (tReduce 0x40 0) [0x3F800000] [0x40000000] = [0x40400000] ∧
    headland (tDesc [(0, 0x40), (48, 7)]) [0x7FFFFFFF] [1] = [0x7FFFFFFF] := by decide +kernel
theorem wit_fur_stop :
    let D := tReduce 0x40 0
    let r : FurRun := { desc := D }
    let s := tFur 2 1 0 2 D (some r)
    let h : FurHeader := { level := 0, tag := 0, opcode := 0x40, kind := 0, op := 0, format := 0, group := 0, elements := 1, epoch := 0, n1 := 1, n2 := 1, n3 := 1, pos := 1, src := 0 }
    (s.ctx.chan 2 4).run = some r ∧ furLive s.ctx 2 = true ∧ hOpcode D ≠ 0x43 ∧ headerFits D (geoOf s.ctx 2 D) h = true ∧ h.epoch = s.dev.epoch ∧
    headerFits D (geoOf s.ctx 2 D) { h with elements := 2 } = false ∧ headerFits D (geoOf s.ctx 2 D) { h with epoch := 1 } = true ∧
    (s.ctx.fur 2).timeout ≤ s.dev.slow - r.since ∧ lateTrays s.ctx 2 r = [] ∧ hCpl D = false ∧ hSig D = false ∧
    (∀ k, 1 ≤ k → k < 3 → let t := tFur 2 1 0 k D none
      (t.ctx.chan 2 4).state = k ∧ t.dev.job.running = true ∧ isDisabled t.ctx (.furrow 2 4) = false) := by decide +kernel
/-- A header of another element count halts the channel with status 41H (R327, Table 09-5). -/
theorem test_fur_mismatch :
    let D := tReduce 0x40 0
    let t := (tFur 2 1 0 2 D (some { desc := D })).run (furHeaderOp 2 4
      { level := 0, tag := 0, opcode := 0x40, kind := 0, op := 0, format := 0, group := 0, elements := 2, epoch := 0, n1 := 1, n2 := 1, n3 := 1, pos := 1, src := 0 })
    (t.ctx.chan 2 4).state = 3 ∧ (t.ctx.chan 2 4).haltStatus = 0x41 ∧ t.dev.outbox = [.peerAbort 2 4 (.crossing 8 3)] := by decide +kernel

/-! ### Jobs -/

/-- A mailbox command waits, the controller is at work, and a job is in the state given. -/
def tMbox (v : Nat) (job : JobSt) (valid : Byte) : State :=
  { mem := if valid = 0 then [] else [(imageCopy 0, valid)]
    dev := { job := job, stw := { mboxPending := some v, busy := true }, cores := [(2064, { load := .loaded })], topo := { outcome := 1 } }, pending := [] }
theorem wit_mailbox :
    (let s := tMbox 1 {} 4
     s.dev.stw.mboxPending = some 1 ∧ ctlRuns s.ctx = true ∧ mboxKind 1 = 1 ∧ startRefusal true (bits 1 8 6) s.ctx = 0) ∧
    startRefusal true (bits 1 8 6) (tMbox 1 {} 0).ctx = 1 ∧ mboxKind 2 = 2 ∧ (tJob 0).ending = false ∧ ({} : JobSt).running = false ∧
    mboxKind (3 + 2 ^ 32) = 3 ∧ bits (3 + 2 ^ 32) 32 32 = 1 ∧ (tJob 0).memQuota < 1 ∧ bits 3 32 32 ≤ (tJob 0).memQuota ∧ mboxKind 0 = 0 ∧
    mboxKind 4 = 0 := by decide +kernel
/-- STOP with no job running is answered STOP_IGNORED, 20H (Table 17-4). -/
theorem test_mailbox_stop :
    let t := (tMbox 2 {} 0).run mboxStopOp
    t.dev.stw.replyCode = 0x20 ∧ t.dev.stw.replyOp = 2 ∧ t.dev.stw.busy = false := by decide +kernel
theorem wit_jobs :
    (let s := tState { job := { running := true } }
     s.dev.safe.safe = false ∧ s.dev.res.restore = 0 ∧ loadsEnded s.ctx = true ∧ s.dev.units.any (fun p => p.2.resetting) = false ∧ s.dev.res.present = false) ∧
    (let s : State := tState { job := { tJob 0 with timeLimit := 5, stallLimit := 5 }, slow := 5 }
     limitsCount s.ctx = true ∧ s.dev.job.timeLimit ≠ 0 ∧ s.dev.job.stallLimit ≠ 0 ∧ s.dev.job.timeLimit ≤ s.dev.slow - s.dev.job.releasedAt ∧ s.dev.job.stallLimit ≤ stalledFor s.ctx) ∧
    (let s : State := tState { job := { tJob 0 with ending := true, endCode := 0x0F, drainLimit := 4 }, slow := 5 }
     s.dev.job.stopped = false ∧ workDrained s.ctx = true ∧ drainsCode s.dev.job.endCode = true ∧ s.dev.job.drainLimit < s.dev.slow - s.dev.job.endedAt) ∧
    drainsCode 0x10 = false ∧
    (∀ k, k < 2 → let s : State := tState { job := { tJob 0 with ending := true, stopped := true, endCode := k } }
     s.dev.job.ending = true ∧ s.dev.job.stopped = true ∧ s.dev.safe.safe = false ∧ s.dev.job.endCode = k ∧ (flushBatch true s.ctx).srv.batch = []) ∧
    (let d : Drain := { fn := .unit 511, since := 0, limit := 4 }
     let s : State := tState { job := { tJob 0 with drains := [d] }, slow := 5 }
     DisFn.wf (.unit 511) = true ∧ s.dev.job.drains.find? (fun d => d.fn == .unit 511) = some d ∧ s.dev.job.ending = false ∧
     workLeft s.ctx (.unit 511) = false ∧ d.limit < s.dev.slow - d.since) := by decide +kernel
/-- The release starts the channels that have a program and no others. -/
theorem test_release :
    let t := (tState { furrows := [(3, { chans := [(1, { len := 2 }), (4, {})] })] }).run (chansWait 3)
    (t.ctx.chan 3 1).state = 1 ∧ (t.ctx.chan 3 4).state = 0 := by decide +kernel

/-! ### Links -/

/-- Port 0 UP on all lanes with this link layer; port 1 UP, and the route of slot 1 goes through it. -/
def tLink (l : LinkLayer) : State :=
  tState { ports := [(0, { state := 2, lanes := 15, link := l }), (1, { state := 2, lanes := 15 })], linkCfg := [(0, { routes := [(1, 0x81)] })] }
def tFlit (vc dst seq : Nat) : Flit :=
  { src := 9, dst := dst, hops := 2, vc := vc, cls := 0, seq := seq, ack := 0, creditVc := 7, creditCls := 1, credit := 0, nak := false, payload := List.replicate 240 0, last := true, poison := false }
theorem wit_links :
    Flit.wf (tFlit 7 0 0) = true ∧ LinkWord.wf { ack := 4095, creditVc := 7, creditCls := 1, credit := 7, nak := true } = true ∧
    (let s := tLink { resend := [tFlit 0 1 3], replay := [tFlit 0 1 3] }
     (s.ctx.port 0).trained = true ∧ (s.ctx.port 0).link.resend = [tFlit 0 1 3] ∧ unacked (s.ctx.port 0).link.replay 0 ≠ [] ∧
     unacked (s.ctx.port 0).link.replay 3 = [] ∧ (s.ctx.port 0).link.replayFails ≠ 8) ∧
    nextFlit (tLink {}).ctx 0 = none ∧
    (∀ k, k < 2 → let q : TxFlit := { flit := tFlit 7 1 0, origin := if k = 0 then none else some (1, 15) }
     let s := tLink { txq := [q] }
     (s.ctx.port 0).link.resend = [] ∧ (s.ctx.port 0).link.replay.length < 4095 ∧ nextFlit s.ctx 0 = some (q, 7, 1)) ∧
    (let s := tLink { rxNext := 4095 }
     (tFlit 7 0 4095).seq = (s.ctx.port 0).link.rxNext ∧ vcOpen s.ctx 0 7 = true ∧ forUs s.ctx (tFlit 7 0 4095) = true ∧
     forUs s.ctx (tFlit 7 1 4095) = false ∧ s.dev.safe.safe = false ∧ routeVc s.ctx 0 7 1 9 = some (1, false) ∧ (tFlit 7 0 0).seq ≠ (s.ctx.port 0).link.rxNext) ∧
    (∀ k, k < 2 → let l := ((tLink { discarding := true, nakDue := decide (k = 1) }).ctx.port 0).link
     l.discarding = true ∧ l.nakDue = decide (k = 1)) ∧ ((tLink {}).ctx.port 0).link.discarding = false ∧
    (let l := ((tLink { replay := [tFlit 0 1 3], replayFails := 8 }).ctx.port 0).link
     unacked l.replay 0 ≠ [] ∧ l.replayFails = 8) := by decide +kernel
theorem wit_raw : (flitBytes (tFlit 7 0 4095)).length = 256 ∧ crcGood (flitBytes (tFlit 7 0 4095)) = true ∧
    flitOf (flitBytes (tFlit 7 0 4095)) = some (tFlit 7 0 4095) ∧ crcGood (List.replicate 256 0) = false := by decide +kernel
/-- Header and link word of Table 12-3, byte by byte: VC 7, HOPS 2, DST 0, SRC 9, LEN 240, LAST; SEQ 4095, CREDIT_VC 7, CREDIT_CLASS 1. -/
theorem test_flit_bytes : (flitBytes (tFlit 7 0 4095)).take 8 = [0x87, 0, 0, 0x20, 1, 0, 0xF8, 0] ∧
    ((flitBytes (tFlit 7 0 4095)).drop 248).take 4 = [0xFF, 0x0F, 0, 0x47] := by decide +kernel
/-- SEQ is 12 bits wide: 4095 is followed by 0 (R434). -/
theorem test_seq_wraps : (((tLink { rxNext := 4095 }).run (dataFlitReceiveOp 0 (flitBytes (tFlit 7 0 4095)) true)).ctx.port 0).link.rxNext = 0 := by decide +kernel
/-- A transit flit leaves by the routed port with one hop less. -/
theorem test_transit : (((tLink {}).run (dataFlitReceiveOp 0 (flitBytes (tFlit 7 1 0)) true)).ctx.port 1).link.txq.map (fun t => (t.flit.dst, t.flit.hops)) = [(1, 1)] := by
  decide +kernel
/-- A port in training. -/
def tTrain (x : Port) : State := tState { ports := [(35, x)], slow := 9, topo := { started := true } }
theorem wit_training :
    (let x : Port := { state := 1, step := 1, expRate := 2 }
     ((tTrain x).ctx.port 35) = x ∧ x.signal = false) ∧
    (let x : Port := { state := 5, downCause := 6, signal := true }
     ((tTrain x).ctx.port 35) = x ∧ ((tTrain x).ctx.linkCfg (35 / 9)).discoveryWindow ≤ (tTrain x).dev.slow - x.lastEnd) ∧
    (let x : Port := { state := 1, step := 2, signal := true, code := 2, agreed := true, expRate := 2 }
     (tTrain x).ctx.port 35 = x ∧ x.trained = false ∧ bestRate (if x.attempts = 0 ∧ x.code = firstCode x then x.expRate else x.code) 7 = some 2 ∧ laneSet (maskOf 4 (fun i => bit 15 i && !bit (lanesHeld (tTrain x).ctx 35) i)) = some 15 ∧
     ((tTrain x).ctx.linkCfg (35 / 9)).trainTimeout ≤ (tTrain x).dev.slow - x.since) ∧
    ({ state := 6 } : Port).trained = true ∧ (3 ≤ ({ attempts := 2 } : Port).attempts + 1) ∧
    (tTrain {}).dev.topo.started = true ∧ ((tTrain {}).ctx.linkCfg 0).discoveryWindow ≤ (tTrain {}).dev.slow - (tTrain {}).dev.topo.since := by decide +kernel
/-- Lane sets of R429: all four, a pair, a single lane; a length of 188 steps of 10 ps is one unit. -/
theorem test_lane_sets : laneSet 15 = some 15 ∧ laneSet 7 = some 3 ∧ laneSet 14 = some 12 ∧ laneSet 10 = some 2 ∧ laneSet 0 = none := by decide
def tCap : CapRecord := { version := 1, rates := 7, lanesOk := 15, adders := 31, pkg := 1, port := 35, firmware := 0, epoch := 0, deviceId := 5, busy := false,
                          unavailable := false, admOn := false, dup := false, part := 0, dupId := 0 }
theorem wit_admission :
    (Instr.capabilityRecord 35 tCap).wf = true ∧
    (let x : Port := { state := 1, step := 7, signal := true, lanes := 15 }
     let s := tTrain x
     duplicate (s.ctx.updPort 35 (fun y => { y with partner := partnerOf tCap, busy := tCap.busy })) 35 tCap = none ∧ x.state ≠ 4 ∧
     (s.ctx.linkCfg (35 / 9)).admOn = false ∧ tCap.admOn = false ∧ ({ tCap with admOn := true } : CapRecord).admOn = true) ∧
    ({ state := 2 } : Port).trained = true ∧ ((tTrain { step := 8 }).ctx.port 35).step = 8 ∧ ((tTrain { step := 8 }).ctx.port 35).admission.haveNonce = false ∧
    ((tTrain { step := 8 }).ctx.linkCfg (35 / 9)).admitTimeout ≤ (tTrain { step := 8 }).dev.slow - ({ step := 8 } : Port).since ∧
    (∀ k, k < 2 → let s := tState { boot := { stage := 7 }, topo := { started := true }, ports := [(35, { use := 2 - k, state := 5 })] }
     s.dev.boot.stopped = false ∧ s.dev.topo.outcome = 0 ∧ linksSettled s.ctx = true ∧ topologyOutcome (windowEnd s.ctx) = 3) ∧
    (let s := tState { boot := { stage := 7 }, topo := { started := true, maxDown := 1 }, ports := [(35, { use := 1, state := 5 })] }
     linksSettled s.ctx = true ∧ topologyOutcome (windowEnd s.ctx) = 2) := by decide +kernel

/-! ### Sheaves and the survivors -/

/-- A training job whose four dies hold the commit of the planned step 4; `r` says more of the resilience block. -/
def tRes (r : ResSt) : State :=
  tState { job := { tJob 0 with step := 4 }, res := { r with present := true },
           furrows := (List.range 4).map (fun d => (d, { held := some (1, 4), commits := 4, chans := [(1, { len := 1, state := 1 })] })), slow := 9 }
def tRun : SheafRun := { seq := 1, step := 4, slot := 1, startStep := 5, since := 0, pages := 1, digestSent := true }
def tMsg : ResMsg := { epoch := 0, sender := 0, step := 4, seq := 0, cost := 1, result := 0, count := 1, subject := 3, cause := 0, newEpoch := 1, removed := [], digest := 0 }
theorem wit_sheaf_point :
    (let s := tRes { planned := some 4 }
     s.dev.res.planned = some 4 ∧ furLive s.ctx 0 = true ∧ allHeld s.ctx = true ∧ sheafSkips s.ctx = true ∧
     sheafSkips (tRes { planned := some 4, enable := true }).ctx = false) ∧
    (let s := tRes { run := some tRun, sheafTimeout := 9 }
     s.dev.res.run = some tRun ∧ tRun.digestSent = true ∧ (tRun.buddyAck || tRun.witnessAck) = false ∧
     (ackRun 1 tRun).buddyAck = true ∧ (ackRun 1 tRun).witnessAck = false ∧ (ackRun 1 (ackRun 2 tRun)).buddyAck = true ∧ s.dev.res.sheafTimeout ≤ s.dev.slow - tRun.since) := by decide +kernel
theorem wit_sheaf_receive :
    (let s := tRes { slotPages := 2, ward := 5, witnessed := 6 }
     s.dev.job.running = true ∧ refusesFrom s.ctx 5 = false ∧ s.dev.safe.safe = false ∧ Clean s ∧ s.dev.res.restore ≠ 1 ∧ (5 : Nat) = s.dev.res.ward ∧
     recordOff 0 + 65544 ≤ s.dev.res.slotPages * 65536 ∧ s.dev.res.present = true ∧ (5 : Nat) ≠ s.dev.res.witnessed ∧ (6 : Nat) = s.dev.res.witnessed ∧
     (6 : Nat) ≠ s.dev.res.ward ∧ 8 + 65536 = 65544 ∧ recordOff 2 + 65544 > s.dev.res.slotPages * 65536) ∧
    (∀ k, k < 2 → let s0 := tRes { slotPages := 2, ward := 5 }
     let s : State := { s0 with dev := { s0.dev with frozenRemotes := [5], safe := { safe := decide (k = 1) } } }
     refusesFrom s.ctx 5 = true ∧ s.dev.safe.safe = decide (k = 1)) ∧
    (let s := tRes { slotPages := 2, buddy := 7, restore := 1, refetched := true, committedSlot := 1 }
     s.dev.res.restore = 1 ∧ s.dev.res.refetched = true ∧ (7 : Nat) = s.dev.res.buddy ∧ (1 : Nat) = s.dev.res.committedSlot ∧ 16384 ≤ s.dev.res.slotPages * 65536) := by
  unfold Clean; decide +kernel
/-- A page of a stranger is refused and acknowledged so (R465). -/
theorem test_sheaf_refused :
    ((tRes { slotPages := 2, ward := 5 }).run (sheafPageReceiveOp 4 0 1 0 0 { bytes := [], poison := [] })).dev.outbox = [.sheafAck 4 1 false false] := by decide +kernel
theorem wit_messages :
    (let s := tRes { noticeAt := some 0, noticeWait := 4, named := [3], roster2 := [0, 3], awaiting := [(24, 0)], checkBytes := 1 }
     inJob s.ctx = true ∧ s.dev.job.step ≤ tMsg.step ∧ (∀ d, d < 4 → (s.ctx.fur d).commits ≤ tMsg.step) ∧ ({ tMsg with step := 3 } : ResMsg).step < s.dev.job.step ∧
     ownSlot s.ctx = 0 ∧ tMsg.sender / 8 = ownTray s.ctx ∧ (ofSeq tMsg.seq (s.dev.res.trayDones.filter (fun x => x.sender != tMsg.sender || x.seq != tMsg.seq))).length < 7 ∧
     (noticeTakers s.ctx).contains s.dev.boot.pkg = true ∧ (memberTrays s.ctx).contains tMsg.subject = true ∧ s.dev.res.run = none ∧ s.dev.res.named ≠ [] ∧
     s.dev.res.noticeWait ≤ s.dev.slow - s.dev.res.namedAt ∧ actsAsCoordinator s.ctx = true ∧ s.dev.epoch < 0xFFFFFFFF ∧
     2 * s.dev.res.noticeWait + (s.ctx.linkCfg 0).respTimeout ≤ s.dev.slow - 0 ∧ coordinator s.ctx = s.dev.boot.pkg ∧
     s.dev.res.awaiting.any (fun p => p.1 == 24 && decide ((s.ctx.linkCfg 0).respTimeout ≤ s.dev.slow - p.2)) = true ∧ s.dev.res.checkBytes ≠ 0 ∧ Clean s ∧
     (Tab.set s.dev.res.checks tMsg.sender tMsg.digest).length < 8) ∧
    (let s0 := tRes { checkBytes := 1 }
     let s : State := { s0 with dev := { s0.dev with boot := { pkg := 7 } } }
     ownSlot s.ctx ≠ 0 ∧ inJob s.ctx = true) := by unfold Clean; decide +kernel
/-- A notice is remembered with its step and names its tray (R470, R472). -/
theorem test_notice : ((tRes { roster2 := [0, 3] }).run (noticeOp tMsg)).dev.res.named = [3] ∧
    ((tRes { roster2 := [0, 3] }).run (noticeOp tMsg)).dev.res.notices = [4] := by decide +kernel
theorem wit_survivors :
    (let s := tRes { restore := 3, state := 3 }
     inJob s.ctx = true ∧ (5 : Nat) < 2 ^ 18 ∧ ({ tMsg with removed := [0] } : ResMsg).removed.contains (ownTray s.ctx) = true ∧ tMsg.removed.contains (ownTray s.ctx) = false ∧
     s.dev.job.kind ≤ 1 ∧ s.dev.res.restore = 3 ∧ s.dev.res.state = 3 ∧ loadsEnded s.ctx = true ∧ s.dev.units.all (fun p => !p.2.resetting) = true ∧
     coordinator s.ctx = s.dev.boot.pkg ∧ allReady (s.ctx.updRes (fun r => { r with readies := insNat 5 r.readies })) = false) ∧
    (1 < (tJob 2).kind) ∧
    (let s := tRes { restore := 1 }
     s.dev.res.restore = 1 ∧ wardRemoved s.ctx = false ∧ homeOk s.ctx = false ∧ s.dev.res.refetched = false) ∧
    (let s := tRes { restore := 2, readies := List.range 7 }
     s.dev.res.restore = 2 ∧ allReady (s.ctx.updRes (fun r => { r with readies := insNat 7 r.readies })) = true ∧ (s.ctx.chan 3 1).len ≠ 0) := by decide +kernel

/-- An empty sheaf's slot. -/
def tSlot : List Byte := List.replicate 16384 0
/-- A package whose home slot holds an empty sheaf, with a digest record; tray 3, its ward's, has been removed, and the ward's slot is empty. -/
def tHomeRes (h : Nat) : ResSt :=
  { restore := 1, valid := true, slotPages := 1, restartAddr := 0x100000, wardBase := 0x200000, ward := 24, removed := [3], wards := [{ valid := true }],
    wardDigest := some h }
def tHome (h : Nat) (rec : List Byte) : State := (tRes (tHomeRes h)).run (fun c => c.write 0x100800 rec)

theorem tHome_dev (h : Nat) (l : List Byte) : (tHome h l).ctx.dev = (tRes (tHomeRes h)).dev := Ctx.write_dev _ _ _
theorem tHome_byte (h : Nat) (l : List Byte) (a : Nat) :
    (tHome h l).ctx.byte a = if 0x100800 ≤ a ∧ a < 0x100800 + l.length then l.getD (a - 0x100800) 0 else 0 := by
  have e : (tHome h l).ctx.byte a = ((tRes (tHomeRes h)).ctx.write 0x100800 l).byte a :=
    State.byte_run' (tRes (tHomeRes h)) (fun c => c.write 0x100800 l) a (Ctx.write_mem _ _ _)
  rw [e, Ctx.byte_write]
  rfl
theorem tHome_zero (h : Nat) (l : List Byte) (a n : Nat) (ha : a + n ≤ 0x100800 ∨ 0x100800 + l.length ≤ a) :
    (tHome h l).ctx.read a n = List.replicate n 0 := by
  refine List.ext_getElem (by simp [Ctx.read]) (fun i h1 h2 => ?_)
  have hi : i < n := by simpa [Ctx.read] using h1
  simp only [Ctx.read, List.getElem_map, List.getElem_range, List.getElem_replicate, tHome_byte]
  rw [if_neg (by omega)]
theorem tHome_record (h : Nat) (l : List Byte) (a n : Nat) (hn : a + n ≤ l.length) : (tHome h l).ctx.read (0x100800 + a) n = (l.drop a).take n := by
  refine List.ext_getElem (by simp [Ctx.read]; omega) (fun i h1 h2 => ?_)
  have hi : i < n := by simpa [Ctx.read] using h1
  simp only [Ctx.read, List.getElem_map, List.getElem_range, tHome_byte, List.getElem_take, List.getElem_drop]
  rw [if_pos (by omega), show 0x100800 + a + i - 0x100800 = a + i by omega, List.getD_eq_getElem?_getD, List.getElem?_eq_getElem (by omega), Option.getD_some]
theorem tHome_read (h : Nat) (l : List Byte) : restoreRead (tHome h l).ctx = (tHome h l).ctx := by
  have e : (tHome h l).dev.errs = [] := by rw [← State.ctx_dev, tHome_dev]; rfl
  simp [restoreRead, eccRead, e]
/-- With the digest of the empty slot in its record the home slot checks; the ward's does for the same digest from the witness and for no other. -/
theorem wit_survivor_digests (h : Nat) (l : List Byte) (hl : l = toBytes 4 0x53444731 ++ (toBytes 12 0 ++ sha384 tSlot)) :
    inJob (tHome h l).ctx = true ∧ (tHome h l).dev.res.restore = 1 ∧ wardRemoved (tHome h l).ctx = true ∧ homeOk (tHome h l).ctx = true ∧
      (tHome h l).dev.res.wardDigest = some h ∧ wardOk (tHome h l).ctx h = decide (sha384Nat tSlot = h) := by
  have h64 : l.length = 64 := by rw [hl]; simp [length_sha384]
  have z24 : (tHome h l).ctx.readNat 24 4 = 0 := by rw [Ctx.readNat, tHome_zero h l 24 4 (by omega)]; rfl
  have mg : (tHome h l).ctx.readNat 0x100800 4 = 0x53444731 := by
    rw [Ctx.readNat, show 0x100800 = 0x100800 + 0 from rfl, tHome_record h l 0 4 (by omega), hl, List.drop_zero, List.take_left' (length_toBytes _ _)]
    decide
  have rest : l.drop 4 = toBytes 12 0 ++ sha384 tSlot := by rw [hl]; exact List.drop_left' (length_toBytes _ _)
  have sq : (tHome h l).ctx.readNat 0x100804 4 = 0 := by
    rw [Ctx.readNat, show 0x100804 = 0x100800 + 4 from rfl, tHome_record h l 4 4 (by omega), rest, List.take_append_of_le_length (by simp)]
    decide
  have dg : (tHome h l).ctx.read 0x100810 48 = sha384 tSlot := by
    rw [show 0x100810 = 0x100800 + (4 + 12) from rfl, tHome_record h l _ 48 (by omega), ← List.drop_drop, rest, List.drop_left' (length_toBytes _ _),
      ← length_sha384 tSlot, List.take_length]
  have zh : (tHome h l).ctx.read 0 16384 = tSlot := tHome_zero h l 0 16384 (by omega)
  have zw : (tHome h l).ctx.read 0x200000 16384 = tSlot := tHome_zero h l 0x200000 16384 (by omega)
  clear hl rest
  have hd := tHome_dev h l
  have hr : (tHome h l).ctx.res = (tRes (tHomeRes h)).ctx.res := by rw [Ctx.res, hd]; rfl
  have hw : (tHome h l).ctx.res.ward = 24 ∧ (tHome h l).ctx.res.removed = [3] := by rw [hr]; exact ⟨rfl, rfl⟩
  refine ⟨by rw [inJob, hr, hd]; rfl, by rw [← State.ctx_dev, hd]; rfl, by rw [wardRemoved, hw.1, hw.2]; rfl, ?_, ?_, ?_⟩
  · obtain ⟨h6, h7⟩ : (tHome h l).ctx.res.committedStep = 0 ∧ (tHome h l).ctx.res.reformStep = 0 := by rw [hr]; exact ⟨rfl, rfl⟩
    obtain ⟨h0, h1, h2, h3, h4, h5⟩ : (tHome h l).ctx.res.committedSlot = 0 ∧ (tHome h l).ctx.res.restartAddr = 0x100000 ∧
        (tHome h l).ctx.res.valid = true ∧ (tHome h l).ctx.res.seq = 0 ∧ (tHome h l).ctx.res.slotPages = 1 ∧ (tHome h l).ctx.res.homeBase = 0 := by
      rw [hr]; exact ⟨rfl, rfl, rfl, rfl, rfl, rfl⟩
    simp only [homeOk, homeSlot, h0, h1, h2, h3, h4, h5, h6, h7, Nat.zero_mul, Nat.zero_add, Nat.mul_zero, Nat.add_zero, Nat.reduceAdd, z24, mg, sq,
      show sheafBytes 0 = 16384 from rfl, zh, dg, beq_self_eq_true, Bool.and_true, Nat.one_mul, Nat.reduceLeDiff, decide_true]
  · rw [← State.ctx_dev, hd]
    simp only [tRes, tState, tHomeRes]
  · obtain ⟨h0, h1, h2, h3⟩ : (tHome h l).ctx.res.wards = [{ valid := true }] ∧ (tHome h l).ctx.res.seq = 0 ∧ (tHome h l).ctx.res.slotPages = 1 ∧
        (tHome h l).ctx.res.wardBase = 0x200000 := by rw [hr]; exact ⟨rfl, rfl, rfl, rfl⟩
    have hf : (List.range 2).find? (fun i => (([{ valid := true }] : List SlotSt).getD i {}).valid && (([{ valid := true }] : List SlotSt).getD i {}).seq == 0) = some 0 := by
      decide
    simp only [wardOk, wardSlot, h0, h1, h2, h3, hf, Nat.zero_mul, Nat.add_zero]
    rw [show sheafBytes (([{ valid := true }] : List SlotSt).getD 0 {}).pages = 16384 from rfl, zw]
    rfl

/-! ### Faults -/

/-- Power is good, no reset is held, and the collectors act if `armed`. -/
def tFault (armed : Bool) (colls : Tab Coll) : State :=
  tState { pins := { pwrGood := true, coldRst := false }, boot := { armed := armed, stage := 9 }, colls := colls, slow := 7 }
def tEvent (coll source : Nat) (causes : List Nat) : FaultEvent := { coll := coll, source := source, causes := causes.map (fun c => { cause := c, unit := 7, ident := 3 }) }
theorem wit_fault_event :
    (∀ b ∈ [true, false], let s := tFault b []
      collectorsLive s.ctx = true ∧ s.dev.boot.armed = b ∧ s.dev.safe.safe = false ∧ episodeOf s.ctx 3 41 = none) ∧
    (tEvent 3 41 [0]).wf = true ∧ causeClass 3 41 0 = 4 ∧ (tEvent 3 15 [4]).wf = true ∧ (tEvent 3 15 [6]).wf = true ∧ (tEvent 3 15 [0, 3]).wf = true ∧
    (tEvent 3 47 [0]).wf = true ∧ (tEvent 4 16 [0]).wf = true ∧
    (let e : FaultEvent := { coll := 3, source := 15, causes := [{ cause := 6, unit := 7, ident := 2047 }, { cause := 4, unit := 0, ident := 5 }] }
     e.wf = true ∧ unitOfCore 2047 = 128 * 3 + 8 * 15 + 7) ∧
    (let s0 := tFault true []
     let s : State := { s0 with dev := { s0.dev with safe := { safe := true } } }
     collectorsLive s.ctx = true ∧ s.dev.safe.safe = true) := by decide +kernel
/-- A FATAL pulse of an armed package asserts SAFE_N and releases READY (R501, Table 14-7). -/
theorem test_fatal :
    let t := (tFault true []).run (faultEventOp (tEvent 3 41 [0]))
    t.dev.safe.safe = true ∧ t.dev.pins.safe = true ∧ t.dev.pins.ready = false ∧ bit (t.ctx.coll 3).status.toNat 41 = true := by decide +kernel
/-- A unit's corrected memory error sets bit 7·unit of its cluster's register (Table 14-12) and opens no episode. -/
theorem test_corrected :
    let t := (tFault true [(3, { thresh := [(15, (255, 1))] })]).run (faultEventOp (tEvent 3 15 [0]))
    bit (Tab.get 0 (t.ctx.coll 3).clerr 15).toNat 49 = true ∧ (t.ctx.coll 3).episodes = [] := by decide +kernel
def tEpisode : Episode := { level := 1, ceiling := 3 }
theorem wit_episodes :
    (let s := tFault true [(3, { episodes := [(47, tEpisode)], escTimer := 7 }), (4, { episodes := [(4, tEpisode)] })]
     sourceOk 3 47 = true ∧ episodeOf s.ctx 3 47 = some tEpisode ∧ tEpisode.timer = true ∧ (s.ctx.coll 3).escTimer ≤ s.dev.slow - tEpisode.since ∧
     collectorsLive s.ctx = true ∧ (∀ l, l < 6 → bits (47 + 64 * l) 6 3 < 6 ∧ bits (47 + 64 * l) 0 6 = 47) ∧ bit 47 9 = false ∧
     episodeOf s.ctx 3 (bits 46 0 6) = none ∧ bit (512 + 4) 9 = true ∧ bits (512 + 4) 0 6 = 4 ∧ episodeOf s.ctx 4 (bits 516 0 6) = some tEpisode ∧
     episodeOf s.ctx 4 (bits 515 0 6) = none ∧ bit 515 9 = true) := by decide +kernel
/-- RELEASE lets a core frozen by the source go on into an access fault (R499). -/
theorem test_ack_release :
    let s : State := tState { pins := { pwrGood := true, coldRst := false }, cores := [(2093, { frozen := true, frozenBy := 4 })] }
    let k := (s.run (fcAckReleaseOp (512 + 4))).ctx.core 2093
    k.frozen = false ∧ k.faultDue = true := by decide +kernel
theorem wit_comparators :
    (let s := tFault true []
     s.dev.pins.pwrGood = true ∧ (∀ d, d < 5 → thermalOf s.ctx d = false) ∧ supplyWatched s.ctx = true ∧ (∀ r, r < 7 → supplyOf s.ctx r = false) ∧
     collectorsLive s.ctx = true ∧ collectorsLive State.reset.ctx = false ∧ s.dev.safe.safe = false ∧ episodeOf s.ctx 3 45 = none) ∧
    (let s : State := tState { dies := [(3, { locked := true, pllLost := true, thermal := true, supply := true })], stw := { locked := true },
                               safe := { safe := true, thermal := true, supply := [6], pllLost := true } }
     (s.ctx.die 3).locked = true ∧ s.dev.stw.locked = true ∧ thermalOf s.ctx 3 = true ∧ thermalOf s.ctx 4 = true ∧ supplyOf s.ctx 3 = true ∧
     supplyOf s.ctx 6 = true ∧ (s.ctx.die 3).pllLost = true ∧ s.dev.safe.pllLost = true ∧
     ∀ u, u < 512 → (s.ctx.unit u).ve.entries.all (fun e => !e.active || e.lanes == 0) = true) ∧
    (∀ k, k < 3 → let s : State := tState { safe := { safe := true, fallow := 5, recoveryLimit := k, recoveryCount := 1 }, slow := 5 }
      s.dev.safe.safe = true ∧ s.dev.safe.held = false ∧ s.dev.safe.leaving = false ∧ anyComparator s.ctx = false ∧
      s.dev.safe.fallow ≤ s.dev.slow - s.dev.safe.since ∧ s.dev.safe.recoveryLimit = k ∧ s.dev.safe.recoveryCount = 1) := by decide +kernel
/-- At the recovery limit the package is held in the safe state (R505). -/
theorem test_recovery_limit :
    let t := (tState { safe := { safe := true, recoveryLimit := 1, recoveryCount := 1 } }).run fallowTimerOp
    t.dev.safe.held = true ∧ t.dev.safe.safe = true := by decide +kernel

/-! ### Resets and start-up -/

/-- Power is good and no reset is held; start-up is at a stage. -/
def tBoot (b : BootSt) (mem : List Host.Cell) : State := { tState { pins := { pwrGood := true, coldRst := false }, boot := b, slow := 9 } with mem := mem }
theorem wit_package_resets :
    (let s := tBoot {} []
     s.dev.pins.coldRst = false ∧ s.dev.pins.pwrGood = true ∧ s.dev.safe.held = false ∧ resetHeld s.ctx = false) ∧
    (State.reset.dev.pins.coldRst = true ∧ State.reset.dev.pins.pwrGood = false ∧ resetHeld State.reset.ctx = true ∧ State.reset.dev.safe.held = false) ∧
    (tState { safe := { held := true } }).dev.safe.held = true ∧
    (let s0 := tBoot {} []
     let s : State := { s0 with dev := { s0.dev with cores := [(2069, { load := .loaded })] } }
     bit 1 0 = true ∧ stwMgmtRuns s.ctx = true ∧ resetHeld s.ctx = false ∧ s.dev.safe.held = false) := by decide +kernel
/-- A cold reset of 100 cycles loses what LPDDR5X and unit memory held, not the NVM (R531). -/
theorem test_cold_reset :
    ((tBoot {} [(7, 1), (umBase 511, 1), (nvmBase + 9, 1)]).run (coldRstOp 100)).mem = [(nvmBase + 9, 1)] ∧
    ((tBoot {} [(7, 1)]).run (coldRstOp 9)).mem = [(7, 1)] := by decide +kernel
theorem wit_dies_units :
    (let s := tBoot {} []
     (15 < 16 ∧ resetHeld s.ctx = false ∧ s.dev.safe.safe = false ∧ (s.ctx.die 3).preset = 0)) ∧
    (∀ k, 1 ≤ k → k < 3 → let s := tState { dies := [(3, { preset := k })] }
     (s.ctx.die 3).preset = k ∧ s.dev.safe.safe = false ∧ (∀ r, r < 4 → (s.ctx.loader (2048 + 4 * 3 + r)).active = false) ∧ s.dev.safe.leaving = false ∧
     (∀ e, e < 4 → e ≠ 3 → (s.ctx.die e).preset = 0)) ∧
    (tState { safe := { leaving := true } }).dev.safe.leaving = true ∧
    (let s0 := tBoot {} []
     let s : State := { s0 with dev := { s0.dev with job := { running := true }, units := [(511, { resetting := true })] } }
     resetHeld s.ctx = false ∧ resetHeld State.reset.ctx = true ∧ bit 255 7 = true ∧ 128 * 3 + 255 % 128 = 511 ∧ s.dev.job.running = true ∧ (s.ctx.unit 511).retired = false ∧ (s.ctx.die 3).preset = 0 ∧
     (s.ctx.unit 511).resetting = true ∧ (s.ctx.die (dieOfUnit 511)).preset ≠ 1 ∧ (tState {}).dev.job.running = false) := by decide +kernel
/-- A unit in service is not reset while a job runs (R599). -/
theorem test_ureset_refused :
    let s := tBoot {} []
    let t := ({ s with dev := { s.dev with job := { running := true } } } : State).run (clkUresetOp 3 255)
    (t.ctx.die 3).uresetRefused = true ∧ (t.ctx.unit 511).resetting = false := by decide +kernel
/-- An NVM whose only directory copy is copy 0, with MAGIC, a CRC of four bytes, and nothing else. -/
def tMagic : State := tBoot { stage := 2 } (tAt nvmBase (toBytes 4 0x4E564431))
def tNvm (crc : List Byte) : State := tMagic.run (fun c => c.write (dirBase 0 + 4092) crc)
theorem tNvm_byte (l : List Byte) (a : Nat) : (tNvm l).ctx.byte a = (tMagic.ctx.write (dirBase 0 + 4092) l).byte a :=
  State.byte_run' tMagic (fun c => c.write (dirBase 0 + 4092) l) a (Ctx.write_mem _ _ _)
theorem tNvm_crc (l : List Byte) : (tNvm l).ctx.read (dirBase 0 + 4092) l.length = l := by
  have h := Ctx.read_write tMagic.ctx (dirBase 0 + 4092) l
  simpa only [Ctx.read, tNvm_byte] using h
/-- A read beside the CRC finds what MAGIC alone left. -/
theorem tNvm_read (l : List Byte) (a n : Nat) (ha : a + n ≤ dirBase 0 + 4092 ∨ dirBase 0 + 4096 ≤ a) (hl : l.length = 4) :
    (tNvm l).ctx.read a n = tMagic.ctx.read a n := by
  refine List.ext_getElem (by simp [Ctx.read]) (fun i h1 h2 => ?_)
  have hi : i < n := by simpa [Ctx.read] using h1
  simp only [Ctx.read, List.getElem_map, List.getElem_range, tNvm_byte, Ctx.byte_write]
  rw [if_neg (by omega)]
theorem bytes4 (x : Nat) (h : x < 2 ^ 32) : ofBytes (toBytes 4 x) = x := by
  have t : toBytes 4 x = [BitVec.ofNat 8 x, BitVec.ofNat 8 (x >>> 8), BitVec.ofNat 8 (x >>> 16), BitVec.ofNat 8 (x >>> 24)] := rfl
  rw [t]
  simp only [ofBytes, BitVec.toNat_ofNat, Nat.shiftRight_eq_div_pow]
  omega
theorem crc_lt (m : List Byte) : crc32c m < 2 ^ 32 := by
  have hb : ∀ n x, x < 2 ^ 32 → crcByte 0x82F63B78 n x < 2 ^ 32 := by
    intro n
    induction n with
    | zero => intro x h; exact h
    | succ n ih =>
      intro x h
      rw [crcByte]
      refine ih _ ?_
      split
      · exact Nat.xor_lt_two_pow (by omega) (by decide)
      · omega
  have hf : ∀ (l : List Byte) x, x < 2 ^ 32 → l.foldl (fun x b => crcByte 0x82F63B78 8 (x ^^^ b.toNat)) x < 2 ^ 32 := by
    intro l
    induction l with
    | nil => intro x h; exact h
    | cons b l ih => intro x h; exact ih _ (hb _ _ (Nat.xor_lt_two_pow h (by have := b.isLt; omega)))
  exact Nat.xor_lt_two_pow (hf _ _ (by decide)) (by decide)
theorem wit_directory (l : List Byte) (hl : l = toBytes 4 (crc32c (tMagic.ctx.read (dirBase 0) 4092))) :
    stageOpen (tNvm l).ctx 2 = true ∧ chooseDir (tNvm l).ctx = some 0 ∧ chooseDir (tBoot { stage := 2 } []).ctx = none := by
  have h4 : l.length = 4 := by rw [hl]; exact length_toBytes _ _
  have rd (a n : Nat) (ha : a + n ≤ dirBase 0 + 4092 ∨ dirBase 0 + 4096 ≤ a) := tNvm_read l a n ha h4
  have body := rd (dirBase 0) 4092 (by omega)
  have magic : (tNvm l).ctx.readNat (dirBase 0) 4 = 0x4E564431 := by
    rw [Ctx.readNat, rd _ _ (by omega)]; decide +kernel
  have zero : ∀ o ∈ [8, 12, 16, 20, 24, 28, 32], (tNvm l).ctx.readNat (dirBase 0 + o) 4 = 0 := by
    intro o ho
    have ho' : 8 ≤ o ∧ o ≤ 32 := by simp at ho; omega
    rw [Ctx.readNat, rd _ _ (by omega)]
    revert o
    decide +kernel
  have other : (tNvm l).ctx.readNat (dirBase 1) 4 = 0 := by
    rw [Ctx.readNat, rd _ _ (by simp only [dirBase]; omega)]; decide +kernel
  have crc : (tNvm l).ctx.readNat (dirBase 0 + 4092) 4 = crc32c ((tNvm l).ctx.read (dirBase 0) 4092) := by
    have e : (tNvm l).ctx.read (dirBase 0 + 4092) 4 = l := by have := tNvm_crc l; rwa [h4] at this
    rw [Ctx.readNat, e, body, hl, bytes4 _ (crc_lt _)]
  have ok0 : dirOk (tNvm l).ctx 0 = true := by
    simp only [dirOk, Nat.add_zero, magic, crc, zero 8 (by decide), zero 12 (by decide), zero 16 (by decide), zero 20 (by decide), zero 24 (by decide),
      zero 28 (by decide), zero 32 (by decide), beq_self_eq_true, Bool.true_and]
    decide +kernel
  have ok1 : dirOk (tNvm l).ctx 1 = false := by simp [dirOk, other]
  have hd : (tNvm l).ctx.dev = tMagic.dev := Ctx.write_dev _ _ _
  refine ⟨?_, ?_, by decide +kernel⟩
  · have e (c : Ctx) (h : c.dev = tMagic.dev) : stageOpen c 2 = true := by simp only [stageOpen, resetHeld, h]; rfl
    exact e _ hd
  · simp only [chooseDir, ok0, ok1]
theorem wit_start_up :
    (∀ n, 1 ≤ n → n < 9 → stageOpen (tBoot { stage := n } []).ctx n = true) ∧
    (let s := tBoot { stage := 2, cold := false } (tAt nvmBase (toBytes 4 0x4E564431))
     [dirField s.ctx 36 1 % 2, 1 - dirField s.ctx 36 1 % 2].find? (slotPasses s.ctx) = none) ∧
    (let s := tBoot { stage := 3 } []
     (s.ctx.die 3).locked = false ∧ s.dev.stw.locked = false ∧ s.dev.boot.lockTimeout ≤ s.dev.slow - s.dev.boot.stageAt) ∧
    (∀ k, k < 4 → (tBoot { stage := 4, sub := k } []).dev.boot.sub = k) ∧ (tBoot { stage := 5, sub := 1 } []).dev.boot.sub = 1 ∧
    ([0, 0, 0, 0, 0, 0, 0, 1980].all (fun v => decide (v ≤ 1980)) = true) ∧ strapLevel 0 < 3 ∧
    (∀ k, k < 32 → (List.replicate 32 128).getD k 0 = 128) ∧ (∀ k, k < 128 → 8 ≤ (List.replicate 128 8).getD k 0) ∧
    imageOk (store (imageCopy 0) [] (tBoot { stage := 4, sub := 3 } []).ctx) (imageCopy 0) = false ∧
    Clean (tBoot { stage := 4 } []) ∧ (tBoot { stage := 8 } []).dev.boot.readyEver = false := by unfold Clean; decide +kernel
theorem wit_fast_path : [0, 1].find? (copyMatches (tBoot { stage := 4 } []).ctx) = some 0 := by decide +kernel
/-- The strap levels of Table 19-7 at their ends, and a boot ROM that finds STRAP0 at a reserved level: it stops with code 1 (Table 15-2). -/
theorem test_strap : [99, 100, 299, 300, 500, 1399, 1400].map strapLevel = [0, 1, 1, 2, 3, 6, 7] ∧
    (let t := (tBoot { stage := 1 } []).run (bootRomOp [600, 0, 0, 0, 0, 0, 0, 0] 0 0)
     t.dev.boot.stopped = true ∧ t.dev.boot.error = 1) := by decide +kernel
/-- CRC-32C as its standard's check value gives it. -/
theorem test_crc : crc32c [0x31, 0x32, 0x33, 0x34, 0x35, 0x36, 0x37, 0x38, 0x39] = 0xE3069283 := by decide +kernel
/-- The loader of core 2093 at work, with a group of `n` segments. -/
def tLoad2 (l : Loader) (mem : List Host.Cell) : State := tBoot { loaders := [(2093, { l with active := true })] } mem
def tSegment (last good : Bool) : List Byte :=
  toBytes 6 0 ++ [if last then 1 else 0, 0] ++ toBytes 4 0 ++ [2, 0] ++ toBytes 14 0 ++ toBytes 4 (if good then 0x66a2921 else 0) ++ [7, 8]
theorem wit_loaders :
    (let s := tLoad2 {} []
     loaderRuns s.ctx 2093 = true ∧ (s.ctx.loader 2093).gleaning = false ∧ ofBytes (((tSegment false true).drop 4).take 2) = (s.ctx.loader 2093).group ∧
     bit (ofBytes (((tSegment true true).drop 6).take 1)) 0 = true ∧ drillTurn s.ctx 2093 = true ∧ groupCount s.ctx 0 0 ≤ (s.ctx.loader 2093).next ∧
     s.ctx.readNat ((s.ctx.loader 2093).plan + 8) 4 ≤ s.dev.slow - (s.ctx.loader 2093).since) ∧
    segCrcOk (tSegment false true) = true ∧ segCrcOk (tSegment false false) = false ∧
    (∀ k, k < 2 → let s := tLoad2 { gleaning := true, segs := 0x1000 } (tAt 68 [1] ++ tAt 0x1000 (tSegment false (k == 1)))
     (groupSeqs s.ctx (s.ctx.loader 2093)).contains 0 = true ∧ (s.ctx.loader 2093).has 0 = false ∧ (s.ctx.loader 2093).tried.contains 0 = false ∧ Clean s ∧
     segCrcOk (s.bytes 0x1000 4128) = decide (k = 1)) := by unfold Clean; decide +kernel
/-- The loader of core 2093 about to take the only segment of its group's broadcast, or of group 0's with its own group 1. -/
def tDrill (good : Bool) (group : Nat) : State :=
  tLoad2 { segs := 0x1000, group := group } (tAt (68 + 384 * group) [1] ++ tAt 0x1000 (tSegment false good))
theorem wit_drill :
    (∀ k, k < 2 → let s := tDrill (k == 1) 0
      let l := s.ctx.loader 2093
      drillTurn s.ctx 2093 = true ∧ l.gleaning = false ∧ l.next < groupCount s.ctx l.plan l.group ∧ l.segs + 4128 * (groupFirst s.ctx l.plan l.group + l.next) = 0x1000 ∧
      Clean s) ∧
    (∀ k, k < 2 → let s := tDrill true k
      let l := s.ctx.loader 2093
      drillTurn s.ctx 2093 = true ∧ l.next < groupCount s.ctx l.plan l.group ∧
      (ofBytes (s.bytes 0x1004 2) = l.group ↔ k = 0)) := by unfold Clean; decide +kernel
theorem wit_drill_crc : ∀ k, k < 2 → segCrcOk ((tDrill (k == 1) 0).bytes 0x1000 4128) = decide (k = 1) := by decide +kernel
/-- A group without segments whose digest is, or is not, that of no bytes: its load is over. -/
theorem wit_load_complete :
    (∀ k, k < 2 → let s := tLoad2 { gleaning := true, attempt := 3 } (if k = 1 then tAt 72 (toBytesBE 48 0x38b060a751ac96384cd9327eb1b1e36a21fdb71114be07434c0cc7bf63f6e1da274edebfe76f65fbd51ad2f14898b95b) else [])
     loaderRuns s.ctx 2093 = true ∧ (groupSeqs s.ctx (s.ctx.loader 2093)).all (fun q => (s.ctx.loader 2093).has q || (s.ctx.loader 2093).tried.contains q) = true ∧
     (sha384 [] == s.ctx.read (groupAt (s.ctx.loader 2093).plan (s.ctx.loader 2093).group + 8) 48) = decide (k = 1) ∧ (s.ctx.loader 2093).attempt = 3) ∧
    ({ attempt := 1 } : Loader).attempt ≠ 3 := by decide +kernel
/-- A good segment's two bytes stand in the core's boot window. -/
theorem test_segment : ((tLoad2 {} []).run (segTake 2093 (tSegment false true))).bytes (bootWindow 23) 2 = [7, 8] := by decide +kernel

/-! ### The steward die and its host -/

/-- A powered package with its management cores, die management core 1 and application core 0 loaded and the PCIe link trained. -/
def tHost (stw : StwSt) (sec : SecSt) (job : JobSt) (mem : List Host.Cell) : State := { tState {
  pins := { pwrGood := true, coldRst := false }, boot := { stage := 9 }, stw := { stw with width := 16, numVfs := 8 }, sec := sec, job := job
  cores := [(2065, { load := .loaded }), (2068, { load := .loaded }), (2070, { load := .loaded })] } with mem := mem }
theorem wit_masters_act :
    ∀ m ∈ [Master.mgmt 0, .app 0, .dieMgmt 1, .pf, .vf 8], m.wf = true ∧ masterActs (tHost {} {} {} []).ctx m = true := by decide +kernel
theorem wit_queue_pointers :
    (∀ m ∈ [Master.mgmt 0, .app 0, .pf, .vf 8], mayWrite (tHost {} {} {} []).ctx m .steward (0x40200 + 8 * 7) = true ∧
      mayWrite (tHost {} {} {} []).ctx m .steward (0x40240 + 8 * 7) = true) ∧
    (let p := (tHost { pairs := [(7, { log2 := 4, rsizeLog2 := 12, head := 0xFFFFFFF8 })] } {} {} []).ctx.pair 7
     2 ^ p.log2 < (9 + 2 ^ 32 - p.head) % 2 ^ 32 ∧ (8 + 2 ^ 32 - p.head) % 2 ^ 32 ≤ 2 ^ p.log2 ∧
     ringSize p < (p.write + 2 ^ 32 - 1) % 2 ^ 32 ∧ (p.write + 2 ^ 32 - 0xFFFFF000) % 2 ^ 32 ≤ ringSize p) ∧
    (∀ on : Bool, let s := tHost { pairs := [(7, { enable := on })] } {} {} []
     stwMgmtRuns s.ctx = true ∧ (s.ctx.pair 7).enable = on) := by decide +kernel
/-- A TAIL eight past HEAD over the wrap is taken, one 17 past it is ignored with QERR (R547). -/
theorem test_qptr :
    let s := tHost { pairs := [(7, { log2 := 4, head := 0xFFFFFFF8 })] } {} {} []
    ((s.run (stwQptrTailOp .pf 7 0)).ctx.pair 7).tail = 0 ∧ ((s.run (stwQptrTailOp .pf 7 9)).ctx.pair 7).qerr = true := by decide +kernel
theorem wit_attest :
    (let s := tHost {} {} {} []
     mayWrite s.ctx .pf .steward 0x10008 = true ∧ (2 ^ 63 + 1) % 2 = 1 ∧ s.dev.sec.busy = false) ∧
    (∀ on : Bool, let s := tHost {} { busy := true, asker := some .pf, pufOk := on, target := 1 } {} []
     s.dev.sec.busy = true ∧ s.dev.sec.asker = some .pf ∧ s.dev.sec.pufOk = on ∧ reportOk s.ctx .pf s.dev.sec.target 2400 = true ∧
     windowHeld s.ctx s.dev.sec.target = false ∧ firstProtected s.ctx s.dev.sec.target 2400 = none ∧ Clean s) ∧
    (let s := tHost {} { busy := true, asker := some (.vf 1), pufOk := true } {} []
     s.dev.sec.asker = some (.vf 1) ∧ reportOk s.ctx (.vf 1) s.dev.sec.target 2400 = false) := by unfold Clean; decide +kernel
theorem wit_register_refused :
    (place 0xF00000010008 = .stewardReg 0x10008 ∧ sizeOk 8 = true ∧ ∀ reg ∈ [0x10008, 0x10004],
      mayWrite (tHost {} {} {} []).ctx (.vf 1) .steward reg = false) ∧
    place 0xF00400000000 = .dieReg 3 0 ∧ (∀ reg i, regFind (tHost {} {} {} []).ctx .steward 0x10008 8 = some (reg, i) →
      mayWrite (tHost {} {} {} []).ctx (.vf 1) .steward reg = false) := by
  refine ⟨by decide +kernel, by decide +kernel, fun reg i h => ?_⟩
  have e : (regFind (tHost {} {} {} []).ctx .steward 0x10008 8).map (fun x => x.1) = some 0x10008 := by decide +kernel
  rw [h] at e
  cases e
  decide
theorem wit_nonce :
    ∀ k, k < 6 → ∀ b, b = 0 ∨ b = 4 → place (0xF00000010080 + 8 * k + b) = .stewardReg (0x10080 + 8 * k + b) ∧
      mayWrite (tHost {} {} {} []).ctx (.mgmt 0) .steward (0x10080 + 8 * k) = true := by
  have h : ∀ k, k < 6 → ∀ b ∈ [0, 4], place (0xF00000010080 + 8 * k + b) = .stewardReg (0x10080 + 8 * k + b) ∧
      mayWrite (tHost {} {} {} []).ctx (.mgmt 0) .steward (0x10080 + 8 * k) = true := by decide +kernel
  exact fun k hk b hb => h k hk b (by simpa using hb)
/-- LPDDR5X byte 8, queue RAM and boot windows answer an application core; unit memory answers a management core only. -/
theorem wit_core_memory :
    (let s := tHost {} {} {} []
     Clean s ∧ s.ctx.coreRuns 2070 = true ∧ (s.ctx.core 2070).faultDue = false ∧ s.ctx.coreRuns 2065 = true ∧ s.ctx.coreRuns 2068 = true ∧
     (∀ o, place 8 ≠ .stewardReg o) ∧ (∀ d o, place 8 ≠ .dieReg d o) ∧
     (∀ w, appMemory s.ctx 0 w 8 8 = true ∧ appMemory s.ctx 0 w (umBase 0) 8 = false ∧ mgmtMemory s.ctx 2065 w (umBase 0) 8 = true ∧
       mgmtMemory s.ctx 2065 w (bootWindow 0) 8 = false) ∧
     windowHeld s.ctx (umBase 0) = false ∧ windowHeld s.ctx 8 = false ∧ firstProtected s.ctx 8 8 = none) := by
  refine ⟨by unfold Clean; decide +kernel, by decide +kernel, by decide +kernel, by decide +kernel, by decide +kernel, ?_, ?_,
    by decide +kernel, by decide +kernel, by decide +kernel, by decide +kernel⟩
  · exact fun o h => by have e : place 8 = .lpddr := by decide +kernel
                        rw [e] at h; cases h
  · exact fun d o h => by have e : place 8 = .lpddr := by decide +kernel
                          rw [e] at h; cases h
theorem wit_pcie :
    (let s := tHost { vfwin := [(8, (1, 1))], pairs := [(7, { qbase := 64, log2 := 0, rbase := 4096, rsizeLog2 := 12 })] } {} {} []
     masterActs s.ctx (pcieMaster 0) = true ∧ masterActs s.ctx (pcieMaster 8) = true ∧ functionThere s.ctx 8 = true ∧
     bar2 s.ctx 8 65528 8 = some 131064 ∧ bar2 s.ctx 8 65529 8 = none ∧ bar4Ok s.ctx 8 120 8 = true ∧ bar4Ok s.ctx 8 121 8 = false ∧
     (∀ w, appLpddr s.ctx w 131064 8 = true) ∧ firstProtected s.ctx 131064 8 = none ∧ resetHeld s.ctx = false ∧ 0 ≤ s.dev.stw.maxGen) ∧
    (∀ on : Bool, (tHost { busMaster := on } {} {} []).dev.stw.busMaster = on) ∧ (tHost {} {} {} []).dev.srv.t2Form = 0 ∧
    (tState { srv := { t2Form := 1 }, stw := { busMaster := true } }).dev.srv.t2Form ≠ 0 := by decide +kernel
/-- The NVM with no directory: only directory copy 0 and the slot at 0, here of length 0, are guarded. -/
theorem wit_nvm :
    let s := tHost {} {} {} []
    stwMgmtRuns s.ctx = true ∧ resetHeld s.ctx = false ∧ nvmRefused s.ctx 0xFFF 1 = true ∧ nvmRefused s.ctx 0x1000 1 = false := by decide +kernel
theorem wit_bridge_jtag :
    (bridgeRuns (tHost {} {} {} []).ctx = true) ∧ (∀ on : Bool, (tState { boot := { armed := on } }).dev.boot.armed = on ∧
    (tState { pins := { coldRst := on } }).dev.pins.coldRst = on) := by decide +kernel
/-- The bridge reads JOB_STATUS, FF00H after reset, and moves on; outside every register it reads ones (R580, Table 20-9). -/
theorem test_bridge :
    let t := (tHost { bridgeAddr := 0xF00100150000, ucie := [(0, 16)] } {} {} []).run i3cBridgeReadOp
    t.dev.stw.bridge.value = 0xFF00 ∧ t.dev.stw.bridgeAddr = 0xF00100150008 ∧ bridgeValue t.ctx 0 = 2 ^ 64 - 1 := by decide +kernel

end Sys2Proof.Machine
end

/-! # The scope of the block: proofs

The control cores' event counters, the form of memory and the values registers read at reset, and the registers that the host's masters write. -/

namespace Sys2Proof.Machine

/-! ### Commands of a control core: what they change -/

/-- Two updates of one core are one. -/
theorem updCore_updCore (c : Ctx) (n : Nat) (f g : CoreSt → CoreSt) : (c.updCore n f).updCore n g = c.updCore n (fun k => g (f k)) := by
  simp [Ctx.updCore, Ctx.core]

/-- A core after an instruction that writes the 32-bit value `v` to `rd`. -/
def CoreSt.retire (rd v : Nat) (k : CoreSt) : CoreSt :=
  { k.setReg rd (BitVec.ofNat 64 (v % 2 ^ 32)) with pc := (k.pc + 4) % 2 ^ 32 }

theorem pcNext_setReg32 (core rd v : Nat) (c : Ctx) : pcNext core (setReg32 core rd v c) = c.updCore core (CoreSt.retire rd v) := by
  simp only [pcNext, setReg32, updCore_updCore, setReg_pc]
  rfl

section
variable {i : Instr} {s : State} {u core : Nat} {op : Ctx → Ctx} (hw : i.wf = true) (he : exec i s = perform i s op)
include hw he

/-- A command that updates a core, and before it changed nothing but unit `u`, changes nothing else. -/
theorem completes_unit_core {c : Ctx} {g : CoreSt → CoreSt} (hop : op s.ctx = c.updCore core g) (hlog : c.log = [])
    (hdev : c.dev = { s.dev with units := c.dev.units }) (hunit : ∀ v, v ≠ u → c.unit v = s.ctx.unit v) :
    Completes i s fun t => OnlyUnitCore u core s t ∧ t.ctx.unit u = c.unit u ∧ t.ctx.core core = g (s.ctx.core core) := by
  have hcore (n : Nat) : c.core n = s.ctx.core n := by rw [Ctx.core, hdev]; rfl
  refine .of_run op hw he ⟨⟨State.run_mem_of_log s op (by rw [hop]; exact hlog), ?_, fun v hv => ?_, fun n hn => ?_⟩, ?_, ?_⟩
  · rw [State.run_dev, hop, Ctx.updCore, hdev]
  · rw [State.run_at_unit, hop, updCore_at_unit, hunit v hv]
  · rw [State.run_at_core, hop, updCore_other c g hn, hcore]
  · rw [State.run_at_unit, hop, updCore_at_unit]
  · rw [State.run_at_core, hop, updCore_same, hcore]

/-- A command that updates one core leaves its unit as it was. -/
theorem completes_updCore {g : CoreSt → CoreSt} (hop : op s.ctx = s.ctx.updCore core g) :
    Completes i s fun t => OnlyUnitCore u core s t ∧ t.ctx.unit u = s.ctx.unit u ∧ t.ctx.core core = g (s.ctx.core core) :=
  completes_unit_core hw he hop rfl rfl fun _ _ => rfl

/-- A command that changes one event counter of a unit leaves the unit's others and the rest of the unit. -/
theorem completes_updEvt {e : Nat} {f : Evt → Evt}
    (hop : op s.ctx = pcNext core (s.ctx.updUnit u (fun x => { x with evts := Tab.upd {} x.evts e f }))) :
    Completes i s fun t => OnlyUnitCore u core s t ∧ Tab.get {} (t.ctx.unit u).evts e = f (Tab.get {} (s.ctx.unit u).evts e) ∧
      (∀ j, j ≠ e → Tab.get {} (t.ctx.unit u).evts j = Tab.get {} (s.ctx.unit u).evts j) ∧
      t.ctx.unit u = { s.ctx.unit u with evts := (t.ctx.unit u).evts } ∧
      t.ctx.core core = { s.ctx.core core with pc := ((s.ctx.core core).pc + 4) % 2 ^ 32 } := by
  obtain ⟨t, ht, honly, hunit, hcore⟩ := completes_unit_core hw he hop rfl rfl fun _ hv => updUnit_other _ _ hv
  rw [updUnit_same] at hunit
  refine ⟨t, ht, honly, ?_, fun j hj => ?_, ?_, hcore⟩
  · rw [hunit, Tab.upd, Tab.get_set_same]
  · rw [hunit, Tab.upd, Tab.get_set_ne _ _ _ hj]
  · rw [hunit]

end

/-! ### The unit-issue instructions on counters (R212, R216, R217) -/

/-- An event counter after an addition (R20, R216). -/
def Evt.add (k : Nat) (e : Evt) : Evt :=
  if 0x7FFFFFFF < e.count + k then { count := 0x7FFFFFFF, sticky := true } else { count := e.count + k, sticky := e.sticky }

theorem addEvt_eq (u i k : Nat) (c : Ctx) : addEvt u i k c = c.updUnit u (fun x => { x with evts := Tab.upd {} x.evts i (Evt.add k) }) := by
  have h (e : Evt) : Evt.add k e = { count := (stick evtTop e.count k).1, sticky := e.sticky || (stick evtTop e.count k).2 } := by
    by_cases ht : 0x7FFFFFFF < e.count + k <;> simp [Evt.add, stick, evtTop, ht]
  simp only [addEvt, Tab.upd, h]

section
variable {c : Ctx} {core : Nat} (hr : c.coreRuns core = true)
include hr

theorem uqWaitOp_runs (rd rs1 rs2 : Nat) :
    let i := (c.core core).reg32 rs1 % 16
    let v := (c.core core).reg32 rs2
    uqWaitOp core rd rs1 rs2 c = c.updCore core (fun k =>
      if v ≤ evtWord c (unitOfCore core) i then k.retire rd (evtWord c (unitOfCore core) i) else { k with stall := .wait i v rd }) := by
  intro i v
  by_cases hv : v ≤ evtWord c (unitOfCore core) i
  · simp [uqWaitOp, hr, ← pcNext_setReg32, i, v, hv]
  · simp [uqWaitOp, hr, i, v, hv]

theorem uqEvtOp_runs (rd rs1 : Nat) :
    uqEvtOp core rd rs1 c = c.updCore core (CoreSt.retire rd (evtWord c (unitOfCore core) ((c.core core).reg32 rs1 % 16))) := by
  simp [uqEvtOp, hr, pcNext_setReg32]

theorem uqQstatOp_runs (rd rs1 : Nat) (hq : (c.core core).reg32 rs1 % 4 ≠ 3) :
    uqQstatOp core rd rs1 c = c.updCore core (CoreSt.retire rd (queueFree c (unitOfCore core) ((c.core core).reg32 rs1 % 4))) := by
  simp [uqQstatOp, hr, hq, pcNext_setReg32]

theorem uqSigOp_runs (rs1 rs2 : Nat) :
    uqSigOp core rs1 rs2 c = pcNext core (c.updUnit (unitOfCore core) (fun x =>
      { x with evts := Tab.upd {} x.evts ((c.core core).reg32 rs1 % 16) (Evt.add ((c.core core).reg32 rs2)) })) := by
  simp [uqSigOp, hr, addEvt_eq]

theorem uqEvclrOp_runs (rs1 : Nat) :
    uqEvclrOp core rs1 c = pcNext core (c.updUnit (unitOfCore core) (fun x =>
      { x with evts := Tab.upd {} x.evts ((c.core core).reg32 rs1 % 16) (fun _ => {}) })) := by
  simp [uqEvclrOp, hr, Tab.upd]

end

theorem waitSatisfiedOp_reached {c : Ctx} {core e v rd : Nat} (hs : (c.core core).stall = .wait e v rd)
    (hh : (c.core core).halted = false) (hf : (c.core core).frozen = false) (hd : c.dieStopped (dieOfCore core) = false)
    (hv : v ≤ evtWord c (unitOfCore core) e) :
    waitSatisfiedOp core c = c.updCore core (fun k => CoreSt.retire rd (evtWord c (unitOfCore core) e) { k with stall := .no }) := by
  simp [waitSatisfiedOp, hs, hh, hf, hd, Nat.not_lt.mpr hv, pcNext_setReg32, updCore_updCore]

/-- Settles O8: each instruction's meaning is one update of its core, and at most of one counter of its unit. -/
theorem eventCountersReadWaitAndCount : Obligations.EventCountersReadWaitAndCount := by
  unfold Obligations.EventCountersReadWaitAndCount
  refine ⟨fun s core rd rs1 rs2 hc hrd h1 h2 => ⟨fun hr => ⟨?wait, ?evt, fun hq => ?qstat⟩, fun e v r hs hh hf hd hv => ?satisfied⟩,
    fun s core rs1 rs2 hc h1 h2 hr => ⟨?sig, ?evclr⟩⟩
  case wait => exact completes_updCore (by simp [Instr.wf, *]) rfl (uqWaitOp_runs hr rd rs1 rs2)
  case evt => exact completes_updCore (by simp [Instr.wf, *]) rfl (uqEvtOp_runs hr rd rs1)
  case qstat => exact completes_updCore (by simp [Instr.wf, *]) rfl (uqQstatOp_runs hr rd rs1 hq)
  case satisfied => exact completes_updCore (by simp [Instr.wf, *]) rfl (waitSatisfiedOp_reached hs hh hf hd hv)
  case sig => exact completes_updEvt (by simp [Instr.wf, *]) rfl (uqSigOp_runs hr rs1 rs2)
  case evclr => exact completes_updEvt (by simp [Instr.wf, *]) rfl (uqEvclrOp_runs hr rs1)

end Sys2Proof.Machine

namespace Sys2Proof.Machine

/-! ### Memory at reset -/

/-- Memory that lists nothing is canonical. -/
theorem Memory.wf_nil : Memory.wf [] := ⟨List.Pairwise.nil, by simp⟩

/-- Settles O5: reset memory lists nothing. -/
theorem resetMemoryIsCanonical : Obligations.ResetMemoryIsCanonical := Memory.wf_nil

/-! ### Registers at reset (R18)

At reset every table of the devices is empty, so a register's value does not depend on the number it is read at: each block is gone through
in the order of its table, a register at a time. -/

/-- A register, where there is one, reads `v`. -/
def Reads (v : Nat) (r : Option (Nat × Nat)) : Prop := ∀ w x, r = some (w, x) → x = v

theorem reads_none (v : Nat) : Reads v none := fun _ _ h => nomatch h

theorem reads_some {v w x : Nat} (h : x = v) : Reads v (some (w, x)) := fun _ _ e => by cases e; exact h

theorem reads_ite {v : Nat} {p : Prop} {_ : Decidable p} {a b : Option (Nat × Nat)} (ha : p → Reads v a) (hb : ¬ p → Reads v b) :
    Reads v (if p then a else b) := by
  split
  · exact ha ‹_›
  · exact hb ‹_›

/-- The first register of a block reads `v`, and so does the rest of the block. -/
theorem reads_cons {v : Nat} {p : Prop} {_ : Decidable p} {w x : Nat} {b : Option (Nat × Nat)} (hx : x = v) (hb : Reads v b) :
    Reads v (if p then some (w, x) else b) := reads_ite (fun _ => reads_some hx) (fun _ => hb)

@[simp] theorem Tab.get_nil {α : Type} (d : α) (k : Nat) : Tab.get d [] k = d := rfl

theorem reset_unit (u : Nat) : State.reset.ctx.unit u = {} := rfl
theorem reset_coll (k : Nat) : State.reset.ctx.coll k = {} := rfl
theorem reset_port (p : Nat) : State.reset.ctx.port p = {} := rfl
theorem reset_linkCfg (d : Nat) : State.reset.ctx.linkCfg d = {} := rfl

/-- Any eight of a string of zero bytes spell zero. -/
theorem ofBytes_zeros (m n k : Nat) : ofBytes (((toBytesBE m 0).drop k).take n) = 0 := by
  have hz (j : Nat) : ofBytes (List.replicate j 0) = 0 := by
    induction j with
    | zero => rfl
    | succ j ih => rw [List.replicate_succ, ofBytes, ih]; rfl
  have hb : toBytesBE m 0 = List.replicate m 0 := by simp [toBytesBE, toBytes, List.map_const']
  rw [hb, List.drop_replicate, List.take_replicate, hz]

theorem bootReg_reset (off : Nat) : Reads (if off = 0 then 0x100000 else 0) (bootReg State.reset.ctx off) := by
  unfold bootReg
  refine reads_ite (fun h => ?_) (fun h => ?_)
  · rw [if_pos h]; exact reads_some rfl
  · rw [if_neg h]
    repeat refine reads_cons rfl ?_
    exact reads_cons (ofBytes_zeros 48 8 _) (reads_none 0)

theorem secReg_reset (off : Nat) : Reads 0 (secReg State.reset.ctx off) := by
  unfold secReg
  exact reads_cons rfl (reads_cons rfl (reads_cons (ofBytes_zeros 48 8 _) (reads_cons rfl (reads_none 0))))

/-- A collector with no episode under way reads level 0 of every source. -/
theorem levelWord_empty (q : Nat) : levelWord {} q = 0 := by
  simp only [levelWord, List.find?_nil]; rfl

/-- A collector that has counted nothing reads 0 of every source. -/
theorem countWord_empty (q : Nat) : countWord {} q = 0 := by
  simp only [countWord, Tab.get_nil]; rfl

theorem collReg_reset (k off : Nat) : Reads 0 (collReg State.reset.ctx k off) := by
  simp only [collReg, pfcStatus, reset_coll, Tab.get_nil, levelWord_empty, countWord_empty]
  refine reads_cons (by split <;> rfl) ?_
  repeat refine reads_cons rfl ?_
  exact reads_none 0

theorem stwClkReg_reset (off : Nat) : Reads 0 (stwClkReg State.reset.ctx off) := by
  unfold stwClkReg
  repeat refine reads_cons rfl ?_
  exact reads_none 0

theorem stwReg_reset (off : Nat) : Reads (if off = 0x10 then 0xFF00 else 0) (stwReg State.reset.ctx off) := by
  by_cases h : off = 0x10
  · subst h; exact reads_some rfl
  · rw [if_neg h]
    unfold stwReg
    refine reads_cons rfl (reads_cons rfl (reads_ite (fun e => absurd e h) fun _ => ?_))
    repeat refine reads_cons rfl ?_
    exact reads_none 0

theorem lpReg_reset (d off : Nat) : Reads 0 (lpReg State.reset.ctx d off) := by
  unfold lpReg
  repeat refine reads_cons rfl ?_
  exact reads_none 0

theorem linkReg_reset (d off : Nat) : Reads 0 (linkReg State.reset.ctx d off) := by
  simp only [linkReg, reset_linkCfg, reset_port, Tab.get_nil]
  refine reads_cons rfl (reads_cons rfl (reads_cons rfl (reads_cons rfl (reads_ite (fun _ => ?_) fun _ => reads_none 0))))
  split
  case h_7 => exact reads_none 0
  all_goals exact reads_some rfl

theorem furReg_reset (d off : Nat) : Reads 0 (furReg State.reset.ctx d off) := by
  unfold furReg
  repeat refine reads_cons rfl ?_
  exact reads_none 0

theorem clkReg_reset (d off : Nat) : Reads 0 (clkReg State.reset.ctx d off) := by
  unfold clkReg
  split
  · exact reads_some rfl
  · exact reads_some rfl
  · exact reads_none 0

theorem jobReg_reset (off : Nat) : Reads (if off = 0 then 0xFF00 else if off = 0x48 then 2 ^ 34 else 0) (jobReg State.reset.ctx off) := by
  by_cases h0 : off = 0
  · subst h0; exact reads_some rfl
  · by_cases h48 : off = 0x48
    · subst h48; exact reads_some rfl
    · rw [if_neg h0, if_neg h48]
      unfold jobReg
      dsimp only
      split
      case h_1 => exact absurd rfl h0
      case h_9 => exact absurd rfl h48
      case h_10 => exact reads_none 0
      all_goals exact reads_some rfl

theorem unitReg_reset (u off : Nat) : Reads (if off = 0x400 ∧ u % 8 = 0 then 4 else 0) (unitReg State.reset.ctx u off) := by
  simp only [unitReg, reset_unit, Tab.get_nil]
  by_cases h : off = 0x400
  · subst h
    refine reads_some ?_
    by_cases hu : u % 8 = 0
    · simp only [isWide, hu]; rfl
    · simp only [isWide, hu, beq_false_of_ne hu]; rfl
  · rw [if_neg (fun e => h e.1)]
    have hmap (lo : Nat) : bits 0 lo 32 = 0 := by simp [bits]
    refine reads_cons rfl (reads_cons rfl (reads_cons (hmap _) (reads_cons rfl (reads_ite (fun e => absurd e h) fun _ => ?_))))
    repeat refine reads_cons rfl ?_
    exact reads_none 0

/-! ### The two register spaces -/

theorem stewardReg_reset (off : Nat) :
    Reads (if off = 0 then 0x100000 else if off = 0x40010 then 0xFF00 else 0) (stewardReg State.reset.ctx off) := by
  unfold stewardReg
  refine reads_ite (fun h => ?boot) fun _ => reads_ite (fun _ => ?sec) fun _ => reads_ite (fun _ => ?coll) fun _ =>
    reads_ite (fun _ => ?clk) fun _ => reads_ite (fun _ => ?stw) fun _ => reads_none _
  case boot => rw [if_neg (show off ≠ 0x40010 by omega)]; exact bootReg_reset off
  case sec => rw [if_neg (by omega), if_neg (by omega)]; exact secReg_reset _
  case coll => rw [if_neg (by omega), if_neg (by omega)]; exact collReg_reset _ _
  case clk => rw [if_neg (by omega), if_neg (by omega)]; exact stwClkReg_reset _
  case stw =>
    have h := stwReg_reset (off - 0x40000)
    rwa [if_neg (show off ≠ 0 by omega), ← if_congr (show off - 0x40000 = 0x10 ↔ off = 0x40010 by omega) rfl rfl]

/-- Below the job block a register that reads 0 reads what the die's table says. -/
theorem reads_below_job {off : Nat} {r : Option (Nat × Nat)} (h : off < 0x150000) (hr : Reads 0 r) :
    Reads (if off = 0x150000 then 0xFF00 else if off = 0x150048 then 2 ^ 34 else 0) r := by
  rwa [if_neg (by omega), if_neg (by omega)]

theorem dieReg_reset (d off : Nat) :
    Reads (if off < 0x80000 then (if off % 4096 = 0x400 ∧ (off / 4096) % 8 = 0 then 4 else 0)
      else if off = 0x150000 then 0xFF00 else if off = 0x150048 then 2 ^ 34 else 0) (dieReg State.reset.ctx d off) := by
  unfold dieReg
  by_cases hu : off < 0x80000
  · have h := unitReg_reset (128 * d + off / 4096) (off % 4096)
    rw [if_pos hu, if_pos hu]
    rwa [← if_congr (show off % 4096 = 0x400 ∧ (128 * d + off / 4096) % 8 = 0 ↔ off % 4096 = 0x400 ∧ off / 4096 % 8 = 0 by omega) rfl rfl]
  · rw [if_neg hu, if_neg hu]
    simp only [Bool.and_eq_true, decide_eq_true_eq]
    refine reads_ite (fun _ => reads_below_job (by omega) (collReg_reset _ _)) fun _ =>
      reads_ite (fun _ => reads_below_job (by omega) (lpReg_reset _ _)) fun _ =>
      reads_ite (fun _ => reads_below_job (by omega) (linkReg_reset _ _)) fun _ =>
      reads_ite (fun _ => reads_below_job (by omega) ?routes) fun _ =>
      reads_ite (fun _ => reads_below_job (by omega) (furReg_reset _ _)) fun _ =>
      reads_ite (fun _ => reads_below_job (by omega) (clkReg_reset _ _)) fun _ => reads_ite (fun _ => ?job) fun _ => reads_none _
    case routes => exact reads_cons rfl (reads_none 0)
    case job =>
      have hj := jobReg_reset (off - 0x150000)
      rwa [if_congr (show off - 0x150000 = 0 ↔ off = 0x150000 by omega) rfl
        (if_congr (show off - 0x150000 = 0x48 ↔ off = 0x150048 by omega) rfl rfl)] at hj

/-- Settles O53: the two spaces are their blocks, each of which reads its Reset values. -/
theorem resetLeavesTheResetValues : Obligations.ResetLeavesTheResetValues :=
  ⟨fun off => stewardReg_reset off, fun d off => dieReg_reset d off, rfl⟩

end Sys2Proof.Machine

namespace Sys2Proof.Machine

/-! ### A written register (R640, R642) -/

/-- Fields a write covers whole hold what it wrote. -/
theorem Half.rw_covered {h : Half} {lo n : Nat} (old : Nat) (hm : bits h.mask lo n = 2 ^ n - 1) : h.rw lo n old = bits h.val lo n := by
  have hv : bits h.val lo n < 2 ^ n := Nat.mod_lt _ (by positivity)
  simp only [Half.rw, hm, Nat.xor_self, Nat.and_zero, Nat.zero_or, Nat.and_two_pow_sub_one_eq_mod, Nat.mod_eq_of_lt hv]

/-- What a number keeps above its low 32 bits, and below 64. -/
theorem and_upper_mask (x : Nat) : x &&& 0xFFFFFFFF00000000 = x / 2 ^ 32 % 2 ^ 32 * 2 ^ 32 := by
  rw [show 0xFFFFFFFF00000000 = (2 ^ 32 - 1) <<< 32 from rfl]
  refine Nat.eq_of_testBit_eq fun i => ?_
  rw [Nat.testBit_and, Nat.testBit_shiftLeft, Nat.testBit_two_pow_sub_one, Nat.mul_comm, Nat.testBit_two_pow_mul, Nat.testBit_mod_two_pow,
    Nat.testBit_div_two_pow]
  by_cases hi : 32 ≤ i
  · simp [hi, Bool.and_comm]
  · simp [hi]

/-- Writing the lower half of a 64-bit register leaves its upper half. -/
theorem half_rw_lower {w : Nat} (old : Nat) (hw : w < 2 ^ 32) : (half 0 4 w).rw 0 64 old = old / 2 ^ 32 % 2 ^ 32 * 2 ^ 32 + w := by
  have hm : bits (half 0 4 w).mask 0 64 = 2 ^ 32 - 1 := rfl
  have hv : bits (half 0 4 w).val 0 64 = w := by simp only [half, bits, Nat.shiftRight_zero]; omega
  rw [Half.rw, hm, hv, show (2 ^ 32 - 1) ^^^ (2 ^ 64 - 1) = 0xFFFFFFFF00000000 from rfl, and_upper_mask, Nat.and_two_pow_sub_one_eq_mod,
    Nat.mod_eq_of_lt hw, Nat.mul_comm, Nat.two_pow_add_eq_or_of_lt hw]

/-- Writing its upper half leaves its lower half. -/
theorem half_rw_upper {w : Nat} (old : Nat) (hw : w < 2 ^ 32) : (half 4 4 w).rw 0 64 old = old % 2 ^ 32 + w * 2 ^ 32 := by
  have hm : bits (half 4 4 w).mask 0 64 = 0xFFFFFFFF00000000 := rfl
  have hv : bits (half 4 4 w).val 0 64 = w * 2 ^ 32 := by simp only [half, bits, Nat.shiftRight_zero]; omega
  have hlow : old % 2 ^ 32 < 2 ^ 32 := Nat.mod_lt _ (by decide)
  rw [Half.rw, hm, hv, show 0xFFFFFFFF00000000 ^^^ (2 ^ 64 - 1) = 2 ^ 32 - 1 from rfl, and_upper_mask, Nat.and_two_pow_sub_one_eq_mod,
    Nat.mul_div_cancel _ (by decide), Nat.mod_eq_of_lt hw, Nat.mul_comm, Nat.or_comm, Nat.add_comm, Nat.two_pow_add_eq_or_of_lt hlow]

/-- A register found at its own offset. -/
theorem regFind_of_spaceReg {c : Ctx} {sp : Space} {off n w v : Nat} (h : spaceReg c sp off = some (w, v)) (hn : n = 4 ∨ n = 8)
    (ha : off % n = 0) (hw : n ≤ w) : regFind c sp off n = some (off, w, v, 0) := by
  simp [regFind, h, hn, ha, hw]

/-- The upper half of a register found four bytes on. -/
theorem regFind_upper {c : Ctx} {sp : Space} {off v : Nat} (h : spaceReg c sp off = some (8, v)) (h4 : spaceReg c sp (off + 4) = none)
    (ha : off % 8 = 0) : regFind c sp (off + 4) 4 = some (off, 8, v, 4) := by
  simp [regFind, h, h4, show (off + 4) % 4 = 0 by omega, show (off + 4) % 8 = 4 by omega]

/-! ### A master's write -/

theorem place_steward {off : Nat} (h : off < 0x1000000) : place (0xF00000000000 + off) = .stewardReg off := by
  simp only [place, Bool.and_eq_true, decide_eq_true_eq]
  rw [if_neg (by unfold lpSize; omega), if_neg (by omega), if_neg (by omega), if_neg (by unfold queueRam; omega),
    if_neg (by unfold bootWindow; omega), if_pos (by omega), Nat.add_sub_cancel_left]

/-! The answer to a master changes no register. -/

@[simp] theorem masterAnswer_mem (m : Master) (x : Answer) (c : Ctx) : (masterAnswer m x c).mem = c.mem := by cases m <;> rfl
@[simp] theorem masterAnswer_log (m : Master) (x : Answer) (c : Ctx) : (masterAnswer m x c).log = c.log := by cases m <;> rfl
@[simp] theorem masterAnswer_pair (m : Master) (x : Answer) (c : Ctx) (q : Nat) : (masterAnswer m x c).pair q = c.pair q := by cases m <;> rfl
@[simp] theorem masterAnswer_sec (m : Master) (x : Answer) (c : Ctx) : (masterAnswer m x c).dev.sec = c.dev.sec := by cases m <;> rfl
@[simp] theorem reportOf_masterAnswer (m : Master) (x : Answer) (c : Ctx) : reportOf (masterAnswer m x c) = reportOf c := by cases m <;> rfl

section
variable {c : Ctx} {m : Master} {a n v off : Nat} (hm : masterActs c m = true)
include hm

/-- A write that names a steward register its master may write takes effect there. -/
theorem registerWriteOp_steward {reg w x b : Nat} (hp : place a = .stewardReg off)
    (hf : regFind c .steward off n = some (reg, w, x, b)) (hw : mayWrite c m .steward reg = true) :
    registerWriteOp m a n v c = stewardWrite m reg b n v (masterAnswer m {} c) := by
  simp [registerWriteOp, hm, hp, spaceWrite, hf, hw]

/-- A write at a steward register's own offset. -/
theorem registerWriteOp_own {w x : Nat} (ho : off < 0x1000000) (hs : spaceReg c .steward off = some (w, x)) (hn : n = 4 ∨ n = 8)
    (ha : off % n = 0) (hle : n ≤ w) (hw : mayWrite c m .steward off = true) :
    registerWriteOp m (0xF00000000000 + off) n v c = stewardWrite m off 0 n v (masterAnswer m {} c) :=
  registerWriteOp_steward hm (place_steward ho) (regFind_of_spaceReg hs hn ha hle) hw

/-- A write that names no register, or one its master may not write, is refused. -/
theorem registerWriteOp_refused {sp : Space} (hp : (place a = .stewardReg off ∧ sp = .steward) ∨ ∃ d, place a = .dieReg d off ∧ sp = .die d)
    (hf : ∀ reg i, regFind c sp off n = some (reg, i) → mayWrite c m sp reg = false) :
    registerWriteOp m a n v c = masterRefused m a c := by
  have hs : spaceWrite m sp off n v a c = masterRefused m a c := by
    unfold spaceWrite
    split
    · rfl
    · next reg w x b h => simp [hf reg _ h]
  obtain ⟨hp, rfl⟩ | ⟨d, hp, rfl⟩ := hp
  · simp [registerWriteOp, hm, hp, hs]
  · simp [registerWriteOp, hm, hp, hs]

end

/-! ### The steward's registers that a host writes (Table 20-9) -/

/-- The security block's place in the steward space. -/
theorem spaceReg_sec (c : Ctx) {off : Nat} (h : off < 0x10000) : spaceReg c .steward (0x10000 + off) = secReg c off := by
  rw [spaceReg, stewardReg, if_neg (by omega), if_pos (by omega), Nat.add_sub_cancel_left]

/-- The attachment block's place in the steward space. -/
theorem spaceReg_stw (c : Ctx) {off : Nat} (h : off < 0x400) : spaceReg c .steward (0x40000 + off) = stwReg c off := by
  rw [spaceReg, stewardReg]
  iterate 4 rw [if_neg (by omega)]
  rw [if_pos (by omega), Nat.add_sub_cancel_left]

theorem spaceReg_qptr (c : Ctx) {q : Nat} (hq : q < 8) : spaceReg c .steward (0x40200 + 8 * q) = some (8, qptrWord (c.pair q)) := by
  rw [show 0x40200 + 8 * q = 0x40000 + (0x200 + 8 * q) by omega, spaceReg_stw c (by omega)]
  simp only [stwReg, Bool.and_eq_true, decide_eq_true_eq]
  iterate 8 rw [if_neg (by omega)]
  rw [if_pos (by omega), show (0x200 + 8 * q - 0x200) / 8 = q by omega]

theorem spaceReg_rptr (c : Ctx) {q : Nat} (hq : q < 8) : spaceReg c .steward (0x40240 + 8 * q) = some (8, rptrWord (c.pair q)) := by
  rw [show 0x40240 + 8 * q = 0x40000 + (0x240 + 8 * q) by omega, spaceReg_stw c (by omega)]
  simp only [stwReg, Bool.and_eq_true, decide_eq_true_eq]
  iterate 9 rw [if_neg (by omega)]
  rw [if_pos (by omega), show (0x240 + 8 * q - 0x240) / 8 = q by omega]

theorem spaceReg_nonce (c : Ctx) {k : Nat} (hk : k < 6) : spaceReg c .steward (0x10080 + 8 * k) = some (8, Tab.get 0 c.dev.sec.nonce k) := by
  rw [show 0x10080 + 8 * k = 0x10000 + (0x80 + 8 * k) by omega, spaceReg_sec c (by omega)]
  simp only [secReg, Bool.and_eq_true, decide_eq_true_eq]
  iterate 3 rw [if_neg (by omega)]
  rw [if_pos (by omega), show (0x80 + 8 * k - 0x80) / 8 = k by omega]

/-- No register has the upper half of a nonce word as its own offset. -/
theorem spaceReg_nonce_upper (c : Ctx) {k : Nat} (hk : k < 6) : spaceReg c .steward (0x10080 + 8 * k + 4) = none := by
  rw [show 0x10080 + 8 * k + 4 = 0x10000 + (0x84 + 8 * k) by omega, spaceReg_sec c (by omega)]
  simp only [secReg, Bool.and_eq_true, decide_eq_true_eq]
  iterate 4 rw [if_neg (by omega)]

theorem stewardWrite_qptr (m : Master) {q : Nat} (n v : Nat) (c : Ctx) (hq : q < 8) :
    stewardWrite m (0x40200 + 8 * q) 0 n v c = tailWrite q (v % 2 ^ 32) c := by
  simp only [stewardWrite, Bool.and_eq_true, decide_eq_true_eq]
  iterate 12 rw [if_neg (by omega)]
  rw [if_pos (by omega), if_neg (by omega), show (0x40200 + 8 * q - 0x40200) / 8 = q by omega]

theorem stewardWrite_rptr (m : Master) {q : Nat} (n v : Nat) (c : Ctx) (hq : q < 8) :
    stewardWrite m (0x40240 + 8 * q) 0 n v c = readWrite q (v % 2 ^ 32) c := by
  simp only [stewardWrite, Bool.and_eq_true, decide_eq_true_eq]
  iterate 13 rw [if_neg (by omega)]
  rw [if_pos (by omega), if_neg (by omega), show (0x40240 + 8 * q - 0x40240) / 8 = q by omega]

/-- A context with word `k` of the nonce set. -/
def setNonce (k x : Nat) (c : Ctx) : Ctx := { c with dev := { c.dev with sec := { c.dev.sec with nonce := Tab.set c.dev.sec.nonce k x } } }

@[simp] theorem setNonce_log (k x : Nat) (c : Ctx) : (setNonce k x c).log = c.log := rfl
theorem get_setNonce (k x : Nat) (c : Ctx) : Tab.get 0 (setNonce k x c).dev.sec.nonce k = x := Tab.get_set_same _ _ _ _

theorem stewardWrite_nonce (m : Master) {k : Nat} (b n v : Nat) (c : Ctx) (hk : k < 6) :
    stewardWrite m (0x10080 + 8 * k) b n v c = setNonce k ((half b n v).rw 0 64 (Tab.get 0 c.dev.sec.nonce k)) c := by
  simp only [stewardWrite, Bool.and_eq_true, decide_eq_true_eq]
  iterate 2 rw [if_neg (by omega)]
  rw [if_pos (by omega), show (0x10080 + 8 * k - 0x10080) / 8 = k by omega]
  rfl

/-! ### What each write does -/

section
variable {c : Ctx} {m : Master} {q v : Nat} (hm : masterActs c m = true) (hq : q < 8) (hv : v < 2 ^ 32)
include hm hq hv

/-- TAIL is a write to its pair (R567). -/
theorem stwQptrTailOp_eq (hw : mayWrite c m .steward (0x40200 + 8 * q) = true) :
    stwQptrTailOp m q v c = tailWrite q v (masterAnswer m {} c) := by
  have h := registerWriteOp_own (v := v) hm (by omega) (spaceReg_qptr c hq) (.inl rfl) (by omega) (by decide) hw
  rwa [stewardWrite_qptr m 4 v _ hq, Nat.mod_eq_of_lt hv, ← Nat.add_assoc] at h

/-- READ is a write to its pair (R569). -/
theorem stwRptrReadOp_eq (hw : mayWrite c m .steward (0x40240 + 8 * q) = true) :
    stwRptrReadOp m q v c = readWrite q v (masterAnswer m {} c) := by
  have h := registerWriteOp_own (v := v) hm (by omega) (spaceReg_rptr c hq) (.inl rfl) (by omega) (by decide) hw
  rwa [stewardWrite_rptr m 4 v _ hq, Nat.mod_eq_of_lt hv, ← Nat.add_assoc] at h

end

/-- A 32-bit write to a word of the nonce replaces the half it names. -/
theorem registerWriteOp_nonce {c : Ctx} {m : Master} {a k b w : Nat} (hm : masterActs c m = true) (hk : k < 6) (hb : b = 0 ∨ b = 4)
    (hp : place a = .stewardReg (0x10080 + 8 * k + b)) (hw : w < 2 ^ 32) (hr : mayWrite c m .steward (0x10080 + 8 * k) = true) :
    let old := Tab.get 0 c.dev.sec.nonce k
    registerWriteOp m a 4 w c =
      setNonce k (if b = 0 then old / 2 ^ 32 % 2 ^ 32 * 2 ^ 32 + w else old % 2 ^ 32 + w * 2 ^ 32) (masterAnswer m {} c) := by
  intro old
  obtain rfl | rfl := hb
  · have hf := regFind_of_spaceReg (spaceReg_nonce c hk) (.inl rfl) (by omega) (by decide : 4 ≤ 8)
    rw [registerWriteOp_steward hm hp hf hr, stewardWrite_nonce m 0 4 w _ hk, half_rw_lower _ hw, masterAnswer_sec]
    rfl
  · have hf := regFind_upper (spaceReg_nonce c hk) (spaceReg_nonce_upper c hk) (by omega)
    rw [registerWriteOp_steward hm hp hf hr, stewardWrite_nonce m 4 4 w _ hk, half_rw_upper _ hw, masterAnswer_sec]
    rfl

/-- The key engine's state with a report latched for master `m` (R548). -/
def SecSt.latch (x : SecSt) (m : Master) (a : Nat) (report : List Byte) : SecSt :=
  { x with addr := a, busy := true, result := 0, report := report, target := a, asker := some m }

/-- START while the key engine is free latches the report for the master that asked (R548). -/
theorem secAttestStartOp_sec {c : Ctx} {m : Master} {w : Nat} (hm : masterActs c m = true) (hw : w < 2 ^ 64)
    (hr : mayWrite c m .steward 0x10008 = true) (h1 : w % 2 = 1) (hb : c.dev.sec.busy = false) :
    (secAttestStartOp m w c).log = c.log ∧ (secAttestStartOp m w c).dev.sec = c.dev.sec.latch m (w / 2 ^ 16) (reportOf c) := by
  have haddr : (half 0 8 w).rw 16 48 c.dev.sec.addr = w / 2 ^ 16 := by
    rw [Half.rw_covered _ (by simp [half, bits])]
    simp only [half, bits, Nat.shiftRight_eq_div_pow]
    omega
  have hstart : (half 0 8 w).wo 0 1 = 1 := by simp only [Half.wo, half, bits, Nat.shiftRight_zero]; omega
  have hop : secAttestStartOp m w c = attestWrite m (half 0 8 w) (masterAnswer m {} c) :=
    registerWriteOp_own (off := 0x10008) (n := 8) hm (by decide) rfl (.inr rfl) rfl (le_refl 8) hr
  simp [hop, attestWrite, hstart, hb, haddr, SecSt.latch]

/-- A context after an attestation ends with result `r` (R549). -/
def attestEnd (r : Nat) (c : Ctx) : Ctx :=
  { c with dev := { c.dev with sec := { c.dev.sec with busy := false, result := r, report := [], asker := none } } }

section
variable {c : Ctx} {m : Master} (hb : c.dev.sec.busy = true) (ha : c.dev.sec.asker = some m)
include hb ha

theorem attestationCompleteOp_noPuf (hp : c.dev.sec.pufOk = false) : attestationCompleteOp c = attestEnd 3 c := by
  simp [attestationCompleteOp, hb, ha, hp, attestEnd]

theorem attestationCompleteOp_refused (hp : c.dev.sec.pufOk = true) (hr : reportOk c m c.dev.sec.target 2400 = false) :
    attestationCompleteOp c = attestEnd 2 (masterRefused m c.dev.sec.target c) := by
  simp [attestationCompleteOp, hb, ha, hp, hr, attestEnd]

theorem attestationCompleteOp_signed (hp : c.dev.sec.pufOk = true) (hr : reportOk c m c.dev.sec.target 2400 = true)
    (hw : windowHeld c c.dev.sec.target = false) (hf : firstProtected c c.dev.sec.target 2400 = none) :
    let g := deviceSign c (sha384Nat c.dev.sec.report)
    attestationCompleteOp c = attestEnd 1 (store c.dev.sec.target (c.dev.sec.report ++ toBytesBE 48 g.1 ++ toBytesBE 48 g.2) c) := by
  simp [attestationCompleteOp, hb, ha, hp, hr, hw, hf, attestEnd]

end

/-! ### States that wrote what a context wrote -/

theorem Wrote.byte {s t : State} {c : Ctx} (h : Wrote s c t) (hm : c.mem = s.mem) (b : Nat) : t.byte b = c.byte b := by
  rw [State.byte, h, get_applyLog, Ctx.byte, hm]

/-- A write of bytes puts them in place. -/
theorem Wrote.bytes_write {s t : State} {a : Nat} {l : List Byte} (h : Wrote s (s.ctx.write a l) t) : t.bytes a l.length = l := by
  simp only [State.bytes, h.byte (Ctx.write_mem ..)]
  exact Ctx.read_write s.ctx a l

/-- A write of bytes keeps every other byte. -/
theorem Wrote.keepsMemoryBut {s t : State} {a : Nat} {l : List Byte} (h : Wrote s (s.ctx.write a l) t) : KeepsMemoryBut a l.length s t := by
  intro b hb
  rw [h.byte (Ctx.write_mem ..), Ctx.byte_write, if_neg (by omega)]
  rfl

/-! ### The registers together -/

theorem registerWrite_wf {m : Master} {a n v : Nat} (hm : m.wf = true) (ha : a < 2 ^ 48) (hn : sizeOk n = true) (hv : v < 2 ^ 64) :
    (Instr.registerWrite m a n v).wf = true := by
  simpa [Instr.wf, hm, hn] using ⟨ha, hv⟩

/-- A command that updates one pair, and answers its master, leaves memory and the other pairs. -/
theorem completes_updPair {i : Instr} {s : State} {op : Ctx → Ctx} {m : Master} {q : Nat} {f : QPair → QPair} (hw : i.wf = true)
    (he : exec i s = perform i s op) (hop : op s.ctx = (masterAnswer m {} s.ctx).updPair q f) :
    Completes i s fun t => t.mem = s.mem ∧ t.ctx.pair q = f (s.ctx.pair q) ∧ ∀ k, k ≠ q → t.ctx.pair k = s.ctx.pair k :=
  .of_run op hw he ⟨State.run_mem_of_log s op (by simp [hop]), by simp [hop], fun k hk => by simp [hop, hk]⟩

/-- A command whose meaning ends with context `c` completes in the state `c` makes. -/
theorem completes_becomes {i : Instr} {s : State} {op : Ctx → Ctx} {c : Ctx} (hw : i.wf = true) (he : exec i s = perform i s op)
    (hop : op s.ctx = c) : Completes i s (Becomes s c) := .of_run op hw he (.of_eq hop)

/-- Settles O58: every command's meaning is one write to its register, whose effect stands above. -/
theorem hostRegistersTakeEffect : Obligations.HostRegistersTakeEffect := by
  unfold Obligations.HostRegistersTakeEffect
  intro s m q v a n hq hv hmw hm
  have htailWf : (Instr.stwQptrTail m q v).wf = true := by simpa [Instr.wf, hmw, hq] using hv
  have hreadWf : (Instr.stwRptrRead m q v).wf = true := by simpa [Instr.wf, hmw, hq] using hv
  refine ⟨fun hw => ⟨fun h => ?tailOver, fun h => ?tail⟩, fun hw => ⟨fun h => ?readOver, fun h => ?read⟩,
    fun hr => ⟨fun h => ?disable, fun h => ?enable⟩, fun w hw hr h1 hb => ?start,
    fun hb ha => ⟨fun hp => ?noPuf, fun hp hr => ?refused, fun hp hr hw hf hc => ?signed⟩,
    fun sp off w ha hn hw hp => ⟨fun hf => ?notWritable, fun k b hk hb hpl hn4 hw32 hmay => ?nonce⟩⟩
  case tailOver =>
    refine completes_updPair (m := m) (f := fun x => { x with qerr := true }) htailWf rfl ((stwQptrTailOp_eq hm hq hv hw).trans ?_)
    simp only [tailWrite, masterAnswer_pair, if_pos h]
  case tail =>
    refine completes_becomes htailWf rfl ((stwQptrTailOp_eq hm hq hv hw).trans ?_)
    simp only [tailWrite, masterAnswer_pair, if_neg (Nat.not_lt.mpr h)]
  case readOver =>
    refine completes_updPair (m := m) (f := fun x => { x with rerr := true }) hreadWf rfl ((stwRptrReadOp_eq hm hq hv hw).trans ?_)
    simp only [readWrite, masterAnswer_pair, if_pos h]
  case read =>
    refine completes_becomes hreadWf rfl ((stwRptrReadOp_eq hm hq hv hw).trans ?_)
    simp only [readWrite, masterAnswer_pair, if_neg (Nat.not_lt.mpr h)]
  case disable => exact completes_becomes (by simp [Instr.wf, hq]) rfl (by simp [pairDisableOp, hr, pairOff, h])
  case enable => exact completes_becomes (by simp [Instr.wf, hq]) rfl (by simp [pairEnableOp, hr, pairOn, h])
  case start =>
    obtain ⟨hlog, hsec⟩ := secAttestStartOp_sec hm hw hr h1 hb
    exact .of_run _ (by simpa [Instr.wf, hmw] using hw) rfl ⟨State.run_mem_of_log s _ hlog, hsec⟩
  case noPuf =>
    have hop := attestationCompleteOp_noPuf (c := s.ctx) hb ha hp
    exact .of_run _ rfl rfl ⟨State.run_mem_of_log s _ (by rw [hop]; rfl), by rw [State.run_dev, hop]; rfl⟩
  case refused =>
    have hop := attestationCompleteOp_refused (c := s.ctx) hb ha hp hr
    exact .of_run _ rfl rfl ⟨by rw [State.run_dev, hop]; rfl, .of_log (by rw [hop]; rfl)⟩
  case signed =>
    have hop := attestationCompleteOp_signed (c := s.ctx) hb ha hp hr hw hf
    dsimp only at hop
    rw [store_clean _ _ (State.clean_ctx hc)] at hop
    have hwrote := Wrote.of_log (s := s) (f := attestationCompleteOp) (congrArg Ctx.log hop)
    refine .of_run _ rfl rfl ⟨hwrote.bytes_write, hwrote.keepsMemoryBut, ?_⟩
    rw [State.run_dev, hop]; simp [attestEnd]
  case notWritable => exact completes_becomes (registerWrite_wf hmw ha hn hw) rfl (registerWriteOp_refused hm hp hf)
  case nonce =>
    subst hn4
    have hop := registerWriteOp_nonce hm hk hb hpl hw32 hmay
    refine .of_run _ (registerWrite_wf hmw ha hn hw) rfl ⟨State.run_mem_of_log s _ ?_, ?_⟩
    · rw [hop, setNonce_log, masterAnswer_log]; rfl
    · rw [State.run_dev, hop]; exact get_setNonce ..

end Sys2Proof.Machine

namespace Sys2Proof.Machine

/-! ### The idle step (log entry 7, R42) -/

/-- On an empty queue a step is a tick: there is no front command to run. -/
theorem step_of_pending_nil {s : State} (h : s.pending = []) : step s = .next (tick s) := by
  obtain ⟨-, hidle⟩ | ⟨c, rest, hc, -⟩ := step_cases (s := s) rfl
  · exact hidle
  · exact absurd (h.symm.trans hc) (List.cons_ne_nil c rest).symm

/-- Settles O2: an idle step is a tick, which counts one CLK_SLOW cycle and keeps every other field. -/
theorem idleStepPassesOneSlowCycle : Obligations.IdleStepPassesOneSlowCycle := fun _ h => step_of_pending_nil h

end Sys2Proof.Machine

namespace Sys2Proof.Machine

/-! ### Work done for each number of a list -/

/-- What every single piece of work keeps, all of them keep. -/
theorem forAll_keeps {σ β : Type} {g : σ → β} {f : Nat → σ → σ} (h : ∀ k s, g (f k s) = g s) (ks : List Nat) (s : σ) :
    g (forAll ks f s) = g s := by
  induction ks generalizing s with
  | nil => rfl
  | cons k ks ih => exact (ih (f k s)).trans (h k s)

/-- What a piece of work for a number with `p` sets to `z`, and the others keep, is `z` once the list has named such a number. -/
theorem forAll_sets {σ β : Type} {g : σ → β} {f : Nat → σ → σ} {p : Nat → Prop} [DecidablePred p] {z : β}
    (h : ∀ k s, g (f k s) = if p k then z else g s) (ks : List Nat) (s : σ) :
    g (forAll ks f s) = if ∃ k ∈ ks, p k then z else g s := by
  induction ks generalizing s with
  | nil => simp [forAll]
  | cons k ks ih =>
    have hrest := ih (f k s)
    rw [h] at hrest
    by_cases hk : p k
    · simpa [forAll, hk] using hrest
    · simpa [forAll, hk] using hrest

/-- A table some of whose rows are replaced in place: related defaults and related rows give related readings. -/
theorem Tab.get_map_key {α : Type} {R : α → α → Prop} {q : Nat → Bool} {f : α → α} {d : α} (hd : R d d) (hf : ∀ x, R x (f x))
    (t : Tab α) {k : Nat} (hk : q k = true) :
    R (Tab.get d t k) (Tab.get d (t.map (fun p => if q p.1 then (p.1, f p.2) else p)) k) := by
  induction t with
  | nil => exact hd
  | cons p t ih =>
    obtain ⟨i, x⟩ := p
    by_cases hi : i = k
    · subst hi
      simpa [Tab.get, hk] using hf x
    · by_cases hq : q i <;> simpa [Tab.get, hq, hi] using ih

/-! ### Zeroed memory -/

@[simp] theorem Ctx.zero_mem (c : Ctx) (lo n : Nat) : (c.zero lo n).mem = c.mem := by unfold Ctx.zero; split <;> rfl
@[simp] theorem Ctx.zero_dev (c : Ctx) (lo n : Nat) : (c.zero lo n).dev = c.dev := by unfold Ctx.zero; split <;> rfl

theorem Ctx.zero_byte (c : Ctx) (lo n a : Nat) : (c.zero lo n).byte a = if lo ≤ a ∧ a < lo + n then 0 else c.byte a := by
  by_cases hn : n = 0
  · rw [Ctx.zero, if_pos hn, if_neg (by omega)]
  · rw [Ctx.zero, if_neg hn]; rfl

/-- The bytes of unit `u`: its memory and its tile registers. -/
abbrev UnitByte (u a : Nat) : Prop := (umBase u ≤ a ∧ a < umBase u + umSize) ∨ (trBase u ≤ a ∧ a < trBase u + 2 ^ 20)

/-! ### What the shared operations keep

Each keeps every reading `g` of the context that its own updates keep. -/

section
variable {β : Type} {g : Ctx → β}

theorem sendCaps_keeps (hs : ∀ c m, g (c.send m) = g c) (c : Ctx) : g (sendCaps c) = g c :=
  forAll_keeps (fun _ a => hs a _) _ c

theorem endCause_keeps (hj : ∀ c f, g (c.updJob f) = g c) (code : Nat) (c : Ctx) : g (endCause code c) = g c := by
  unfold endCause
  split
  · exact hj c _
  · rfl

theorem disableFn_keeps (hj : ∀ c f, g (c.updJob f) = g c) (fn : DisFn) (c : Ctx) : g (disableFn fn c) = g c := by
  unfold disableFn
  split
  · rfl
  · exact hj c _

theorem disableThrough_keeps (hf : ∀ c d f, g (c.updFur d f) = g c) (p : Nat) (c : Ctx) : g (disableThrough p c) = g c :=
  forAll_keeps (f := fun k a => a.updChan (p / 9) k (fun x => if x.state = 2 then { x with state := 4 } else x))
    (fun _ a => hf a _ _) (chansThrough c p) c

/-- A port taken down after its die's partial reset. -/
theorem portDisable_late_keeps (hp : ∀ c p f, g (c.updPort p f) = g c) (hf : ∀ c d f, g (c.updFur d f) = g c)
    (hj : ∀ c f, g (c.updJob f) = g c) (p : Nat) (c : Ctx) : g (portDisable true p c) = g c := by
  have hdown (f : Port → Port) : g (disableThrough p (c.updPort p f)) = g c := (disableThrough_keeps hf p _).trans (hp c p f)
  simp only [portDisable, Bool.not_true, Bool.false_and, Bool.false_eq_true, if_false]
  split
  · exact (disableFn_keeps hj _ _).trans (hdown _)
  · exact hdown _

theorem unitGone_keeps (hu : ∀ c u f, g (c.updUnit u f) = g c) (hc : ∀ c n f, g (c.updCore n f) = g c)
    (hb : ∀ c f, g (c.updBoot f) = g c) (u : Nat) (c : Ctx) : g (unitGone u c) = g c := by
  rw [unitGone, hu, forAll_keeps fun n a => hc a n _, hb]

theorem loadStart_keeps (hc : ∀ c n f, g (c.updCore n f) = g c) (hb : ∀ c f, g (c.updBoot f) = g c) (p s : Nat) (glean : Bool) (n : Nat)
    (c : Ctx) : g (loadStart p s glean n c) = g c := by
  unfold loadStart
  split
  · rfl
  · split
    · rfl
    · exact (hb _ _).trans (hc c _ _)

theorem unitLoads_keeps (hc : ∀ c n f, g (c.updCore n f) = g c) (hb : ∀ c f, g (c.updBoot f) = g c) (u : Nat) (c : Ctx) :
    g (unitLoads u c) = g c := by
  unfold unitLoads
  split
  · split
    · exact forAll_keeps (loadStart_keeps hc hb _ _ _) _ c
    · rfl
  · rfl

/-- A partial reset that starts: the die's domains are held, then the job and the partners take note. -/
theorem presetStart_keeps {d : Nat} {c : Ctx} (hsafe : c.dev.safe.safe = false) (hp : (c.die d).preset = 0)
    (hs : ∀ c m, g (c.send m) = g c) (hj : ∀ c f, g (c.updJob f) = g c) (hl : ∀ c, g (stepLost c) = g c) :
    g (presetStart d c) = g (presetHold d c) := by
  simp only [presetStart, hsafe, hp, ne_eq, not_true_eq_false, decide_false, Bool.or_self, Bool.false_eq_true, if_false]
  rw [sendCaps_keeps hs]
  split
  · exact hl _
  · exact endCause_keeps hj _ _

end

/-- Without a job there are no loads to start. -/
theorem unitLoads_idle (u : Nat) {c : Ctx} (h : c.dev.job.running = false) : unitLoads u c = c := by
  unfold unitLoads
  split
  · simp [h]
  · rfl

/-! ### The start of a partial reset (Table 18-9) -/

/-- The units of a die before and in its partial reset: the queues and the tile are empty, width and regions stay. -/
def UnitSt.Emptied (x y : UnitSt) : Prop :=
  y.me.entries = [] ∧ y.ve.entries = [] ∧ y.dma.entries = [] ∧ y.tile = none ∧ y.width = x.width ∧ y.region = x.region

theorem presetHold_units (d : Nat) (c : Ctx) :
    (presetHold d c).dev.units = c.dev.units.map (fun p => if p.1 / 128 == d then (p.1, p.2.cleared) else p) := by
  simp only [presetHold, Ctx.zero_dev]; rfl

theorem presetHold_dies (d : Nat) (c : Ctx) : (presetHold d c).dev.dies = (c.updDie d (fun x =>
    { x with preset := 1, stopped := true, domainRun := x.domainRun - x.domainRun % 256 })).dev.dies := by
  simp only [presetHold, Ctx.zero_dev]; rfl

theorem presetHold_die (d : Nat) (c : Ctx) : (presetHold d c).die d =
    { c.die d with preset := 1, stopped := true, domainRun := (c.die d).domainRun - (c.die d).domainRun % 256 } := by
  rw [Ctx.die, presetHold_dies]
  exact updDie_same c d _

theorem presetHold_empties {d k : Nat} (c : Ctx) (hk : dieOfUnit k = d) : (c.unit k).Emptied ((presetHold d c).unit k) := by
  rw [Ctx.unit, Ctx.unit, presetHold_units]
  exact Tab.get_map_key (q := fun i => i / 128 == d) ⟨rfl, rfl, rfl, rfl, rfl, rfl⟩ (fun _ => ⟨rfl, rfl, rfl, rfl, rfl, rfl⟩) _ (beq_iff_eq.mpr hk)

/-- The write that names die `d` alone. -/
theorem clkPresetOp_one {d : Nat} {c : Ctx} (hd : d < 4) (hr : resetHeld c = false) : clkPresetOp (2 ^ d) c = presetStart d c := by
  have hone : (List.range 4).filter (fun e => bit (2 ^ d) e) = [d] := by
    revert d
    decide
  rw [clkPresetOp, if_neg (by simp [hr]), hone]; rfl

/-! ### Its release: the die's memories are zeroed -/

/-- The units of die `d`. -/
def unitsOf (d : Nat) : List Nat := (List.range 128).map (fun i => 128 * d + i)

theorem mem_unitsOf {d u : Nat} : u ∈ unitsOf d ↔ dieOfUnit u = d := by
  simp only [unitsOf, dieOfUnit, List.mem_map, List.mem_range]
  exact ⟨by rintro ⟨i, hi, rfl⟩; omega, fun h => ⟨u % 128, by omega, by omega⟩⟩

/-- A context with the memory and the tile registers of die `d`'s units zeroed. -/
def dieZeroed (d : Nat) (c : Ctx) : Ctx := forAll (unitsOf d) (fun u a => umZero u (tileZero u a)) c

theorem umZero_tileZero_byte (u : Nat) (c : Ctx) (a : Nat) : (umZero u (tileZero u c)).byte a = if UnitByte u a then 0 else c.byte a := by
  have htile : ∀ p e, ({ tileZero u c with dev := { (tileZero u c).dev with poison := p, errs := e } } : Ctx).byte a
      = (c.zero (trBase u) (2 ^ 20)).byte a := fun _ _ => rfl
  rw [umZero, Ctx.zero_byte, htile, Ctx.zero_byte, ← ite_or]

theorem dieZeroed_byte (d : Nat) (c : Ctx) (a : Nat) :
    (dieZeroed d c).byte a = if ∃ u ∈ unitsOf d, UnitByte u a then 0 else c.byte a :=
  forAll_sets (g := fun c => c.byte a) (p := fun u => UnitByte u a) (fun u c => umZero_tileZero_byte u c a) _ c

theorem dieZeroed_mem (d : Nat) (c : Ctx) : (dieZeroed d c).mem = c.mem :=
  forAll_keeps (g := Ctx.mem) (fun _ _ => by simp [umZero, tileZero]) _ c

theorem umZero_tileZero_dies (u : Nat) (c : Ctx) : (umZero u (tileZero u c)).dev.dies = c.dev.dies := by
  simp [umZero, tileZero]

theorem dieZeroed_dies (d : Nat) (c : Ctx) : (dieZeroed d c).dev.dies = c.dev.dies :=
  forAll_keeps (g := fun c => c.dev.dies) umZero_tileZero_dies _ c

/-- The bytes of a die's units lie in the die's own stretch of unit memory and of tile registers. -/
theorem unitByte_of_die {d u a : Nat} (hu : dieOfUnit u = d) (h : UnitByte u a) :
    (umBase (128 * d) ≤ a ∧ a < umBase (128 * (d + 1))) ∨ (trBase (128 * d) ≤ a ∧ a < trBase (128 * (d + 1))) := by
  simp only [dieOfUnit] at hu
  obtain ⟨hlo, hhi⟩ | ⟨hlo, hhi⟩ := h
  · simp only [umBase, umSize] at *
    exact .inl (by omega)
  · simp only [trBase] at *
    exact .inr (by omega)

/-- The release keeps every reading that the die's own registers and the loads of its management cores leave. -/
theorem partialResetReleaseOp_keeps {β : Type} {g : Ctx → β} (hc : ∀ c n f, g (c.updCore n f) = g c) (hb : ∀ c f, g (c.updBoot f) = g c)
    {d : Nat} {c : Ctx} (hp : (c.die d).preset = 1) (hs : c.dev.safe.safe = true → c.dev.safe.leaving = true) :
    g (partialResetReleaseOp d c) =
      g ((dieZeroed d c).updDie d (fun x => { x with preset := 2, domainRun := x.domainRun - x.domainRun % 256 + 255 })) := by
  have hopen : (decide ((c.die d).preset ≠ 1) || (c.dev.safe.safe && !c.dev.safe.leaving)) = false := by
    simpa [hp] using hs
  unfold partialResetReleaseOp
  rw [hopen, if_neg Bool.false_ne_true]
  dsimp only
  split
  · exact forAll_keeps (loadStart_keeps hc hb _ _ _) _ _
  · rfl

/-! ### Its return -/

/-- A context with the defect list applied to die `d`'s units, and what was retired meanwhile taken out (R61, R525). -/
def dieReviewed (d : Nat) (c : Ctx) : Ctx :=
  (forAll (lateUnits c d) unitGone (forAll (unitsOf d) (applyUnit (listNow c) true) c)).updBoot (fun b =>
    { b with late := b.late.filter (fun e => (if e.kind = 7 then e.index / 9 else dieOfUnit e.index) != d) })

/-- A context with die `d` admitted again. -/
def dieReturned (d : Nat) (c : Ctx) : Ctx :=
  forAll (unitsOf d) unitLoads (forAll (latePorts c d) (portDisable true)
    ((dieReviewed d c).updDie d (fun x => { x with preset := 0, stopped := false, epoch := c.dev.epoch })))

theorem dieReviewed_keeps {β : Type} {g : Ctx → β} (hx : ∀ c u x, g (c.setUnit u x) = g c) (hc : ∀ c n f, g (c.updCore n f) = g c)
    (hb : ∀ c f, g (c.updBoot f) = g c) (d : Nat) (c : Ctx) : g (dieReviewed d c) = g c :=
  (hb _ _).trans ((forAll_keeps (unitGone_keeps (fun _ _ _ => hx _ _ _) hc hb) _ _).trans (forAll_keeps (fun _ a => hx a _ _) _ c))

theorem dieReturned_keeps {β : Type} {g : Ctx → β} (hc : ∀ c n f, g (c.updCore n f) = g c) (hb : ∀ c f, g (c.updBoot f) = g c)
    (hp : ∀ c p f, g (c.updPort p f) = g c) (hf : ∀ c d f, g (c.updFur d f) = g c) (hj : ∀ c f, g (c.updJob f) = g c) (d : Nat) (c : Ctx) :
    g (dieReturned d c) = g ((dieReviewed d c).updDie d (fun x => { x with preset := 0, stopped := false, epoch := c.dev.epoch })) :=
  (forAll_keeps (unitLoads_keeps hc hb) _ _).trans (forAll_keeps (portDisable_late_keeps hp hf hj) _ _)

theorem dieReturned_log (d : Nat) (c : Ctx) : (dieReturned d c).log = c.log :=
  (dieReturned_keeps (g := Ctx.log) (fun _ _ _ => rfl) (fun _ _ => rfl) (fun _ _ _ => rfl) (fun _ _ _ => rfl) (fun _ _ => rfl) d c).trans
    (dieReviewed_keeps (g := Ctx.log) (fun _ _ _ => rfl) (fun _ _ _ => rfl) (fun _ _ => rfl) d c)

theorem dieReturned_safe (d : Nat) (c : Ctx) : (dieReturned d c).dev.safe = c.dev.safe :=
  (dieReturned_keeps (g := fun c => c.dev.safe) (fun _ _ _ => rfl) (fun _ _ => rfl) (fun _ _ _ => rfl) (fun _ _ _ => rfl) (fun _ _ => rfl)
    d c).trans (dieReviewed_keeps (g := fun c => c.dev.safe) (fun _ _ _ => rfl) (fun _ _ _ => rfl) (fun _ _ => rfl) d c)

theorem dieReturned_die (d : Nat) (c : Ctx) :
    (dieReturned d c).die d = { c.die d with preset := 0, stopped := false, epoch := c.dev.epoch } := by
  rw [dieReturned_keeps (g := fun c => c.die d) (fun _ _ _ => rfl) (fun _ _ => rfl) (fun _ _ _ => rfl) (fun _ _ _ => rfl) (fun _ _ => rfl),
    updDie_same, dieReviewed_keeps (g := fun c => c.die d) (fun _ _ _ => rfl) (fun _ _ _ => rfl) (fun _ _ => rfl)]

/-- The end of a return: BUSY clears with the last die, which may end the safe state (Table 14-8). -/
def returnEnd (c : Ctx) : Ctx :=
  if anyPreset c then c else if (sendCaps c).dev.safe.leaving then readyAgain (safeOver (sendCaps c)) else sendCaps c

theorem partialResetReturnOp_eq {d : Nat} {c : Ctx} (hp : (c.die d).preset = 2)
    (hl : ∀ r, r < 4 → (c.loader (2048 + 4 * d + r)).active = false) : partialResetReturnOp d c = returnEnd (dieReturned d c) := by
  have hrest : (decide ((c.die d).preset ≠ 2) || (List.range 4).any (fun r => (c.loader (2048 + 4 * d + r)).active)) = false := by
    simpa [hp] using hl
  unfold partialResetReturnOp returnEnd dieReturned dieReviewed unitsOf
  rw [hrest, if_neg Bool.false_ne_true]

/-- While the package is not leaving the safe state a return ends with the capability records at most. -/
theorem returnEnd_keeps {β : Type} {g : Ctx → β} (hs : ∀ c m, g (c.send m) = g c) {c : Ctx} (h : c.dev.safe.leaving = false) :
    g (returnEnd c) = g c := by
  have hleave : (sendCaps c).dev.safe.leaving = false := by rwa [sendCaps_keeps (g := fun c => c.dev.safe.leaving) (fun _ _ => rfl)]
  unfold returnEnd
  split
  · rfl
  · rw [if_neg (by simp [hleave])]
    exact sendCaps_keeps hs c

/-! ### The request for a unit reset (R599) -/

section
variable {d v : Nat} {c : Ctx}

theorem clkUresetOp_absorbed (h : resetHeld c = true) : clkUresetOp d v c = c := by simp [clkUresetOp, h]

/-- A request taken by die `d` starts the unit's reset, or is absorbed by the die's own (R51). -/
theorem unitResetStart_die (hr : resetHeld c = false) (u : Nat) (hu : dieOfUnit u = d) (f : DieSt → DieSt) :
    unitResetStart u (c.updDie d f) =
      if (f (c.die d)).preset = 0 then (c.updDie d f).updUnit u (fun x => { x with resetting := true }) else c.updDie d f := by
  have hheld : resetHeld (c.updDie d f) = false := hr
  by_cases hp : (f (c.die d)).preset = 0 <;> simp [unitResetStart, hheld, hu, hp]

variable (hv : bit v 7 = true) (hr : resetHeld c = false)
include hv hr

theorem clkUresetOp_refused (hj : c.dev.job.running = true) (hu : (c.unit (128 * d + v % 128)).retired = false) :
    clkUresetOp d v c = c.updDie d (fun x => { x with uresetRefused := true }) := by
  simp [clkUresetOp, hv, hr, hj, hu]

theorem clkUresetOp_taken (h : c.dev.job.running = false ∨ (c.unit (128 * d + v % 128)).retired = true) :
    clkUresetOp d v c = unitResetStart (128 * d + v % 128) (c.updDie d (fun x => { x with uresetRefused := false })) := by
  have hfree : (c.dev.job.running && !(c.unit (128 * d + v % 128)).retired) = false := by
    obtain h | h := h <;> simp [h]
  simp [clkUresetOp, hv, hr, hfree]

end

/-! ### The end of a unit reset (R50) -/

theorem seedbedZero_byte (u : Nat) (c : Ctx) (a : Nat) :
    (seedbedZero u c).byte a = if (seedbed c u).1 ≤ a ∧ a < (seedbed c u).1 + (seedbed c u).2 then 0 else c.byte a := by
  have hclear : (forAll (wordsOf (seedbed c u).1 (seedbed c u).2) clearWord c).byte a = c.byte a :=
    forAll_keeps (f := clearWord) (g := fun c => c.byte a) (fun _ _ => rfl) _ c
  rw [← hclear, ← Ctx.zero_byte]; rfl

theorem seedbedZero_keeps {β : Type} {g : Ctx → β} (hz : ∀ c lo n, g (c.zero lo n) = g c) (hw : ∀ b c, g (clearWord b c) = g c) (u : Nat)
    (c : Ctx) : g (seedbedZero u c) = g c := (hz _ _ _).trans (forAll_keeps hw _ c)

/-- The control cores of unit `u`. -/
def coresOf (u : Nat) : List Nat := [4 * u, 4 * u + 1, 4 * u + 2, 4 * u + 3]

theorem mem_coresOf {u n : Nat} : n ∈ coresOf u ↔ n / 4 = u := by
  simp only [coresOf, List.mem_cons, List.not_mem_nil, or_false]
  omega

theorem coresCleared_core (u : Nat) (c : Ctx) (n : Nat) :
    (forAll (coresOf u) coreCleared c).core n = if ∃ k ∈ coresOf u, n = k then {} else c.core n := by
  refine forAll_sets (g := fun c => c.core n) (p := fun k => n = k) (fun k c => ?_) _ c
  by_cases h : n = k
  · subst h; simp [coreCleared, Ctx.core, Ctx.updCore]
  · simp [coreCleared, Ctx.core, Ctx.updCore, h]

theorem coresCleared_byte (u : Nat) (c : Ctx) (a : Nat) :
    (forAll (coresOf u) coreCleared c).byte a = if ∃ k ∈ coresOf u, coreRam k ≤ a ∧ a < coreRam k + 2 ^ 17 then 0 else c.byte a :=
  forAll_sets (g := fun c => c.byte a) (f := coreCleared) (p := fun k => coreRam k ≤ a ∧ a < coreRam k + 2 ^ 17)
    (fun _ _ => Ctx.zero_byte ..) _ c

theorem coresCleared_keeps {β : Type} {g : Ctx → β} (hc : ∀ c n f, g (c.updCore n f) = g c) (hz : ∀ c lo n, g (c.zero lo n) = g c) (u : Nat)
    (c : Ctx) : g (forAll (coresOf u) coreCleared c) = g c :=
  forAll_keeps (fun _ _ => (hz _ _ _).trans (hc _ _ _)) _ c

/-- A context with the memories and the cores of unit `u` cleared. -/
def unitEmptied (u : Nat) (c : Ctx) : Ctx := forAll (coresOf u) coreCleared (tileZero u (seedbedZero u c))

/-- A context with unit `u` reset. -/
def unitReset (u : Nat) (c : Ctx) : Ctx :=
  ((unitEmptied u c).updUnit u UnitSt.cleared).updBoot (fun b => { b with loaders := b.loaders.filter (fun p => p.1 / 4 != u) })

theorem unitResetCompleteOp_eq {u : Nat} {c : Ctx} (hr : (c.unit u).resetting = true) (hp : (c.die (dieOfUnit u)).preset ≠ 1) :
    unitResetCompleteOp u c = unitLoads u (unitReset u c) := by
  unfold unitResetCompleteOp
  rw [if_neg (by simp [hr, hp])]
  rfl

theorem unitEmptied_keeps {β : Type} {g : Ctx → β} (hc : ∀ c n f, g (c.updCore n f) = g c) (hz : ∀ c lo n, g (c.zero lo n) = g c)
    (hw : ∀ b c, g (clearWord b c) = g c) (u : Nat) (c : Ctx) : g (unitEmptied u c) = g c :=
  (coresCleared_keeps hc hz u _).trans ((hz _ _ _).trans (seedbedZero_keeps hz hw u c))

theorem unitEmptied_unit (u : Nat) (c : Ctx) (k : Nat) : (unitEmptied u c).unit k = c.unit k :=
  unitEmptied_keeps (g := fun c => c.unit k) (fun _ _ _ => rfl) (fun _ _ _ => by simp [Ctx.unit]) (fun _ _ => rfl) u c

theorem unitEmptied_mem (u : Nat) (c : Ctx) : (unitEmptied u c).mem = c.mem :=
  unitEmptied_keeps (g := Ctx.mem) (fun _ _ _ => rfl) (fun _ _ _ => Ctx.zero_mem ..) (fun _ _ => rfl) u c

theorem unitEmptied_job (u : Nat) (c : Ctx) : (unitEmptied u c).dev.job = c.dev.job :=
  unitEmptied_keeps (g := fun c => c.dev.job) (fun _ _ _ => rfl) (fun _ _ _ => by rw [Ctx.zero_dev]) (fun _ _ => rfl) u c

/-- The bytes that a reset of unit `u` zeroes: its cores' RAMs, its tile registers and its seedbed. -/
theorem unitEmptied_byte (u : Nat) (c : Ctx) (a : Nat) : (unitEmptied u c).byte a =
    if (∃ k ∈ coresOf u, coreRam k ≤ a ∧ a < coreRam k + 2 ^ 17) ∨ (trBase u ≤ a ∧ a < trBase u + 2 ^ 20) ∨
      (seedbed c u).1 ≤ a ∧ a < (seedbed c u).1 + (seedbed c u).2 then 0 else c.byte a := by
  rw [unitEmptied, coresCleared_byte, tileZero, Ctx.zero_byte, seedbedZero_byte, ite_or, ite_or]

/-- The RAMs of a unit's four cores lie side by side. -/
theorem coreRam_of_unit {u i : Nat} (hi : i < 2 ^ 19) :
    ∃ k ∈ coresOf u, coreRam k ≤ coreRam (4 * u) + i ∧ coreRam (4 * u) + i < coreRam k + 2 ^ 17 :=
  ⟨4 * u + i / 2 ^ 17, mem_coresOf.mpr (by omega), by simp only [coreRam]; omega, by simp only [coreRam]; omega⟩

/-- What the loads after a unit reset leave is as the reset made it. -/
theorem unitResetCompleteOp_keeps {β : Type} {g : Ctx → β} (hc : ∀ c n f, g (c.updCore n f) = g c) (hb : ∀ c f, g (c.updBoot f) = g c)
    {u : Nat} {c : Ctx} (hr : (c.unit u).resetting = true) (hp : (c.die (dieOfUnit u)).preset ≠ 1) :
    g (unitResetCompleteOp u c) = g ((unitEmptied u c).updUnit u UnitSt.cleared) := by
  rw [unitResetCompleteOp_eq hr hp, unitLoads_keeps hc hb]
  exact hb _ _

theorem unitResetCompleteOp_core {u n : Nat} {c : Ctx} (hr : (c.unit u).resetting = true) (hp : (c.die (dieOfUnit u)).preset ≠ 1)
    (hj : c.dev.job.running = false) (hn : n / 4 = u) : (unitResetCompleteOp u c).core n = {} := by
  rw [unitResetCompleteOp_eq hr hp, unitLoads_idle u (by rw [unitReset, updBoot_job, updUnit_job, unitEmptied_job, hj])]
  rw [unitReset, updBoot_at_core, updUnit_at_core, unitEmptied, coresCleared_core, if_pos ⟨n, mem_coresOf.mpr hn, rfl⟩]

/-! ### What the five commands complete with -/

section
variable {s : State} {d v u : Nat}

theorem clkPreset_stops (hd : d < 4) (hr : resetHeld s.ctx = false) (hs : s.dev.safe.safe = false) (hp : (s.ctx.die d).preset = 0) :
    Completes (.clkPreset (2 ^ d)) s fun t => (t.ctx.die d).preset = 1 ∧ (t.ctx.die d).stopped = true ∧
      ∀ k, dieOfUnit k = d → (s.ctx.unit k).Emptied (t.ctx.unit k) := by
  have hv : 2 ^ d < 16 := Nat.pow_lt_pow_right (by decide) hd
  have hdie := presetStart_keeps (c := s.ctx) (g := fun c => c.die d) hs hp (fun _ _ => rfl) (fun _ _ => rfl) (fun _ => rfl)
  refine .of_run (clkPresetOp (2 ^ d)) (by simpa [Instr.wf] using hv) rfl ?_
  simp only [State.run_at_die, State.run_at_unit, clkPresetOp_one hd hr, hdie, presetHold_die, true_and]
  intro k hk
  rw [presetStart_keeps (c := s.ctx) (g := fun c => c.unit k) hs hp (fun _ _ => rfl) (fun _ _ => rfl) (fun _ => rfl)]
  exact presetHold_empties s.ctx hk

theorem partialResetRelease_zeroes (hd : d < 4) (hp : (s.ctx.die d).preset = 1) (hs : s.dev.safe.safe = true → s.dev.safe.leaving = true) :
    Completes (.partialResetRelease d) s fun t => (t.ctx.die d).preset = 2 ∧
      ∀ a, t.byte a = if ∃ k ∈ unitsOf d, UnitByte k a then 0 else s.byte a := by
  refine .of_run (partialResetReleaseOp d) (by simpa [Instr.wf] using hd) rfl ⟨?_, fun a => ?_⟩
  · rw [State.run_at_die, partialResetReleaseOp_keeps (g := fun c => c.die d) (fun _ _ _ => rfl) (fun _ _ => rfl) hp hs, updDie_same]
  · have hmem : (partialResetReleaseOp d s.ctx).mem = s.mem := by
      rw [partialResetReleaseOp_keeps (g := Ctx.mem) (fun _ _ _ => rfl) (fun _ _ => rfl) hp hs, updDie_mem, dieZeroed_mem, State.ctx_mem]
    rw [State.byte_run' _ _ _ hmem, partialResetReleaseOp_keeps (g := fun c => c.byte a) (fun _ _ _ => rfl) (fun _ _ => rfl) hp hs]
    rw [updDie_byte, dieZeroed_byte]; rfl

theorem partialResetReturn_admits (hd : d < 4) (hp : (s.ctx.die d).preset = 2)
    (hl : ∀ r, r < 4 → (s.ctx.loader (2048 + 4 * d + r)).active = false) :
    Completes (.partialResetReturn d) s fun t => Becomes s (returnEnd (dieReturned d s.ctx)) t ∧
      (s.dev.safe.leaving = false → t.mem = s.mem ∧
        t.ctx.die d = { s.ctx.die d with preset := 0, stopped := false, epoch := s.dev.epoch }) := by
  have hop := partialResetReturnOp_eq hp hl
  refine .of_run (partialResetReturnOp d) (by simpa [Instr.wf] using hd) rfl ⟨.of_eq hop, fun hsafe => ?_⟩
  have hleave : (dieReturned d s.ctx).dev.safe.leaving = false := by rw [dieReturned_safe]; exact hsafe
  constructor
  · apply State.run_mem_of_log
    rw [hop, returnEnd_keeps (g := Ctx.log) (fun _ _ => rfl) hleave, dieReturned_log]; rfl
  · rw [State.run_at_die, hop, returnEnd_keeps (g := fun c => c.die d) (fun _ _ => rfl) hleave, dieReturned_die]; rfl

theorem unitResetComplete_clears (hu : u < 512) (hr : (s.ctx.unit u).resetting = true) (hp : (s.ctx.die (dieOfUnit u)).preset ≠ 1) :
    Completes (.unitResetComplete u) s fun t =>
      t.ctx.unit u = (s.ctx.unit u).cleared ∧ (∀ k, k ≠ u → t.ctx.unit k = s.ctx.unit k) ∧
      (∀ a, t.byte a = (unitEmptied u s.ctx).byte a) ∧ (s.dev.job.running = false → ∀ n, n / 4 = u → t.ctx.core n = {}) := by
  have hkeep {β : Type} {g : Ctx → β} (hc : ∀ c n f, g (c.updCore n f) = g c) (hb : ∀ c f, g (c.updBoot f) = g c) :=
    unitResetCompleteOp_keeps hc hb hr hp
  refine .of_run (unitResetCompleteOp u) (by simpa [Instr.wf] using hu) rfl
    ⟨?unit, fun k hk => ?others, fun a => ?bytes, fun hj n hn => unitResetCompleteOp_core hr hp hj hn⟩
  case unit =>
    rw [State.run_at_unit, hkeep (g := fun c => c.unit u) (fun _ _ _ => rfl) (fun _ _ => rfl), updUnit_same, unitEmptied_unit]
  case others =>
    rw [State.run_at_unit, hkeep (g := fun c => c.unit k) (fun _ _ _ => rfl) (fun _ _ => rfl), updUnit_other _ _ hk, unitEmptied_unit]
  case bytes =>
    have hmem : (unitResetCompleteOp u s.ctx).mem = s.mem := by
      rw [hkeep (g := Ctx.mem) (fun _ _ _ => rfl) (fun _ _ => rfl), updUnit_mem, unitEmptied_mem, State.ctx_mem]
    rw [State.byte_run' _ _ _ hmem, hkeep (g := fun c => c.byte a) (fun _ _ _ => rfl) (fun _ _ => rfl), updUnit_byte]

/-! The request for a unit reset, its four ends. -/

variable (hd : d < 4) (hv : v < 2 ^ 32)
include hd hv

theorem clkUreset_wf : (Instr.clkUreset d v).wf = true := by simpa [Instr.wf, hd] using hv

theorem clkUreset_absorbed (hr : resetHeld s.ctx = true) : Completes (.clkUreset d v) s fun t => t.mem = s.mem ∧ t.dev = s.dev := by
  have hop : clkUresetOp d v s.ctx = s.ctx := clkUresetOp_absorbed hr
  exact .of_run (clkUresetOp d v) (clkUreset_wf hd hv) rfl ⟨State.run_mem_of_log _ _ (by rw [hop]; rfl), by rw [State.run_dev, hop]; rfl⟩

/-- A request that ends with an answer in its die's register. -/
theorem clkUreset_answers {f : DieSt → DieSt} (hop : clkUresetOp d v s.ctx = s.ctx.updDie d f) :
    Completes (.clkUreset d v) s fun t => t.mem = s.mem ∧ t.dev = { s.dev with dies := t.dev.dies } ∧ t.ctx.die d = f (s.ctx.die d) := by
  refine .of_run (clkUresetOp d v) (clkUreset_wf hd hv) rfl ⟨State.run_mem_of_log _ _ (by rw [hop]; rfl), ?_, ?_⟩
  · rw [State.run_dev, hop]; rfl
  · rw [State.run_at_die, hop, updDie_same]

/-- A request that starts the reset of unit `k`. -/
theorem clkUreset_starts {f : DieSt → DieSt} {g : UnitSt → UnitSt} {k : Nat}
    (hop : clkUresetOp d v s.ctx = (s.ctx.updDie d f).updUnit k g) :
    Completes (.clkUreset d v) s fun t => t.mem = s.mem ∧ t.dev = { s.dev with dies := t.dev.dies, units := t.dev.units } ∧
      t.ctx.die d = f (s.ctx.die d) ∧ t.ctx.unit k = g (s.ctx.unit k) ∧ ∀ j, j ≠ k → t.ctx.unit j = s.ctx.unit j := by
  refine .of_run (clkUresetOp d v) (clkUreset_wf hd hv) rfl ⟨State.run_mem_of_log _ _ (by rw [hop]; rfl), ?_, ?_, ?_, fun j hj => ?_⟩
  · rw [State.run_dev, hop]; rfl
  · rw [State.run_at_die, hop, updUnit_at_die, updDie_same]
  · rw [State.run_at_unit, hop, updUnit_same, updDie_at_unit]
  · rw [State.run_at_unit, hop, updUnit_other _ _ hj, updDie_at_unit]

end

/-- Settles O55: the start, release and return of a partial reset keep all but what their holding, zeroing and review change; a unit reset's
request is one answer of its die, and its end the clearing of the unit. -/
theorem diesAndUnitsReset : Obligations.DiesAndUnitsReset := by
  unfold Obligations.DiesAndUnitsReset
  intro s d v u hd hv hu x
  refine ⟨fun hv16 hr => ?preset, fun hvd hr hs hp => ?stops, fun hp hs => ?release, fun hp hl => ?admits,
    fun _ hr => clkUreset_absorbed hd hv hr, fun hb hr => ?ureset, fun hr hp => ?complete⟩
  case preset =>
    exact completes_becomes (by simpa [Instr.wf] using hv16) rfl (by simp [clkPresetOp, hr])
  case stops =>
    subst hvd
    exact clkPreset_stops hd hr hs hp
  case release =>
    obtain ⟨t, ht, hdie, hbyte⟩ := partialResetRelease_zeroes hd hp hs
    refine ⟨t, ht, hdie, fun k i hk => ⟨fun hi => ?_, fun hi => ?_⟩, fun a hum htr => ?_⟩
    · rw [hbyte, if_pos ⟨k, mem_unitsOf.mpr hk, .inl ⟨by omega, by omega⟩⟩]
    · rw [hbyte, if_pos ⟨k, mem_unitsOf.mpr hk, .inr ⟨by omega, by omega⟩⟩]
    · rw [hbyte, if_neg]
      rintro ⟨k, hk, ha⟩
      have := unitByte_of_die (mem_unitsOf.mp hk) ha
      omega
  case admits =>
    intro mine c1 c2 c3
    have hc3 : c3 = dieReturned d s.ctx := rfl
    rw [hc3]
    exact partialResetReturn_admits hd hp hl
  case ureset =>
    have hdie : dieOfUnit (128 * d + v % 128) = d := by simp only [dieOfUnit]; omega
    have hstart := unitResetStart_die hr (128 * d + v % 128) hdie (fun y : DieSt => { y with uresetRefused := false })
    refine ⟨fun hj hret => clkUreset_answers hd hv (clkUresetOp_refused hb hr hj hret), fun h hp => ?_, fun h hp => ?_⟩
    · exact clkUreset_starts hd hv ((clkUresetOp_taken hb hr h).trans (hstart.trans (if_pos hp)))
    · exact clkUreset_answers hd hv ((clkUresetOp_taken hb hr h).trans (hstart.trans (if_neg hp)))
  case complete =>
    obtain ⟨t, ht, hunit, hothers, hbyte, hcore⟩ := unitResetComplete_clears hu hr hp
    refine ⟨t, ht, hunit, hothers, fun i hi => ?_, fun i hi => ?_, fun a hlo hhi => ?_, hcore⟩
    · rw [hbyte, unitEmptied_byte, if_pos (.inr (.inl ⟨by omega, by omega⟩))]
    · rw [hbyte, unitEmptied_byte, if_pos (.inl (coreRam_of_unit hi))]
    · rw [hbyte, unitEmptied_byte, if_pos (.inr (.inr ⟨hlo, hhi⟩))]

end Sys2Proof.Machine

/-! # The matrix engine and the consumers of its rings: proofs -/

namespace Sys2Proof.Machine

/-! ### Entries of a queue -/

theorem updAt_eq_modify {α : Type} (l : List α) (i : Nat) (f : α → α) : updAt l i f = l.modify i f := by
  induction l generalizing i with
  | nil => simp [updAt]
  | cons a l ih => cases i <;> simp [updAt, ih]

theorem getElem?_updAt_same {α : Type} {l : List α} {i : Nat} {e : α} (f : α → α) (h : l[i]? = some e) : (updAt l i f)[i]? = some (f e) := by
  simp [updAt_eq_modify, h]

theorem updAt_updAt {α : Type} (l : List α) (i : Nat) (f g : α → α) : updAt (updAt l i f) i g = updAt l i (fun x => g (f x)) := by
  simp only [updAt_eq_modify, List.modify_modify_eq]; rfl

theorem eraseIdx_updAt {α : Type} (l : List α) (i : Nat) (f : α → α) : (updAt l i f).eraseIdx i = l.eraseIdx i := by
  induction l generalizing i with
  | nil => rfl
  | cons a l ih => cases i <;> simp [updAt, ih]

/-- A change of one element and a map that commutes with it. -/
theorem map_updAt {α : Type} {f h : α → α} (hc : ∀ x, h (f x) = f (h x)) (l : List α) (i : Nat) :
    (updAt l i f).map h = updAt (l.map h) i f := by
  induction l generalizing i with
  | nil => rfl
  | cons a l ih => cases i <;> simp [updAt, ih, hc]

/-- Two changes of one element that a map does not tell apart. -/
theorem map_updAt_congr {α β : Type} {l : List α} {i : Nat} {e : α} {f g : α → α} {h : α → β} (he : l[i]? = some e)
    (hfg : h (f e) = h (g e)) : (updAt l i f).map h = (updAt l i g).map h := by
  induction l generalizing i with
  | nil => rfl
  | cons a l ih =>
    cases i with
    | zero =>
      obtain rfl : a = e := by simpa using he
      simp [updAt, hfg]
    | succ i => simp [updAt, ih (i := i) (by simpa using he)]

/-- A relation that every element has to itself holds through a change of one element that keeps it. -/
theorem forall₂_updAt {α : Type} {R : α → α → Prop} (hr : ∀ x, R x x) {l : List α} {i : Nat} {e : α} {f : α → α} (h : l[i]? = some e)
    (hf : R e (f e)) : List.Forall₂ R l (updAt l i f) := by
  induction l generalizing i with
  | nil => exact .nil
  | cons a l ih =>
    cases i with
    | zero =>
      obtain rfl : a = e := by simpa using h
      exact .cons hf (List.forall₂_same.mpr fun x _ => hr x)
    | succ i => exact .cons (hr a) (ih (by simpa using h))

/-! ### Changes of one unit -/

theorem updUnit_updUnit (c : Ctx) (u : Nat) (f g : UnitSt → UnitSt) : (c.updUnit u f).updUnit u g = c.updUnit u (fun x => g (f x)) := by
  simp [Ctx.updUnit, Ctx.setUnit, Ctx.unit]

/-- A change of one entry of a queue, as a change of its unit. -/
def UnitSt.updEntry (q i : Nat) (f : Entry → Entry) (x : UnitSt) : UnitSt :=
  x.setQueue q { x.queue q with entries := updAt (x.queue q).entries i f }

theorem updEntry_eq (c : Ctx) (u q i : Nat) (f : Entry → Entry) : c.updEntry u q i f = c.updUnit u (UnitSt.updEntry q i f) := rfl

theorem updEntry_updEntry (c : Ctx) (u q i : Nat) (f g : Entry → Entry) :
    (c.updEntry u q i f).updEntry u q i g = c.updEntry u q i (fun x => g (f x)) := by
  simp only [updEntry_eq, updUnit_updUnit, queue_setQueue, setQueue_setQueue, updAt_updAt, UnitSt.updEntry]
  rfl

theorem dropEntry_updEntry (c : Ctx) (u q i : Nat) (f : Entry → Entry) : (c.updEntry u q i f).dropEntry u q i = c.dropEntry u q i := by
  simp only [updEntry_eq, Ctx.dropEntry, Ctx.updQueue, updUnit_updUnit, UnitSt.updEntry, queue_setQueue, setQueue_setQueue, eraseIdx_updAt]

/-- Replacing a queue keeps every reading of the unit that the queues do not enter. -/
theorem setQueue_keeps {β : Type} {g : UnitSt → β} (hme : ∀ x y, g { x with me := y } = g x) (hve : ∀ x y, g { x with ve := y } = g x)
    (hdma : ∀ x y, g { x with dma := y } = g x) (x : UnitSt) (q : Nat) (y : Queue) : g (x.setQueue q y) = g x := by
  match q with
  | 0 => exact hme x y
  | 1 => exact hve x y
  | _ + 2 => exact hdma x y

theorem setQueue_evts (x : UnitSt) (q : Nat) (y : Queue) : (x.setQueue q y).evts = x.evts :=
  setQueue_keeps (g := UnitSt.evts) (fun _ _ => rfl) (fun _ _ => rfl) (fun _ _ => rfl) x q y

theorem setQueue_cpls (x : UnitSt) (q : Nat) (y : Queue) : (x.setQueue q y).cpls = x.cpls :=
  setQueue_keeps (g := UnitSt.cpls) (fun _ _ => rfl) (fun _ _ => rfl) (fun _ _ => rfl) x q y

theorem setQueue_rings (x : UnitSt) (q : Nat) (y : Queue) : (x.setQueue q y).rings = x.rings :=
  setQueue_keeps (g := UnitSt.rings) (fun _ _ => rfl) (fun _ _ => rfl) (fun _ _ => rfl) x q y

theorem Completes.imp {i : Instr} {s : State} {P Q : State → Prop} (h : Completes i s P) (hpq : ∀ t, P t → Q t) : Completes i s Q := by
  obtain ⟨t, ht, hp⟩ := h
  exact ⟨t, ht, hpq t hp⟩

theorem Wrote.mem_eq {s t : State} {c : Ctx} (h : Wrote s c t) (hl : c.log = []) : t.mem = s.mem := by
  rw [h, hl]; rfl

/-- A command that writes memory and then changes one unit. -/
theorem completes_updUnit {i : Instr} {s : State} {op : Ctx → Ctx} {u : Nat} {c : Ctx} {f : UnitSt → UnitSt} (hw : i.wf = true)
    (he : exec i s = perform i s op) (hop : op s.ctx = c.updUnit u f) (hdev : c.dev = s.dev) :
    Completes i s fun t => Wrote s c t ∧ OnlyUnit u s t ∧ t.ctx.unit u = f (s.ctx.unit u) := by
  have hunit (v : Nat) : c.unit v = s.ctx.unit v := by rw [Ctx.unit, hdev]; rfl
  refine .of_run op hw he ⟨.of_log (by rw [hop]; rfl), ⟨?_, fun v hv => ?_⟩, ?_⟩
  · rw [State.run_dev, hop, Ctx.updUnit, Ctx.setUnit, hdev]
  · rw [State.run_at_unit, hop, updUnit_other c f hv, hunit]
  · rw [State.run_at_unit, hop, updUnit_same, hunit]

/-- A command that changes one unit and nothing else. -/
theorem completes_unit {i : Instr} {s : State} {op : Ctx → Ctx} {u : Nat} {f : UnitSt → UnitSt} (hw : i.wf = true)
    (he : exec i s = perform i s op) (hop : op s.ctx = s.ctx.updUnit u f) :
    Completes i s fun t => t.mem = s.mem ∧ OnlyUnit u s t ∧ t.ctx.unit u = f (s.ctx.unit u) :=
  (completes_updUnit hw he hop rfl).imp fun _ ⟨hwrote, hrest⟩ => ⟨hwrote.mem_eq rfl, hrest⟩

/-! ### The end of a command (R138, R219) -/

/-- The entries of queue `q` and the event counters replaced. -/
def UnitSt.ended (q : Nat) (l : List Entry) (evts : Tab Evt) (x : UnitSt) : UnitSt :=
  { x.setQueue q { x.queue q with entries := l } with evts := evts }

theorem recordDue_of_cpls {c c' : Ctx} {u : Nat} (h : (c'.unit u).cpls = (c.unit u).cpls) (e : Entry) : recordDue c' u e = recordDue c u e := by
  rw [recordDue, h]; rfl

theorem updUnit_congr {c : Ctx} {u : Nat} {f g : UnitSt → UnitSt} (h : f (c.unit u) = g (c.unit u)) : c.updUnit u f = c.updUnit u g := by
  rw [Ctx.updUnit, Ctx.updUnit, h]

/-- Counters put back as they stand. -/
theorem ended_evts (q : Nat) (l : List Entry) (x : UnitSt) : x.ended q l x.evts = x.setQueue q { x.queue q with entries := l } := by
  match q with
  | 0 => rfl
  | 1 => rfl
  | _ + 2 => rfl

/-- A command that ends well in a context whose unit has the queue, the counters and the rings of `s`. -/
theorem finish_done {s : State} {c : Ctx} {u q i : Nat} {e : Entry} (detail : Nat)
    (hq : ((c.unit u).queue q).entries = ((s.ctx.unit u).queue q).entries) (hv : (c.unit u).evts = (s.ctx.unit u).evts)
    (hc : (c.unit u).cpls = (s.ctx.unit u).cpls) (h : ((s.ctx.unit u).queue q).entries[i]? = some e) :
    finish u q i 0 detail c = c.updUnit u (UnitSt.ended q (doneEntries s u q i e 0 detail) (doneEvts s u e)) := by
  rw [finish_zero detail (hq ▸ h), recordDue_of_cpls hc e]
  unfold doneEntries doneEvts
  by_cases hdue : recordDue s.ctx u e = true
  · rw [if_pos hdue, if_pos hdue, hdue, Bool.not_true, Bool.and_false, if_neg Bool.false_ne_true, ← hq, ← hv, updEntry_eq]
    refine updUnit_congr ?_
    exact (ended_evts ..).symm
  · rw [if_neg hdue, if_neg hdue, ← hq, Bool.eq_false_iff.mpr hdue, Bool.not_false, Bool.and_true, signalOf]
    by_cases hs : hSig e.desc = true
    · rw [if_pos hs, if_pos hs, addEvt_eq, addEvt_eq, updUnit_same, Ctx.dropEntry, Ctx.updQueue, updUnit_updUnit, ← hv]
      exact updUnit_congr (by rw [setQueue_evts]; rfl)
    · rw [if_neg hs, if_neg hs, ← hv, Ctx.dropEntry, Ctx.updQueue]
      refine updUnit_congr ?_
      exact (ended_evts ..).symm

/-- Marking the command that ends makes no difference. -/
theorem finish_markStarted {c : Ctx} {u q i : Nat} {e : Entry} (detail : Nat) (h : ((c.unit u).queue q).entries[i]? = some e) :
    finish u q i 0 detail (markStarted u q i id c) = finish u q i 0 detail c := by
  have hunit : (markStarted u q i id c).unit u = UnitSt.updEntry q i (fun x => { x with started := true }) (c.unit u) := updUnit_same ..
  have hmark : (((markStarted u q i id c).unit u).queue q).entries[i]? = some { e with started := true } := by
    rw [hunit, UnitSt.updEntry, queue_setQueue]
    exact getElem?_updAt_same _ h
  rw [finish_zero detail hmark, finish_zero detail h, recordDue_of_cpls (c := c) (by rw [hunit, UnitSt.updEntry, setQueue_cpls])]
  simp only [markStarted, updEntry_updEntry, dropEntry_updEntry]
  rfl

end Sys2Proof.Machine

namespace Sys2Proof.Machine

/-! ### Fences (R161, R209) -/

theorem fenceMet_iff {c : Ctx} {u i : Nat} {d : Desc} : fenceMet c u i d = true ↔
    (fld d 8 0 1 = 1 → i = 0) ∧ (fld d 8 1 1 = 1 → fld d 12 0 32 ≤ evtWord c u (fld d 9 0 4)) := by
  rw [fenceMet, Bool.and_eq_true, Bool.or_eq_true, Bool.or_eq_true, decide_eq_true_eq, imp_iff_not_or, imp_iff_not_or]
  simp only [fWrites, fWait, fValue, fEvt, Bool.not_eq_true', beq_eq_false_iff_ne, beq_iff_eq, ne_eq]

section
variable {s : State} {u q op i : Nat} {e : Entry}

theorem fenceStart_met (h : startable s.ctx u q op = some (i, e)) (hok : fenceOk e.desc = true) (hm : fenceMet s.ctx u i e.desc = true) :
    fenceStart q op u s.ctx = s.ctx.updUnit u (UnitSt.ended q (doneEntries s u q i e 0 0) (doneEvts s u e)) := by
  obtain ⟨he, -⟩ := startable_some h
  simp only [fenceStart, h, hok, hm, Bool.not_true, Bool.false_eq_true, if_false, if_true]
  rw [finish_markStarted 0 he, finish_done 0 rfl rfl rfl he]

theorem fenceStart_waits (h : startable s.ctx u q op = some (i, e)) (hok : fenceOk e.desc = true) (hm : ¬ fenceMet s.ctx u i e.desc = true) :
    fenceStart q op u s.ctx = s.ctx.updUnit u (UnitSt.updEntry q i (fun x => { x with started := true })) := by
  simp only [fenceStart, h, hok, hm, Bool.not_true, Bool.false_eq_true, if_false]
  rfl

theorem fenceComplete_met (h : findActive s.ctx u q op (fun _ => true) = some (i, e)) (hl : queueLive s.ctx u q = true)
    (hm : fenceMet s.ctx u i e.desc = true) :
    fenceComplete q op u s.ctx = s.ctx.updUnit u (UnitSt.ended q (doneEntries s u q i e 0 0) (doneEvts s u e)) := by
  obtain ⟨he, -⟩ := findActive_some h
  simp only [fenceComplete, h, hl, hm, Bool.and_self, if_true]
  exact finish_done 0 rfl rfl rfl he

theorem fenceComplete_waits (h : findActive s.ctx u q op (fun _ => true) = some (i, e)) (hm : ¬ fenceMet s.ctx u i e.desc = true) :
    fenceComplete q op u s.ctx = s.ctx := by
  simp [fenceComplete, h, hm]

end

/-- The commands of a queue's fence: its start and its completion. -/
theorem fence_commands {u : Nat} (hu : u < 512) {f : Nat × Nat × Instr × Instr}
    (hf : f ∈ [((0 : Nat), (0x13 : Nat), Instr.meFence u, Instr.meFenceComplete u), (1, 0x22, .veFence u, .veFenceComplete u),
      (2, 0x31, .dmaFence u, .dmaFenceComplete u)]) (s : State) :
    (f.2.2.1.wf = true ∧ exec f.2.2.1 s = perform f.2.2.1 s (fenceStart f.1 f.2.1 u)) ∧
      f.2.2.2.wf = true ∧ exec f.2.2.2 s = perform f.2.2.2 s (fenceComplete f.1 f.2.1 u) := by
  simp only [List.mem_cons, List.not_mem_nil, or_false] at hf
  obtain rfl | rfl | rfl := hf <;> exact ⟨⟨decide_eq_true hu, rfl⟩, decide_eq_true hu, rfl⟩

/-- Settles O20: a fence that ends is one change of its unit, made in the step it starts or, where it waits, when its conditions hold. -/
theorem fencesCompleteWhenTheirConditionsHold : Obligations.FencesCompleteWhenTheirConditionsHold := by
  unfold Obligations.FencesCompleteWhenTheirConditionsHold
  intro s u i e hu f hf
  obtain ⟨⟨hsw, hse⟩, hcw, hce⟩ := fence_commands hu hf s
  simp only [← fenceMet_iff]
  refine ⟨fun h hok => ⟨fun hm => ?startMet, fun hm => ?startWaits⟩, fun h hl => ⟨fun hm => ?completeMet, fun hm => ?completeWaits⟩⟩
  case startMet => exact completes_unit hsw hse (fenceStart_met h hok hm)
  case startWaits => exact completes_unit hsw hse (fenceStart_waits h hok hm)
  case completeMet => exact completes_unit hcw hce (fenceComplete_met h hl hm)
  case completeWaits =>
    exact (completes_becomes hcw hce (fenceComplete_waits h hm)).imp fun _ ⟨hdev, hwrote⟩ => ⟨hwrote.mem_eq rfl, hdev⟩

end Sys2Proof.Machine

namespace Sys2Proof.Machine

/-! ### The end of a load (R138) -/

/-- An event counter's register after one more event (R216). -/
theorem word_add_one (x : Evt) : (x.add 1).word = (if x.count < 0x7FFFFFFF then x.count + 1 else 0x7FFFFFFF) +
    (if x.count < 0x7FFFFFFF ∧ x.sticky = false then 0 else 2 ^ 31) := by
  by_cases h : x.count < 0x7FFFFFFF
  · rw [Evt.add, if_neg (by omega), if_pos h]
    cases x.sticky <;> simp [Evt.word, h]
  · rw [Evt.add, if_pos (by omega), if_neg h, if_neg (fun e => h e.1)]
    rfl

/-- The counter of a command's signal counts when the command ends with no record due. -/
theorem doneEvts_signal {s : State} {u : Nat} {e : Entry} (hs : hSig e.desc = true) (hd : recordDue s.ctx u e = false) :
    Tab.get {} (doneEvts s u e) (hSigEvt e.desc) = (Tab.get {} (s.ctx.unit u).evts (hSigEvt e.desc)).add 1 := by
  rw [doneEvts, hs, hd, Bool.not_false, Bool.and_true, if_pos rfl, addEvt_eq, updUnit_same, Tab.upd, Tab.get_set_same]

theorem meLoadCompleteOp_loaded {s : State} {u i : Nat} {e : Entry} (h : findActive s.ctx u 0 0x10 (fun _ => true) = some (i, e))
    (hl : unitLive s.ctx u = true) (hp : e.poison = false) :
    meLoadCompleteOp u s.ctx = s.ctx.updUnit u (fun x =>
      UnitSt.ended 0 (doneEntries s u 0 i e 0 0) (doneEvts s u e) { x with tile := e.tile }) := by
  obtain ⟨he, -⟩ := findActive_some h
  simp only [meLoadCompleteOp, h, hl, hp, Bool.not_true, Bool.false_eq_true, if_false]
  rw [finish_done (s := s) 0 (by rw [updUnit_same]; rfl) (by rw [updUnit_same]) (by rw [updUnit_same]) he, updUnit_updUnit]

/-! ### Rows written (R136) -/

theorem length_elemRowBytes (f : Nat) (codes : List Nat) : (elemRowBytes f codes).length = codes.length * elemBytes f 1 := by
  simp [elemRowBytes, List.length_flatMap]

/-- A unit one of whose rings has a row more written, where the stream has a ring. -/
def UnitSt.rowWritten (d : Desc) (x : UnitSt) : UnitSt :=
  if sDest d = 1 then { x with rings := Tab.upd {} x.rings (sTr d) (fun g => { g with written := g.written + 1 }) } else x

theorem rowWritten_ring {d : Desc} (h : sDest d = 1) (x : UnitSt) :
    (Tab.get {} (x.rowWritten d).rings (sTr d)).written = (Tab.get {} x.rings (sTr d)).written + 1 := by
  rw [UnitSt.rowWritten, if_pos h, Tab.upd, Tab.get_set_same]

theorem rowWritten_rings {d : Desc} (h : sDest d ≠ 1) (x : UnitSt) : (x.rowWritten d).rings = x.rings := by
  rw [UnitSt.rowWritten, if_neg h]

theorem rowWritten_me (d : Desc) (x : UnitSt) : (x.rowWritten d).me = x.me := by
  unfold UnitSt.rowWritten; split <;> rfl

/-- A change of a unit made under a condition, then another. -/
theorem ite_updUnit_updUnit {p : Prop} [Decidable p] (c : Ctx) (u : Nat) (f g : UnitSt → UnitSt) :
    (if p then c.updUnit u f else c).updUnit u g = c.updUnit u (fun x => g (if p then f x else x)) := by
  split
  · exact updUnit_updUnit ..
  · rfl

theorem ite_updUnit_same {p : Prop} [Decidable p] (c : Ctx) (u : Nat) (f : UnitSt → UnitSt) :
    (if p then c.updUnit u f else c).unit u = if p then f (c.unit u) else c.unit u := by
  split
  · exact updUnit_same ..
  · rfl

theorem meOutputRowWriteOp_clean {s : State} {u i : Nat} {e : Entry} {r : RowOut} {rest : List RowOut}
    (h : findActive s.ctx u 0 0x11 (fun e => !e.flight.isEmpty) = some (i, e)) (hf : e.flight = r :: rest) (hl : unitLive s.ctx u = true)
    (hc : Clean s) :
    let a := outAddr u e.desc r.n
    meOutputRowWriteOp u s.ctx = (s.ctx.write a (elemRowBytes 0 (outCodes s.ctx e a r.sums))).updUnit u
      (fun x => UnitSt.updEntry 0 i (fun y => { y with flight := rest }) (x.rowWritten e.desc)) := by
  intro a
  simp only [meOutputRowWriteOp, h, hf, hl, eccRead_clean _ _ (State.clean_ctx hc), ite_self, poisonAt_clean _ _ (State.clean_ctx hc),
    Bool.and_false, Bool.or_false, store_clean _ _ (State.clean_ctx hc), updEntry_eq]
  exact ite_updUnit_updUnit ..

/-- Settles O15: the row is the command's one write, and its ring and its stream are the one change of its unit. -/
theorem meOutputRowIsWrittenInPlace : Obligations.MeOutputRowIsWrittenInPlace := by
  unfold Obligations.MeOutputRowIsWrittenInPlace
  intro s u i e r rest hu h hf hl hc a
  have hlen : (elemRowBytes 0 (outCodes s.ctx e a r.sums)).length = 4 * r.sums.length := by
    rw [length_elemRowBytes, outCodes, List.length_map, List.length_range, Nat.mul_comm]; rfl
  rw [← hlen]
  have hwf : (Instr.meOutputRowWrite u).wf = true := decide_eq_true hu
  refine (completes_updUnit hwf rfl (meOutputRowWriteOp_clean h hf hl hc) (Ctx.write_dev ..)).imp
    fun t ⟨hw, ho, hx⟩ => ⟨hw.bytes_write, hw.keepsMemoryBut, ho, ?entries, fun hd => ?ring, fun hd => ?rings⟩
  case entries =>
    rw [hx, ← rowWritten_me e.desc (s.ctx.unit u)]; rfl
  case ring =>
    rw [hx]; exact rowWritten_ring hd _
  case rings =>
    rw [hx]; exact rowWritten_rings hd _

/-! ### Records of a drain (R143, R144) -/

/-- Stores of some pieces, memory being without errors: no byte outside the pieces changes. -/
theorem foldl_store_clean (addr : Nat → Nat) (data : Nat → List Byte) (ks : List Nat) {c : Ctx} (hc : c.Clean) :
    let c' := ks.foldl (fun a r => store (addr r) (data r) a) c
    c'.mem = c.mem ∧ c'.dev = c.dev ∧ ∀ b, (∀ r ∈ ks, b < addr r ∨ addr r + (data r).length ≤ b) → c'.byte b = c.byte b := by
  induction ks generalizing c with
  | nil => exact ⟨rfl, rfl, fun _ _ => rfl⟩
  | cons k ks ih =>
    rw [List.foldl_cons, store_clean _ _ hc]
    obtain ⟨hmem, hdev, hbyte⟩ := ih (Ctx.clean_write (addr k) (data k) hc)
    refine ⟨hmem.trans (Ctx.write_mem ..), hdev.trans (Ctx.write_dev ..), fun b hb => ?_⟩
    have hk := hb k List.mem_cons_self
    rw [hbyte b fun r hr => hb r (List.mem_cons_of_mem k hr), Ctx.byte_write, if_neg (by omega)]

/-- The records of a drain's rows: the rows or, transposed, their columns. -/
def drainRecs (d : Desc) (rows : List (List Nat)) : List (List Nat) :=
  if dTransposed d then (List.range (dCols d)).map (fun j => rows.map (fun r => r.getD j 0)) else rows

theorem drainWrite_clean (d : Desc) (rows : List (List Nat)) {c : Ctx} (hc : c.Clean) :
    (drainWrite d rows c).mem = c.mem ∧ (drainWrite d rows c).dev = c.dev ∧
    ∀ b, (∀ r, r < (drainRecs d rows).length → b < dDst d + r * dStride d ∨
      dDst d + r * dStride d + (drainRecord d ((drainRecs d rows).getD r [])).length ≤ b) → (drainWrite d rows c).byte b = c.byte b := by
  obtain ⟨hmem, hdev, hbyte⟩ := foldl_store_clean (fun r => dDst d + r * dStride d) (fun r => drainRecord d ((drainRecs d rows).getD r []))
    (List.range (drainRecs d rows).length) hc
  exact ⟨hmem, hdev, fun b hb => hbyte b fun r hr => hb r (List.mem_range.mp hr)⟩

theorem length_chunks {α : Type} (n k : Nat) (l : List α) : (chunks n k l).length = k := by
  induction k generalizing l with
  | zero => rfl
  | succ k ih => rw [chunks, List.length_cons, ih]

theorem length_mxRowBytes (rtz : Bool) (xs : List Ext) : (mxRowBytes rtz xs).length = (xs.length + 127) / 128 * 68 := by
  simp [mxRowBytes, List.length_flatMap, length_chunks]

/-- A record of `n` codes has the bytes of a row of `n` elements. -/
theorem length_drainRecord {d : Desc} (h : dFmt d ≤ 7) (codes : List Nat) : (drainRecord d codes).length = rowBytes (dFmt d) codes.length := by
  by_cases h4 : dFmt d = 4
  · simp only [drainRecord, rowBytes, if_pos h4, length_mxRowBytes, List.length_map]
  · simp only [drainRecord, rowBytes, if_neg h4, if_neg (show dFmt d ≠ 8 by omega), length_elemRowBytes, List.length_map]
    generalize dFmt d = f at h h4
    interval_cases f <;> simp [elemBytes, elemBytes.fmtWidthOf] <;> omega

theorem drainOk_fmt {d : Desc} (h : drainOk d = true) : dFmt d ≤ 7 := by
  simp only [drainOk, Bool.and_eq_true, decide_eq_true_eq, and_assoc] at h
  obtain ⟨-, -, -, -, -, -, -, hfmt, -⟩ := h
  exact hfmt

end Sys2Proof.Machine

namespace Sys2Proof.Machine

/-! ### Streams and drains complete (R138, R219) -/

/-- A unit whose ring is no longer active, where the stream has a ring. -/
def UnitSt.ringOver (d : Desc) (x : UnitSt) : UnitSt :=
  if sDest d = 1 then { x with rings := Tab.upd {} x.rings (sTr d) (fun g => { g with active := false }) } else x

theorem ringOver_ring {d : Desc} (h : sDest d = 1) (x : UnitSt) : (Tab.get {} (x.ringOver d).rings (sTr d)).active = false := by
  rw [UnitSt.ringOver, if_pos h, Tab.upd, Tab.get_set_same]

theorem ringOver_keeps {β : Type} {g : UnitSt → β} (hg : ∀ x r, g { x with rings := r } = g x) (d : Desc) (x : UnitSt) :
    g (x.ringOver d) = g x := by
  unfold UnitSt.ringOver
  split
  · exact hg x _
  · rfl

theorem meStreamCompleteOp_done {s : State} {u i : Nat} {e : Entry}
    (h : findActive s.ctx u 0 0x11 (fun e => decide (sN e.desc ≤ e.pos) && e.flight.isEmpty) = some (i, e))
    (hl : unitLive s.ctx u = true) (hp : e.poison = false) :
    meStreamCompleteOp u s.ctx = s.ctx.updUnit u (fun x =>
      UnitSt.ended 0 (doneEntries s u 0 i e 0 0) (doneEvts s u e) (x.ringOver e.desc)) := by
  obtain ⟨he, -⟩ := findActive_some h
  simp only [meStreamCompleteOp, h, hl, hp, Bool.not_true, Bool.false_eq_true, if_false]
  rw [finish_done (s := s) 0 ?me ?evts ?cpls he]
  · exact ite_updUnit_updUnit ..
  all_goals rw [ite_updUnit_same]
  case me => exact ringOver_keeps (g := fun x => x.me.entries) (fun _ _ => rfl) e.desc _
  case evts => exact ringOver_keeps (g := UnitSt.evts) (fun _ _ => rfl) e.desc _
  case cpls => exact ringOver_keeps (g := UnitSt.cpls) (fun _ _ => rfl) e.desc _

/-- The records a drain writes when it completes: those of the ring rows it took (log entry 23). -/
def drainEnd (e : Entry) (c : Ctx) : Ctx := if dRelease e.desc then drainWrite e.desc e.rows c else c

theorem drainEnd_dev (e : Entry) {c : Ctx} (hc : c.Clean) : (drainEnd e c).dev = c.dev := by
  unfold drainEnd
  split
  · exact (drainWrite_clean e.desc e.rows hc).2.1
  · rfl

theorem meDrainCompleteOp_done {s : State} {u i : Nat} {e : Entry}
    (h : findActive s.ctx u 0 0x12 (fun e => decide (dCount e.desc ≤ e.pos)) = some (i, e)) (hl : unitLive s.ctx u = true) (hc : Clean s) :
    meDrainCompleteOp u s.ctx = (drainEnd e s.ctx).updUnit u (UnitSt.ended 0 (doneEntries s u 0 i e 0 0) (doneEvts s u e)) := by
  obtain ⟨he, -⟩ := findActive_some h
  have hunit : (drainEnd e s.ctx).unit u = s.ctx.unit u := by rw [Ctx.unit, drainEnd_dev e (State.clean_ctx hc)]; rfl
  simp only [meDrainCompleteOp, h, hl, Bool.not_true, Bool.false_eq_true, if_false]
  exact finish_done (c := drainEnd e s.ctx) 0 (by rw [hunit]) (by rw [hunit]) (by rw [hunit]) he

/-- Settles O16: a stream's end is one change of its unit, a drain's end that and, with RELEASE, the records of its rows. -/
theorem meStreamAndDrainComplete : Obligations.MeStreamAndDrainComplete := by
  unfold Obligations.MeStreamAndDrainComplete
  intro s u i e hu hl
  refine ⟨fun h hp => ?stream, fun h hc => ?drain⟩
  case stream =>
    have hwf : (Instr.meStreamComplete u).wf = true := decide_eq_true hu
    refine (completes_unit hwf rfl (meStreamCompleteOp_done h hl hp)).imp fun t ⟨hmem, honly, hunit⟩ => ⟨hmem, honly, ?_, ?_, fun hd => ?_⟩
    · rw [hunit]; rfl
    · rw [hunit]; rfl
    · rw [hunit]; exact ringOver_ring hd _
  case drain =>
    have hwf : (Instr.meDrainComplete u).wf = true := decide_eq_true hu
    refine (completes_updUnit hwf rfl (meDrainCompleteOp_done h hl hc) (drainEnd_dev e (State.clean_ctx hc))).imp
      fun t ⟨hwrote, honly, hunit⟩ => ⟨honly, hunit, fun hr => ?_, fun hr => ?_⟩
    · exact hwrote.mem_eq (by rw [drainEnd, hr]; rfl)
    · rwa [drainEnd, if_pos hr] at hwrote

/-! ### A drain starts (R124, R143) -/

/-- No record of a drain leaves the unit's memory where each of them lies in it (R166). -/
theorem find?_records_own {c : Ctx} {u : Nat} {d : Desc}
    (h : ∀ r, r < drainRecords d → ownUm c u (dDst d + r * dStride d) (drainBytes d) false = true) :
    (List.range (drainRecords d)).find? (fun r => !ownUm c u (dDst d + r * dStride d) (drainBytes d) false) = none := by
  simpa using h

section
variable {s : State} {u i : Nat} {e : Entry} (h : startable s.ctx u 0 0x12 = some (i, e))
  (hb : (s.ctx.unit u).me.entries.any (fun x => x.active && hOpcode x.desc == 0x12) = false) (hok : drainOk e.desc = true)
  (hown : ∀ r, r < drainRecords e.desc → ownUm s.ctx u (dDst e.desc + r * dStride e.desc) (drainBytes e.desc) false = true)
include h hb hok hown

theorem meDrainOp_release (hr : dRelease e.desc = true) : meDrainOp u s.ctx = s.ctx.updUnit u (UnitSt.updEntry 0 i (fun x =>
    { x with ringNext := (Tab.get {} (s.ctx.unit u).rings (dTr e.desc)).released, started := true })) := by
  simp only [meDrainOp, h, hb, hok, find?_records_own hown, hr, Bool.not_true, Bool.false_eq_true, if_false, if_true]
  rfl

theorem meDrainOp_writes (hr : dRelease e.desc = false) (ht : streamTo (s.ctx.unit u).me i (dTr e.desc) = false) :
    let rows := (List.range (dCount e.desc)).map (fun k => trRow s.ctx u (dTr e.desc) (dFirst e.desc + k) (dCols e.desc))
    meDrainOp u s.ctx = (drainWrite e.desc rows s.ctx).updUnit u
      (UnitSt.updEntry 0 i (fun x => { x with pos := dCount e.desc, started := true })) := by
  simp only [meDrainOp, h, hb, hok, find?_records_own hown, hr, ht, Bool.not_true, Bool.false_eq_true, if_false]
  rfl

end

/-- The records of `n` rows of `m` columns: their number, and the codes of each. -/
theorem drainRecs_shape (d : Desc) {rows : List (List Nat)} (hn : rows.length = dCount d) (hm : ∀ r ∈ rows, r.length = dCols d) :
    (drainRecs d rows).length = drainRecords d ∧ ∀ r, r < drainRecords d →
      rowBytes (dFmt d) ((drainRecs d rows).getD r []).length = drainBytes d := by
  unfold drainRecs drainRecords drainBytes
  split
  · refine ⟨by simp, fun r hr => ?_⟩
    simp [List.getD_eq_getElem?_getD, hr, hn]
  · refine ⟨hn, fun r hr => ?_⟩
    have hlt : r < rows.length := hn ▸ hr
    rw [List.getD_eq_getElem?_getD, List.getElem?_eq_getElem hlt, Option.getD_some, hm _ (List.getElem_mem hlt)]

/-- Settles O17: without RELEASE the drain writes the records of its rows and is done with them, with RELEASE it is only under way. -/
theorem meDrainWritesItsRecords : Obligations.MeDrainWritesItsRecords := by
  unfold Obligations.MeDrainWritesItsRecords
  intro s u i e hu h hb hok hown hc
  have hwf : (Instr.meDrain u).wf = true := decide_eq_true hu
  refine ⟨fun hr ht => ?writes, fun hr => ?release⟩
  case writes =>
    intro rows
    obtain ⟨hmem, hdev, hbyte⟩ := drainWrite_clean e.desc rows (State.clean_ctx hc)
    obtain ⟨hnum, hlen⟩ := drainRecs_shape e.desc (rows := rows) (by simp [rows]) (by simp [rows, trRow])
    refine (completes_updUnit hwf rfl (meDrainOp_writes h hb hok hown hr ht) hdev).imp
      fun t ⟨hwrote, honly, hunit⟩ => ⟨honly, hwrote, fun a ha => ?_, by rw [hunit]; rfl⟩
    rw [hwrote.byte hmem]
    refine hbyte a fun r hr => ?_
    rw [length_drainRecord (drainOk_fmt hok), hlen r (hnum ▸ hr)]
    exact ha r (hnum ▸ hr)
  case release =>
    exact (completes_unit hwf rfl (meDrainOp_release h hb hok hown hr)).imp
      fun t ⟨hmem, honly, hunit⟩ => ⟨hmem, honly, by rw [hunit]; rfl⟩

end Sys2Proof.Machine

namespace Sys2Proof.Machine

/-! ### What the feeder changes (R140, R141) -/

/-- What the feeder does to an entry: rows are added to those of a stream, and the row that enters next stays once it has begun. -/
structure Entry.Fetched (x y : Entry) : Prop where
  unfed : y.unfed = x.unfed
  feed : ∃ more, y.feed = x.feed ++ more
  begun : x.fetchNext.isSome → y.fetchNext.isSome ∧ y.pos = x.pos

theorem Entry.Fetched.refl (x : Entry) : x.Fetched x := ⟨rfl, ⟨[], (List.append_nil _).symm⟩, fun h => ⟨h, rfl⟩⟩

theorem Entry.Fetched.trans {x y z : Entry} (h : x.Fetched y) (k : y.Fetched z) : x.Fetched z := by
  obtain ⟨hunfed, ⟨more, hmore⟩, hbegun⟩ := h
  obtain ⟨kunfed, ⟨more', hmore'⟩, kbegun⟩ := k
  refine ⟨kunfed.trans hunfed, ⟨more ++ more', by rw [hmore', hmore, List.append_assoc]⟩, fun hx => ?_⟩
  obtain ⟨hy, hpos⟩ := hbegun hx
  obtain ⟨hz, kpos⟩ := kbegun hy
  exact ⟨hz, kpos.trans hpos⟩

/-- Memory and the devices of `c'` are those of `c`, unit `u` apart. -/
structure SameBut (u : Nat) (c c' : Ctx) : Prop where
  mem : c'.mem = c.mem
  log : c'.log = c.log
  dev : c'.dev = { c.dev with units := c'.dev.units }
  others : ∀ v, v ≠ u → c'.unit v = c.unit v

theorem SameBut.refl (u : Nat) (c : Ctx) : SameBut u c c := ⟨rfl, rfl, rfl, fun _ _ => rfl⟩

theorem SameBut.trans {u : Nat} {a b c : Ctx} (h : SameBut u a b) (k : SameBut u b c) : SameBut u a c where
  mem := k.mem.trans h.mem
  log := k.log.trans h.log
  dev := by rw [k.dev, h.dev]
  others v hv := (k.others v hv).trans (h.others v hv)

theorem SameBut.updUnit (u : Nat) (c : Ctx) (f : UnitSt → UnitSt) : SameBut u c (c.updUnit u f) :=
  ⟨rfl, rfl, rfl, fun _ hv => updUnit_other _ _ hv⟩

theorem SameBut.updEntry (u q i : Nat) (c : Ctx) (f : Entry → Entry) : SameBut u c (c.updEntry u q i f) :=
  .updUnit u c (UnitSt.updEntry q i f)

theorem SameBut.draw {u : Nat} {c c' : Ctx} (h : SameBut u c c') (k : Nat) : SameBut u (c.draw k).2 (c'.draw k).2 where
  mem := h.mem
  log := h.log
  dev := by simp only [Ctx.draw]; rw [h.dev]
  others := h.others

theorem SameBut.clean {u : Nat} {c c' : Ctx} (h : SameBut u c c') (hc : c.Clean) : c'.Clean := by
  rw [Ctx.Clean, h.dev]; exact hc

/-- `c'` is `c` after work of unit `u`'s feeder. -/
structure Feeds (u : Nat) (c c' : Ctx) : Prop extends SameBut u c c' where
  unit : c'.unit u = { c.unit u with me := { (c.unit u).me with entries := (c'.unit u).me.entries } }
  entries : List.Forall₂ Entry.Fetched (c.unit u).me.entries (c'.unit u).me.entries

theorem Feeds.refl (u : Nat) (c : Ctx) : Feeds u c c := ⟨.refl u c, rfl, List.forall₂_same.mpr fun x _ => .refl x⟩

theorem forall₂_fetched_trans {l m n : List Entry} (h : List.Forall₂ Entry.Fetched l m) (k : List.Forall₂ Entry.Fetched m n) :
    List.Forall₂ Entry.Fetched l n := by
  induction h generalizing n with
  | nil => exact k
  | cons hab _ ih =>
    cases k with
    | cons hbc hrest => exact .cons (hab.trans hbc) (ih hrest)

theorem Feeds.trans {u : Nat} {a b c : Ctx} (h : Feeds u a b) (k : Feeds u b c) : Feeds u a c where
  toSameBut := h.toSameBut.trans k.toSameBut
  unit := by rw [k.unit, h.unit]
  entries := forall₂_fetched_trans h.entries k.entries

theorem updEntry_me (c : Ctx) (u i : Nat) (f : Entry → Entry) :
    ((c.updEntry u 0 i f).unit u).me.entries = updAt (c.unit u).me.entries i f := by
  rw [updEntry_eq, updUnit_same]; rfl

theorem draw_unit (c : Ctx) (k u : Nat) : (c.draw k).2.unit u = c.unit u := rfl

theorem Feeds.updEntry {u i : Nat} {c : Ctx} {e : Entry} {f : Entry → Entry} (h : (c.unit u).me.entries[i]? = some e)
    (hf : e.Fetched (f e)) : Feeds u c (c.updEntry u 0 i f) where
  toSameBut := .updEntry ..
  unit := by rw [updEntry_me, updEntry_eq, updUnit_same]; rfl
  entries := by rw [updEntry_me]; exact forall₂_updAt Entry.Fetched.refl h hf

/-- An entry after the feeder's work, and what it was before. -/
theorem Feeds.entry {u i : Nat} {c c' : Ctx} {y : Entry} (h : Feeds u c c') (hy : (c'.unit u).me.entries[i]? = some y) :
    ∃ x, (c.unit u).me.entries[i]? = some x ∧ x.Fetched y := by
  obtain ⟨hlen, hget⟩ := List.forall₂_iff_get.mp h.entries
  obtain ⟨hi, rfl⟩ := List.getElem?_eq_some_iff.mp hy
  exact ⟨_, List.getElem?_eq_getElem (hlen ▸ hi), hget i (hlen ▸ hi) hi⟩

theorem map_unfed_of_fetched {l m : List Entry} (h : List.Forall₂ Entry.Fetched l m) : m.map Entry.unfed = l.map Entry.unfed := by
  induction h with
  | nil => rfl
  | cons hab _ ih => rw [List.map_cons, List.map_cons, hab.unfed, ih]

/-! ### The next row to fetch (R128, R137) -/

/-- Reading a stream's mask finds the next row it lets through, memory being without errors. -/
theorem scanMask_clean (d : Desc) (k n : Nat) {c : Ctx} (hc : c.Clean) :
    ∃ m, scanMask d k n c false = (m, c, false) ∧ n ≤ m ∧ m ≤ n + k ∧ (∀ j, n ≤ j → j < m → unmasked c d j = false) ∧
      (m < n + k → unmasked c d m = true) := by
  induction k generalizing n with
  | zero => exact ⟨n, rfl, le_refl n, le_refl n, by omega, by omega⟩
  | succ k ih =>
    by_cases hk : sMaskKind d = 0
    · exact ⟨n, by rw [scanMask, if_pos hk], le_refl n, by omega, by omega, fun _ => by simp [unmasked, hk]⟩
    · simp only [scanMask, if_neg hk, eccRead_clean _ _ hc, poisonAt_clean _ _ hc, Bool.or_false]
      by_cases hu : unmasked c d n = true
      · exact ⟨n, by rw [if_pos hu], le_refl n, by omega, by omega, fun _ => hu⟩
      · obtain ⟨m, hm, hle, hmax, hskip, hlast⟩ := ih (n + 1)
        refine ⟨m, by rw [if_neg hu, hm], by omega, by omega, fun j hj hjm => ?_, fun hlt => hlast (by omega)⟩
        obtain rfl | hj := Nat.eq_or_lt_of_le hj
        · simpa using hu
        · exact hskip j hj hjm

/-- An entry whose feeder goes on at row `m`. -/
def Entry.goOn (m : Nat) (x : Entry) : Entry := { x with fetchNext := some m, pos := if x.feed.isEmpty then m else x.pos }

/-- The feeder goes on from row `n` at the next row that is not masked. -/
theorem feedFrom_clean {u i : Nat} (n : Nat) {c : Ctx} {e : Entry} (hc : c.Clean) (h : (c.unit u).me.entries[i]? = some e) :
    ∃ m, feedFrom u i n c = c.updEntry u 0 i (Entry.goOn m) ∧ n ≤ m ∧ m ≤ n + (sN e.desc - n) ∧
      (∀ j, n ≤ j → j < m → unmasked c e.desc j = false) ∧ (m < n + (sN e.desc - n) → unmasked c e.desc m = true) := by
  obtain ⟨m, hm, hrest⟩ := scanMask_clean e.desc (sN e.desc - n) n hc
  refine ⟨m, ?_, hrest⟩
  simp only [feedFrom, h, hm, Bool.or_false]
  rfl

theorem unfed_stream {e : Entry} (h : hOpcode e.desc = 0x11) : e.unfed = { e with feed := [], fetchNext := none, pos := 0 } := by
  simp [Entry.unfed, h]

/-- A stream whose feeder has not begun, or holds a row, keeps the row that enters next. -/
theorem fetched_goOn {e : Entry} (m : Nat) (ho : hOpcode e.desc = 0x11) (h : e.fetchNext = none ∨ e.feed ≠ []) : e.Fetched (e.goOn m) := by
  refine ⟨?_, ⟨[], (List.append_nil _).symm⟩, fun hs => ⟨rfl, ?_⟩⟩
  · rw [unfed_stream ho, unfed_stream (e := e.goOn m) ho]; rfl
  · obtain h | h := h
    · rw [h] at hs; cases hs
    · rw [Entry.goOn, if_neg (by simpa using h)]

/-- The next row of a stream's source, in the shape of tile `t`. -/
def nextRow (c : Ctx) (t : Tile) (d : Desc) (n : Nat) : FedRow :=
  let row := rowOperands c t d (sSrc d + n * sStride d)
  { n := n, codes := row.1, scales := row.2 }

/-- An entry with one more row in the feeder queues, whose feeder goes on at row `m`. -/
def Entry.addRow (r : FedRow) (m : Nat) (x : Entry) : Entry := { x with feed := x.feed ++ [r], fetchNext := some m }

theorem fetched_addRow {e : Entry} (r : FedRow) (m : Nat) (ho : hOpcode e.desc = 0x11) : e.Fetched (e.addRow r m) :=
  ⟨by rw [unfed_stream ho, unfed_stream (e := e.addRow r m) ho]; rfl, ⟨[r], rfl⟩, fun _ => ⟨rfl, rfl⟩⟩

/-- A feeder that has begun and has a row to fetch adds it. -/
theorem fetchRow_adds {u i n : Nat} (t : Tile) {c : Ctx} {e : Entry} (hc : c.Clean) (h : (c.unit u).me.entries[i]? = some e)
    (hn : e.fetchNext = some n) (hlt : n < sN e.desc) :
    ∃ m, fetchRow u i t c = c.updEntry u 0 i (Entry.addRow (nextRow c t e.desc n) m) := by
  have hrow : ((c.updEntry u 0 i (fun x => { x with feed := x.feed ++ [nextRow c t e.desc n] })).unit u).me.entries[i]? =
      some { e with feed := e.feed ++ [nextRow c t e.desc n] } := by
    rw [updEntry_me]; exact getElem?_updAt_same _ h
  obtain ⟨m, hm, -⟩ := feedFrom_clean (n + 1) ((SameBut.updEntry u 0 i c _).clean hc) hrow
  refine ⟨m, ?_⟩
  simp only [fetchRow, h, hn, Option.isNone_some, Bool.false_eq_true, if_false, Option.getD_some, if_neg (Nat.not_le.mpr hlt),
    eccRead_clean _ _ hc, poisonAt_clean _ _ hc, Bool.or_false]
  refine hm.trans ?_
  rw [updEntry_updEntry]
  congr 1
  funext x
  simp [Entry.goOn, Entry.addRow]

/-- A feeder that has begun and has no row to fetch rests. -/
theorem fetchRow_rests {u i n : Nat} (t : Tile) {c : Ctx} {e : Entry} (h : (c.unit u).me.entries[i]? = some e) (hn : e.fetchNext = some n)
    (hle : sN e.desc ≤ n) : fetchRow u i t c = c := by
  simp [fetchRow, h, hn, hle]

/-- A feeder that has not begun finds its first row first. -/
theorem fetchRow_begins {u i : Nat} (t : Tile) {c : Ctx} {e : Entry} (hc : c.Clean) (h : (c.unit u).me.entries[i]? = some e)
    (hn : e.fetchNext = none) : fetchRow u i t c = fetchRow u i t (feedFrom u i 0 c) := by
  obtain ⟨m, hm, -⟩ := feedFrom_clean 0 hc h
  have hgo : ((c.updEntry u 0 i (Entry.goOn m)).unit u).me.entries[i]? = some (e.goOn m) := by
    rw [updEntry_me]; exact getElem?_updAt_same _ h
  simp only [fetchRow, h, hn, hm, hgo, Option.isNone_none, if_true, Entry.goOn, Option.isNone_some, Bool.false_eq_true, if_false]

theorem fetchRow_feeds_begun {u i n : Nat} (t : Tile) {c : Ctx} {e : Entry} (hc : c.Clean) (h : (c.unit u).me.entries[i]? = some e)
    (ho : hOpcode e.desc = 0x11) (hn : e.fetchNext = some n) : Feeds u c (fetchRow u i t c) := by
  by_cases hlt : n < sN e.desc
  · obtain ⟨m, hm⟩ := fetchRow_adds t hc h hn hlt
    rw [hm]
    exact .updEntry h (fetched_addRow _ m ho)
  · rw [fetchRow_rests t h hn (Nat.not_lt.mp hlt)]
    exact .refl u c

/-- Fetching a row is the feeder's work. -/
theorem fetchRow_feeds {u i : Nat} (t : Tile) {c : Ctx} {e : Entry} (hc : c.Clean) (h : (c.unit u).me.entries[i]? = some e)
    (ho : hOpcode e.desc = 0x11) : Feeds u c (fetchRow u i t c) := by
  cases hn : e.fetchNext with
  | some n => exact fetchRow_feeds_begun t hc h ho hn
  | none =>
    obtain ⟨m, hm, -⟩ := feedFrom_clean 0 hc h
    have hfirst : Feeds u c (c.updEntry u 0 i (Entry.goOn m)) := .updEntry h (fetched_goOn m ho (.inl hn))
    have hgo : ((c.updEntry u 0 i (Entry.goOn m)).unit u).me.entries[i]? = some (e.goOn m) := by
      rw [updEntry_me]; exact getElem?_updAt_same _ h
    rw [fetchRow_begins t hc h hn, hm]
    exact hfirst.trans (fetchRow_feeds_begun t (hfirst.clean hc) hgo ho rfl)

/-- The feeder fetches for a stream. -/
theorem feedTarget_some {c : Ctx} {u i : Nat} {t : Tile} (h : feedTarget c u = some (i, t)) :
    ∃ e, (c.unit u).me.entries[i]? = some e ∧ hOpcode e.desc = 0x11 := by
  unfold feedTarget at h
  dsimp only at h
  split at h
  · next j e t' hact _ =>
    obtain ⟨rfl, rfl⟩ : j = i ∧ t' = t := by simpa using h
    obtain ⟨he, -, ho, -⟩ := findActive_some hact
    exact ⟨e, he, ho⟩
  · cases h
  · split at h
    · cases h
    · next j _ =>
      split at h
      · cases h
      · next e he =>
        split at h
        · cases h
        · next t' _ =>
          split at h
          · next hcond =>
            obtain ⟨rfl, rfl⟩ : j = i ∧ t' = t := by simpa using h
            simp only [Bool.and_eq_true, beq_iff_eq, and_assoc] at hcond
            exact ⟨e, he, hcond.1⟩
          · cases h

theorem feedRows_feeds (u n : Nat) {c : Ctx} (hc : c.Clean) : Feeds u c (feedRows u n c) := by
  induction n generalizing c with
  | zero => exact .refl u c
  | succ n ih =>
    unfold feedRows
    split
    · exact .refl u c
    · next i t ht =>
      obtain ⟨e, he, ho⟩ := feedTarget_some ht
      have hrow := fetchRow_feeds t hc he ho
      exact hrow.trans (ih (hrow.clean hc))

/-- The feeder goes on by some number of rows, `least` at least where there is room. -/
theorem feedOn_rows (u least : Nat) (c : Ctx) :
    ∃ n, feedOn u least c = feedRows u n (c.draw 1).2 ∧ min (32 - feedCount c u) least ≤ n := by
  refine ⟨_, rfl, ?_⟩
  omega

theorem feedOn_feeds (u least : Nat) {c : Ctx} (hc : c.Clean) : Feeds u (c.draw 1).2 (feedOn u least c) := by
  obtain ⟨n, hn, -⟩ := feedOn_rows u least c
  rw [hn]
  exact feedRows_feeds u n hc

end Sys2Proof.Machine

namespace Sys2Proof.Machine

/-! ### Commands that end with the feeder's work -/

section
variable {i : Instr} {s : State} {op : Ctx → Ctx} {u least : Nat} {c : Ctx} (hw : i.wf = true) (he : exec i s = perform i s op)
  (hop : op s.ctx = feedOn u least c) (hc : c.Clean) (hm : c.mem = s.mem) (hl : c.log = [])
include hw he hop hc hm hl

/-- A command that ends with the feeder's work leaves memory, and its state is the context that the feeder leaves. -/
theorem completes_feedOn : Completes i s fun t => t.mem = s.mem ∧ t.ctx = feedOn u least c := by
  have hf := feedOn_feeds u least hc
  have hmem : (s.run op).mem = s.mem := State.run_mem_of_log s op (by rw [hop, hf.log]; exact hl)
  refine .of_run op hw he ⟨hmem, ?_⟩
  have hctx : (s.run op).ctx = { feedOn u least c with mem := (s.run op).mem, log := [] } := by rw [← hop]; rfl
  rw [hctx, hmem]
  have hfm := hf.mem.trans hm
  have hfl := hf.log.trans hl
  rw [← hfm, ← hfl]

theorem completes_feeds : Completes i s fun t => t.mem = s.mem ∧ Feeds u (c.draw 1).2 t.ctx :=
  (completes_feedOn hw he hop hc hm hl).imp fun _ ⟨hmem, hctx⟩ => ⟨hmem, hctx ▸ feedOn_feeds u least hc⟩

end

/-- Only the unit changed, and one free value was drawn. -/
theorem SameBut.onlyUnitDraw {u : Nat} {s t : State} (h : SameBut u (s.ctx.draw 1).2 t.ctx) : OnlyUnitDraw u s t := ⟨h.dev, h.others⟩

/-! ### ME_LOAD starts (R134) -/

/-- Reading codewords without errors changes nothing. -/
theorem foldl_eccRead_clean (l : List (Nat × Nat)) {c : Ctx} (hc : c.Clean) : l.foldl (fun a p => eccRead p.1 p.2 a) c = c := by
  induction l with
  | nil => rfl
  | cons p l ih => rw [List.foldl_cons, eccRead_clean _ _ hc, ih]

/-- None of some ranges is poisoned. -/
theorem any_poisonAt_clean (l : List (Nat × Nat)) {c : Ctx} (hc : c.Clean) : l.any (fun p => poisonAt c p.1 p.2) = false := by
  simp [poisonAt_clean _ _ hc]

/-- A unit without a tile whose load `i` is under way with tile `t0`. -/
def UnitSt.loads (i : Nat) (t0 : Tile) (x : UnitSt) : UnitSt :=
  { UnitSt.updEntry 0 i (fun e => { e with started := true, tile := some t0, poison := false }) x with tile := none }

theorem meLoadOp_starts {s : State} {u i : Nat} {e : Entry} (h : startable s.ctx u 0 0x10 = some (i, e)) (ho : hOpcode e.desc = 0x10)
    (hb : arrayBusy s.ctx u = false) (hok : loadOk e.desc = true) (hwid : lCols e.desc ≤ (s.ctx.unit u).width)
    (hown : ∀ p ∈ loadRecords e.desc, ownUm s.ctx u p.1 p.2 false = true)
    (ht : (lFromTr e.desc && streamTo (s.ctx.unit u).me i (lTr e.desc)) = false) (hc : Clean s) :
    meLoadOp u s.ctx = feedOn u 0 (s.ctx.updUnit u (UnitSt.loads i (loadTile s.ctx u e.desc))) := by
  have hwin : (loadRecords e.desc).find? (fun p => !ownUm s.ctx u p.1 p.2 false) = none := by
    simpa using hown
  have hread : meLoadOp.forAll' (loadRecords e.desc) s.ctx = s.ctx := foldl_eccRead_clean _ (State.clean_ctx hc)
  have hclean := any_poisonAt_clean (loadRecords e.desc) (State.clean_ctx hc)
  simp only [meLoadOp, h, ho, hb, hok, hwin, ht, hread, hclean, bne_self_eq_false, Bool.not_true, Bool.false_eq_true, if_false,
    if_neg (Nat.not_lt.mpr hwid), markStarted, updEntry_eq, updUnit_updUnit]
  rfl

/-- Settles O12: a load's start is one change of its unit and the feeder's work behind it, its end one change of its unit. -/
theorem meLoadReadsAndCompletesItsTile : Obligations.MeLoadReadsAndCompletesItsTile := by
  unfold Obligations.MeLoadReadsAndCompletesItsTile
  refine ⟨fun s u i e hu h ho hb hok hwid hown ht hc => ?starts, fun s u i e hu h hl hp => ?completes⟩
  case starts =>
    have hwf : (Instr.meLoad u).wf = true := decide_eq_true hu
    have hbut : SameBut u s.ctx (s.ctx.updUnit u (UnitSt.loads i (loadTile s.ctx u e.desc))) := .updUnit ..
    refine (completes_feeds hwf rfl (meLoadOp_starts h ho hb hok hwid hown ht hc) (hbut.clean hc) rfl rfl).imp
      fun t ⟨hmem, hfeeds⟩ => ⟨hmem, ((hbut.draw 1).trans hfeeds.toSameBut).onlyUnitDraw, ?_, ?_⟩
    · have hunit := hfeeds.unit
      rwa [draw_unit, updUnit_same] at hunit
    · rw [map_unfed_of_fetched hfeeds.entries, draw_unit, updUnit_same]
      rfl
  case completes =>
    have hwf : (Instr.meLoadComplete u).wf = true := decide_eq_true hu
    refine (completes_unit hwf rfl (meLoadCompleteOp_loaded h hl hp)).imp fun t ⟨hmem, honly, hunit⟩ =>
      ⟨hmem, honly, hunit, fun hs hd => ?_⟩
    rw [evtWord, hunit]
    exact (congrArg Evt.word (doneEvts_signal hs hd)).trans (word_add_one _)

end Sys2Proof.Machine

namespace Sys2Proof.Machine

/-! ### ME_STREAM starts (R122, R135) -/

/-- An entry when a stream of descriptor `d` starts: a consumer of the stream's ring is at row 0. -/
def Entry.anew (d : Desc) (x : Entry) : Entry := if sDest d = 1 ∧ ringConsumer (sTr d) x = true then { x with ringNext := 0 } else x

theorem anew_desc (d : Desc) (x : Entry) : (x.anew d).desc = x.desc := by unfold Entry.anew; split <;> rfl
theorem anew_feed (d : Desc) (x : Entry) : (x.anew d).feed = x.feed := by unfold Entry.anew; split <;> rfl
theorem anew_fetchNext (d : Desc) (x : Entry) : (x.anew d).fetchNext = x.fetchNext := by unfold Entry.anew; split <;> rfl

/-- A context in which the ring of a stream of descriptor `d` has begun, where it has one. -/
def streamRing (u : Nat) (d : Desc) (c : Ctx) : Ctx := if sDest d = 1 then ringStart u (sTr d) (sDestRow d) (sRingLen d) c else c

theorem streamRing_sameBut (u : Nat) (d : Desc) (c : Ctx) : SameBut u c (streamRing u d c) := by
  unfold streamRing
  split
  · rw [ringStart]; exact .updUnit u c _
  · exact .refl u c

theorem map_anew {d : Desc} (h : sDest d ≠ 1) (l : List Entry) : l.map (Entry.anew d) = l := by
  have hid : Entry.anew d = id := funext fun x => if_neg fun hx => h hx.1
  rw [hid, List.map_id]

theorem map_anew_ring {d : Desc} (h : sDest d = 1) (l : List Entry) :
    l.map (Entry.anew d) = l.map (fun x => if ringConsumer (sTr d) x then { x with ringNext := 0 } else x) := by
  refine List.map_congr_left fun x _ => ?_
  simp only [Entry.anew, h, true_and]

/-- The unit once the ring has begun: its tile, its ME and VE entries and its rings. -/
theorem streamRing_unit (u : Nat) (d : Desc) (c : Ctx) :
    ((streamRing u d c).unit u).tile = (c.unit u).tile ∧ ((streamRing u d c).unit u).me.entries = (c.unit u).me.entries.map (Entry.anew d) ∧
      ((streamRing u d c).unit u).ve.entries = (c.unit u).ve.entries.map (Entry.anew d) ∧
      (sDest d = 1 → Tab.get {} ((streamRing u d c).unit u).rings (sTr d) =
        { written := 0, released := 0, active := true, base := sDestRow d, len := sRingLen d }) ∧
      (sDest d ≠ 1 → ((streamRing u d c).unit u).rings = (c.unit u).rings) := by
  unfold streamRing
  by_cases hd : sDest d = 1
  · rw [if_pos hd, ringStart, updUnit_same, map_anew_ring hd, map_anew_ring hd]
    exact ⟨rfl, rfl, rfl, fun _ => Tab.get_set_same .., fun h => absurd hd h⟩
  · rw [if_neg hd, map_anew hd, map_anew hd]
    exact ⟨rfl, rfl, rfl, fun h => absurd h hd, fun _ => rfl⟩

/-- A context in which the feeder has begun with stream `i`, entry `e`. -/
def streamFed (u i : Nat) (e : Entry) (c : Ctx) : Ctx := if e.fetchNext.isNone then feedFrom u i 0 c else c

/-- A stream's entry under way against tile `t0`. -/
def Entry.streams (t0 : Tile) (x : Entry) : Entry := { x with started := true, tile := some { t0 with elems := [], scales := [] } }

theorem streams_unfed (t0 : Tile) (x : Entry) : (x.streams t0).unfed = x.unfed.streams t0 := by
  unfold Entry.unfed
  by_cases h : (hOpcode x.desc == 0x11) = true
  · rw [if_pos h, if_pos (show (hOpcode (x.streams t0).desc == 0x11) = true from h)]; rfl
  · rw [if_neg h, if_neg (show ¬ (hOpcode (x.streams t0).desc == 0x11) = true from h)]

theorem startsAs_stream {x : Nat} (h : startsAs 0 0x11 x = true) : x = 0x11 := by
  simpa [startsAs] using h

theorem meStreamOp_starts {s : State} {u i : Nat} {e : Entry} {t0 : Tile} (h : startable s.ctx u 0 0x11 = some (i, e))
    (hb : arrayBusy s.ctx u = false) (hok : streamOk e.desc = true) (ht : (s.ctx.unit u).tile = some t0) (hp : pairs t0 e.desc = true)
    (hwin : streamWindow s.ctx u t0 e.desc = none) (hd : sDest e.desc ≤ 1 → drainOf (s.ctx.unit u).me i (sTr e.desc) = false) :
    meStreamOp u s.ctx = feedOn u 0 ((streamFed u i e (streamRing u e.desc s.ctx)).updEntry u 0 i (Entry.streams t0)) := by
  have hdrain : (decide (sDest e.desc ≤ 1) && drainOf (s.ctx.unit u).me i (sTr e.desc)) = false := by
    simpa using hd
  simp only [meStreamOp, h, hb, hok, ht, hp, hwin, hdrain, Bool.not_true, Bool.false_eq_true, if_false]
  rfl

/-- The entries of a unit whose feeder has begun with stream `i`: those the feeder's work leaves, and where it begins now, the row at which. -/
theorem streamFed_feeds {u i : Nat} {e x : Entry} {c : Ctx} (hc : c.Clean) (h : (c.unit u).me.entries[i]? = some x)
    (hx : x.fetchNext = e.fetchNext) (ho : hOpcode x.desc = 0x11) : Feeds u c (streamFed u i e c) ∧
      (e.fetchNext = none → x.feed = [] → ∃ m, ((streamFed u i e c).unit u).me.entries[i]? = some { x with fetchNext := some m, pos := m } ∧
        m ≤ sN x.desc ∧ (∀ n, n < m → unmasked c x.desc n = false) ∧ (m < sN x.desc → unmasked c x.desc m = true)) := by
  unfold streamFed
  cases hn : e.fetchNext with
  | some n => exact ⟨.refl u c, fun hnone => nomatch hnone⟩
  | none =>
    obtain ⟨m, hm, -, hle, hskip, hlast⟩ := feedFrom_clean 0 hc h
    rw [Option.isNone_none, if_pos rfl, hm]
    refine ⟨.updEntry h (fetched_goOn m ho (.inl (hx.trans hn))), fun _ hempty =>
      ⟨m, ?_, by omega, fun n hlt => hskip n (Nat.zero_le n) hlt, fun hlt => hlast (by omega)⟩⟩
    rw [updEntry_me, getElem?_updAt_same _ h]
    simp [Entry.goOn, hempty]

/-- The mask bits of a stream lie in memory, whatever the devices hold. -/
theorem unmasked_of_sameBut {u : Nat} {c c' : Ctx} (h : SameBut u c c') (d : Desc) (n : Nat) : unmasked c' d n = unmasked c d n := by
  simp only [unmasked, Ctx.byte, h.mem, h.log]

/-- The feeder's work keeps every reading of the unit that its ME entries do not enter. -/
theorem Feeds.keeps {β : Type} {g : UnitSt → β} (hg : ∀ x m, g { x with me := m } = g x) {u : Nat} {c c' : Ctx} (h : Feeds u c c') :
    g (c'.unit u) = g (c.unit u) := by
  rw [h.unit]; exact hg _ _

theorem updEntry_me_keeps {β : Type} {g : UnitSt → β} (hg : ∀ x m, g { x with me := m } = g x) (c : Ctx) (u i : Nat) (f : Entry → Entry) :
    g ((c.updEntry u 0 i f).unit u) = g (c.unit u) := by
  rw [updEntry_eq, updUnit_same]; exact hg _ _

/-- Settles O13: the ring begins, the feeder finds the first row where it has not begun, the stream is marked and the feeder goes on. -/
theorem meStreamStartsAtItsFirstRow : Obligations.MeStreamStartsAtItsFirstRow := by
  unfold Obligations.MeStreamStartsAtItsFirstRow
  intro s u i e t0 hu h hb hok ht hp hwin hd hc anew
  obtain ⟨he, -, -, hs⟩ := startable_some h
  have ho : hOpcode (e.anew e.desc).desc = 0x11 := by rw [anew_desc]; exact startsAs_stream hs
  have hring := streamRing_sameBut u e.desc s.ctx
  obtain ⟨htile, hme, hve, hnew, hold⟩ := streamRing_unit u e.desc s.ctx
  have hentry : ((streamRing u e.desc s.ctx).unit u).me.entries[i]? = some (e.anew e.desc) := by
    rw [hme, List.getElem?_map, show (s.ctx.unit u).me.entries[i]? = some e from he]; rfl
  obtain ⟨hfed, hfirst⟩ := streamFed_feeds (hring.clean hc) hentry (anew_fetchNext ..) ho
  have hop := meStreamOp_starts h hb hok ht hp hwin hd
  generalize streamRing u e.desc s.ctx = c1 at *
  generalize streamFed u i e c1 = c2 at *
  have hbut : SameBut u s.ctx (c2.updEntry u 0 i (Entry.streams t0)) := (hring.trans hfed.toSameBut).trans (.updEntry ..)
  have hwf : (Instr.meStream u).wf = true := decide_eq_true hu
  refine (completes_feeds hwf rfl hop (hbut.clean hc) hbut.mem hbut.log).imp fun t ⟨hmem, hfeeds⟩ => ?_
  have hkeep {β : Type} {g : UnitSt → β} (hg : ∀ x m, g { x with me := m } = g x) : g (t.ctx.unit u) = g (c1.unit u) :=
    (hfeeds.keeps hg).trans ((updEntry_me_keeps hg c2 u i _).trans (hfed.keeps hg))
  refine ⟨hmem, ((hbut.draw 1).trans hfeeds.toSameBut).onlyUnitDraw, ?tile, ?entries, ?ve, fun hn hf x hx => ?first,
    fun hd => ?ring, fun hd => ?rings⟩
  case tile => rw [hkeep (g := UnitSt.tile) fun _ _ => rfl, htile, ht]
  case entries =>
    rw [map_unfed_of_fetched hfeeds.entries, draw_unit, updEntry_me, map_updAt (streams_unfed t0), map_unfed_of_fetched hfed.entries,
      ← map_updAt (streams_unfed t0), hme]
    rfl
  case ve => exact (hkeep (g := fun x => x.ve.entries) fun _ _ => rfl).trans hve
  case first =>
    obtain ⟨m, hm, hle, hskip, hlast⟩ := hfirst hn (by rw [anew_feed, hf])
    obtain ⟨y, hy, hyx⟩ := hfeeds.entry hx
    rw [draw_unit, updEntry_me, getElem?_updAt_same _ hm, Option.some_inj] at hy
    subst hy
    obtain ⟨-, hpos⟩ := hyx.begun rfl
    rw [hpos]
    simp only [anew_desc, unmasked_of_sameBut hring] at hle hskip hlast
    exact ⟨hle, hskip, hlast⟩
  case ring => rw [hkeep (g := UnitSt.rings) fun _ _ => rfl, hnew hd]
  case rings => rw [hkeep (g := UnitSt.rings) fun _ _ => rfl, hold hd]

end Sys2Proof.Machine

namespace Sys2Proof.Machine

/-! ### The governor's count (R594, R595) -/

@[simp] theorem govCount_unit (u k : Nat) (c : Ctx) (v : Nat) : (govCount u k c).unit v = c.unit v := rfl

theorem govCount_dev (u k : Nat) (c : Ctx) : (govCount u k c).dev = { c.dev with gov := (govCount u k c).dev.gov } := rfl

theorem govCount_clean {u k : Nat} {c : Ctx} (hc : c.Clean) : (govCount u k c).Clean := hc

theorem govCount_region {u : Nat} (k : Nat) {c : Ctx} (h : govHolds c u = false) :
    let n := (Tab.get {} c.dev.gov (regionOf u)).count + k
    Tab.get {} (govCount u k c).dev.gov (regionOf u) = { count := n, hold := decide (govBudget c.dev.boot.variant ≤ n) } := by
  refine (Tab.get_set_same ..).trans ?_
  rw [show (Tab.get {} c.dev.gov (regionOf u)).hold = false from h, Bool.false_or]

theorem govCount_other (u k : Nat) (c : Ctx) {r : Nat} (h : r ≠ regionOf u) :
    Tab.get {} (govCount u k c).dev.gov r = Tab.get {} c.dev.gov r := Tab.get_set_ne _ _ _ h

/-! ### A row enters (R123, R137, R140) -/

/-- The entry of a stream of descriptor `d` after row `r` has entered, the first in the feeder queues; `rest` are the others. -/
def Entry.enter (t : Tile) (d : Desc) (r : FedRow) (rest : List FedRow) (x : Entry) : Entry :=
  { x with
    feed := rest
    pos := (rest.head?.map FedRow.n).getD (x.fetchNext.getD (sN d))
    flight := x.flight ++ [{ n := r.n, sums := rowSums t d r.codes r.scales }] }

/-- A ring stream's row finds room where its ring has released the row it replaces (R123). -/
theorem ring_has_room {d : Desc} {n len released : Nat} (h : sDest d = 1 → n < len + released) :
    (sDest d == 1 && decide (len ≤ n) && decide (released ≤ n - len)) = false := by
  by_cases hd : sDest d = 1
  · have := h hd
    simp only [hd, beq_self_eq_true, Bool.true_and, Bool.and_eq_false_iff, decide_eq_false_iff_not]
    omega
  · simp [hd]

section
variable {s : State} {u i : Nat} {e : Entry} {t0 : Tile}
  (h : findActive s.ctx u 0 0x11 (fun e => decide (e.pos < sN e.desc)) = some (i, e)) (ht : (s.ctx.unit u).tile = some t0)
  (hl : unitLive s.ctx u = true) (hg : govHolds s.ctx u = false)
  (hr : sDest e.desc = 1 → e.pos < (Tab.get {} (s.ctx.unit u).rings (sTr e.desc)).len + (Tab.get {} (s.ctx.unit u).rings (sTr e.desc)).released)
include h ht hl hg hr

theorem meStreamRowEntryOp_waits (hf : e.feed = []) : meStreamRowEntryOp u s.ctx = feedOn u 1 s.ctx := by
  simp only [meStreamRowEntryOp, h, ht, hl, hg, ring_has_room hr, hf, Bool.not_true, Bool.or_self, Bool.false_eq_true, if_false]

theorem meStreamRowEntryOp_enters {r : FedRow} {rest : List FedRow} (hf : e.feed = r :: rest) : meStreamRowEntryOp u s.ctx =
    feedOn u 0 ((govCount u (rowLive t0 e.desc r.codes * govWeight t0.mode t0.fmt) s.ctx).updEntry u 0 i (Entry.enter t0 e.desc r rest)) := by
  simp only [meStreamRowEntryOp, h, ht, hl, hg, ring_has_room hr, hf, Bool.not_true, Bool.or_self, Bool.false_eq_true, if_false]
  cases rest <;> rfl

end

/-- Only the unit and the governor of its region changed, and one free value was drawn. -/
theorem SameBut.onlyUnitGov {s t : State} {u k : Nat} (h : SameBut u ((govCount u k s.ctx).draw 1).2 t.ctx) : OnlyUnitGov u s t := by
  have hdev : t.dev = _ := h.dev
  refine ⟨?_, h.others, fun r hr => ?_⟩
  · rw [hdev]; rfl
  · rw [hdev]; exact govCount_other u k s.ctx hr

/-- The feeder has this stream's next row to fetch and room for it: it is there when the feeder goes on by one row. -/
theorem feedOn_first {u i m : Nat} {c c' : Ctx} {e x : Entry} {t0 : Tile} (hc : c.Clean) (he : (c.unit u).me.entries[i]? = some e)
    (hf : e.feed = []) (hn : e.fetchNext = some m) (hm : m < sN e.desc) (ht : feedTarget c u = some (i, t0)) (hroom : feedCount c u < 32)
    (hc' : c' = feedOn u 1 c) (hx : (c'.unit u).me.entries[i]? = some x) : x.feed.head? = some (nextRow c t0 e.desc m) := by
  obtain ⟨k, hk, hle⟩ := feedOn_rows u 1 c
  obtain ⟨k, rfl⟩ : ∃ j, k = j + 1 := ⟨k - 1, by omega⟩
  have hdraw : (c.draw 1).2.Clean := hc
  have htarget : feedTarget (c.draw 1).2 u = some (i, t0) := ht
  obtain ⟨n, hrow⟩ := fetchRow_adds t0 hdraw he hn hm
  rw [hc', hk, feedRows, htarget] at hx
  simp only [hrow] at hx
  obtain ⟨y, hy, hyx⟩ := (feedRows_feeds u k ((SameBut.updEntry ..).clean hdraw)).entry hx
  rw [updEntry_me, draw_unit, getElem?_updAt_same _ he, Option.some_inj] at hy
  subst hy
  obtain ⟨more, hmore⟩ := hyx.feed
  rw [hmore, Entry.addRow, hf]
  rfl

/-- Settles O14: a row in the feeder queues enters and is counted, then the feeder goes on; where none is there, the feeder goes on by one. -/
theorem meRowEntersAsItsCombinations : Obligations.MeRowEntersAsItsCombinations := by
  unfold Obligations.MeRowEntersAsItsCombinations
  intro s u i e t0 hu h ht hl hg hc hr
  obtain ⟨he, -, ho, -⟩ := findActive_some h
  replace he : (s.ctx.unit u).me.entries[i]? = some e := he
  have hwf : (Instr.meStreamRowEntry u).wf = true := decide_eq_true hu
  refine ⟨fun r rest hf => ?enters, fun m hf hn hm htarget hroom => ?waits⟩
  case enters =>
    intro n
    have hbut : SameBut u _ _ := .updEntry u 0 i (govCount u (rowLive t0 e.desc r.codes * govWeight t0.mode t0.fmt) s.ctx)
      (Entry.enter t0 e.desc r rest)
    refine (completes_feeds hwf rfl (meStreamRowEntryOp_enters h ht hl hg hr hf) (hbut.clean (govCount_clean hc)) rfl rfl).imp
      fun t ⟨hmem, hfeeds⟩ => ?_
    have hall := (hbut.draw 1).trans hfeeds.toSameBut
    refine ⟨hmem, hall.onlyUnitGov, ?gov, ?unit, ?entries, fun x hx => ?next⟩
    case gov =>
      have hdev : t.dev = _ := hall.dev
      rw [hdev]
      exact govCount_region _ hg
    case unit =>
      have hunit := hfeeds.unit
      rw [draw_unit, updEntry_eq, updUnit_same] at hunit
      exact hunit
    case entries =>
      rw [map_unfed_of_fetched hfeeds.entries, draw_unit, updEntry_me, govCount_unit]
      refine map_updAt_congr he ?_
      rw [unfed_stream (by exact ho), unfed_stream (by exact ho)]; rfl
    case next =>
      obtain ⟨y, hy, hyx⟩ := hfeeds.entry hx
      rw [draw_unit, updEntry_me, govCount_unit, getElem?_updAt_same _ he, Option.some_inj] at hy
      subst hy
      obtain ⟨more, hmore⟩ := hyx.feed
      refine ⟨⟨more, hmore⟩, fun m hm => ?_⟩
      obtain ⟨-, hpos⟩ := hyx.begun (show e.fetchNext.isSome by rw [hm]; rfl)
      rw [hpos, Entry.enter, hm]
      cases rest <;> rfl
  case waits =>
    have hop := meStreamRowEntryOp_waits h ht hl hg hr hf
    refine (completes_feedOn hwf rfl hop hc rfl rfl).imp fun t ⟨hmem, hctx⟩ => ?_
    have hfeeds : Feeds u (s.ctx.draw 1).2 t.ctx := hctx ▸ feedOn_feeds u 1 hc
    exact ⟨hmem, hfeeds.onlyUnitDraw, map_unfed_of_fetched hfeeds.entries, fun x hx => feedOn_first hc he hf hn hm htarget hroom hctx hx⟩

end Sys2Proof.Machine

namespace Sys2Proof.Machine

/-! ### Contexts that differ in their devices (R198)

A winnow's records are read and written through memory and its log alone, memory being without errors. -/

/-- A context with other devices. -/
def Ctx.withDev (c : Ctx) (dev : Dev) : Ctx := { c with dev := dev }

theorem write_withDev (c : Ctx) (dev : Dev) (a : Nat) (l : List Byte) : (c.withDev dev).write a l = (c.write a l).withDev dev := by
  induction l generalizing c a with
  | nil => rfl
  | cons v l ih => exact ih { c with log := .byte a v :: c.log } (a + 1)

theorem readNat_withDev (c : Ctx) (dev : Dev) (a n : Nat) : (c.withDev dev).readNat a n = c.readNat a n := rfl

theorem readWinnow_withDev (c : Ctx) (dev : Dev) (u : Nat) (d : Desc) (j : Nat) : readWinnow (c.withDev dev) u d j = readWinnow c u d j := by
  simp only [readWinnow, readNat_withDev]

theorem writeWinnow_clean (u : Nat) (d : Desc) (j : Nat) (w : WinnowSt) {c : Ctx} (hc : c.Clean) :
    let a := winnowAddr u d j
    writeWinnow u d j w c = ((((c.write a (toBytes 4 w.m)).write (a + 4) (toBytes 4 w.s)).write (a + 8) (toBytes 2 w.count)).write (a + 10)
      (toBytes 1 (b2n w.invalid))).write (a + 16) (w.slots.flatMap (fun p => toBytes 4 p.1 ++ toBytes 4 p.2)) := by
  intro a
  have h1 := Ctx.clean_write a (toBytes 4 w.m) hc
  have h2 := Ctx.clean_write (a + 4) (toBytes 4 w.s) h1
  have h3 := Ctx.clean_write (a + 8) (toBytes 2 w.count) h2
  have h4 := Ctx.clean_write (a + 10) (toBytes 1 (b2n w.invalid)) h3
  simp only [writeWinnow, storeNat]
  rw [store_clean _ _ hc, store_clean _ _ h1, store_clean _ _ h2, store_clean _ _ h3, store_clean _ _ h4]

theorem writeWinnow_withDev (u : Nat) (d : Desc) (j : Nat) (w : WinnowSt) {c : Ctx} {dev : Dev} (hc : c.Clean)
    (hd : dev.poison = [] ∧ dev.errs = []) : writeWinnow u d j w (c.withDev dev) = (writeWinnow u d j w c).withDev dev := by
  rw [writeWinnow_clean u d j w hc, writeWinnow_clean (c := c.withDev dev) u d j w hd]
  simp only [write_withDev]

theorem writeWinnow_dev (u : Nat) (d : Desc) (j : Nat) (w : WinnowSt) {c : Ctx} (hc : c.Clean) : (writeWinnow u d j w c).dev = c.dev := by
  rw [writeWinnow_clean u d j w hc]
  simp only [Ctx.write_dev]

/-- One token's part of an input row. -/
def winnowToken (u : Nat) (d : Desc) (n : Nat) (xs : List Nat) (a : Ctx × Nat) (j : Nat) : Ctx × Nat :=
  let w := readWinnow a.1 u d j
  let w1 := winnowInsert (wK d) (wS0 d) (xs.getD j 0) (wIdx d + n) w
  (writeWinnow u d j w1 a.1, a.2 + b2n (w1.slots != w.slots))

theorem winnowToken_clean (u : Nat) (d : Desc) (n : Nat) (xs : List Nat) {a : Ctx × Nat} (j : Nat) (hc : a.1.Clean) :
    (winnowToken u d n xs a j).1.Clean := by
  rw [Ctx.Clean, winnowToken, writeWinnow_dev u d j _ hc]; exact hc

theorem winnowTokens_withDev (u : Nat) (d : Desc) (n : Nat) (xs : List Nat) (js : List Nat) {a : Ctx × Nat} {dev : Dev} (hc : a.1.Clean)
    (hd : dev.poison = [] ∧ dev.errs = []) : (js.foldl (winnowToken u d n xs) (a.1.withDev dev, a.2)).1 =
      (js.foldl (winnowToken u d n xs) a).1.withDev dev := by
  induction js generalizing a with
  | nil => rfl
  | cons j js ih =>
    have htoken : winnowToken u d n xs (a.1.withDev dev, a.2) j =
        ((winnowToken u d n xs a j).1.withDev dev, (winnowToken u d n xs a j).2) := by
      simp only [winnowToken, readWinnow_withDev, writeWinnow_withDev _ _ _ _ hc hd]
    rw [List.foldl_cons, htoken, List.foldl_cons]
    exact ih (winnowToken_clean u d n xs j hc)

/-- A row of a winnow leaves the devices, and writes the same whatever they are. -/
theorem winnowRow_withDev (u : Nat) (d : Desc) (n : Nat) (xs : List Nat) {c : Ctx} {dev : Dev} (hc : c.Clean)
    (hd : dev.poison = [] ∧ dev.errs = []) : (winnowRow u d n xs (c.withDev dev, 0)).1 = (winnowRow u d n xs (c, 0)).1.withDev dev :=
  winnowTokens_withDev u d n xs (List.range (wCols d)) (a := (c, 0)) hc hd

/-! ### A consumer takes a row of its ring (R124, R125, R177) -/

/-- A unit one of whose rings, `g`, has a row more released. -/
def UnitSt.release (r : Nat) (g : Ring) (x : UnitSt) : UnitSt := { x with rings := Tab.set x.rings r { g with released := g.released + 1 } }

/-- The context a consumer works from: that of the state, some free values drawn. -/
def State.drawn (s : State) (n : Nat) : Ctx := s.ctx.withDev { s.dev with fresh := n }

section
variable {s : State} {u r : Nat}

/-- The ring row that entry `e` takes next. -/
def ringPlace (s : State) (u r : Nat) (e : Entry) : Nat :=
  (Tab.get {} (s.ctx.unit u).rings r).base + e.ringNext % (Tab.get {} (s.ctx.unit u).rings r).len

theorem ringTake_drain (i : Nat) (e : Entry) (n : Nat) : ringTake u r 0 i e (s.drawn n) =
    ((s.drawn n).updEntry u 0 i (fun x =>
      { x with rows := x.rows ++ [trRow s.ctx u r (ringPlace s u r e) (dCols e.desc)], pos := x.pos + 1, ringNext := x.ringNext + 1 })).updUnit u
      (UnitSt.release r (Tab.get {} (s.ctx.unit u).rings r)) := rfl

theorem ringTake_chain (i : Nat) {e : Entry} (n : Nat) (hc : Clean s) (ho : hOpcode e.desc = 0x20) : ringTake u r 1 i e (s.drawn n) =
    ((govCount u (vCols e.desc * chainCost e.desc) (s.drawn n)).updEntry u 1 i (fun x =>
      { x with
        rows := x.rows ++ [chainRow s.ctx u e.desc e.pos
          (readElems s.ctx (vSlot e.desc 0).fmt (trAddr u r (ringPlace s u r e) 0 + (vSlot e.desc 0).off % 512) (vCols e.desc))]
        pos := x.pos + 1
        ringNext := x.ringNext + 1 })).updUnit u (UnitSt.release r (Tab.get {} (s.ctx.unit u).rings r)) := by
  have hclean : (govCount u (vCols e.desc * chainCost e.desc) (s.drawn n)).Clean := hc
  simp only [ringTake, ho, readAll, foldl_eccRead_clean _ hclean, any_poisonAt_clean _ hclean, Bool.or_false, beq_self_eq_true,
    Nat.one_ne_zero, if_false, if_true]
  rfl

/-- The lane-cycles that the row adds to the governor's count and to the winnow's (R206, R594) are not said here. -/
theorem ringTake_winnow (i : Nat) {e : Entry} (n : Nat) (hc : Clean s) (ho : hOpcode e.desc = 0x21) (hp : e.poison = false) :
    ∃ k lanes, ringTake u r 1 i e (s.drawn n) =
      ((govCount u k ((winnowRow u e.desc e.pos
        (readElems s.ctx 0 (trAddr u r (ringPlace s u r e) 0 + (wSlot e.desc).off % 512) (wCols e.desc)) (s.ctx, 0)).1.withDev
          { s.dev with fresh := n })).updEntry u 1 i (fun x => { x with lanes := lanes, pos := x.pos + 1, ringNext := x.ringNext + 1 })).updUnit u
        (UnitSt.release r (Tab.get {} (s.ctx.unit u).rings r)) := by
  have hrow := winnowRow_withDev u e.desc e.pos
    (readElems s.ctx 0 (trAddr u r (ringPlace s u r e) 0 + (wSlot e.desc).off % 512) (wCols e.desc)) (dev := { s.dev with fresh := n })
    (State.clean_ctx hc) hc
  rw [← hrow]
  simp only [ringTake, ho, hp, Nat.one_ne_zero, if_false, Bool.false_eq_true, Nat.reduceBEq]
  exact ⟨_, _, rfl⟩

end

end Sys2Proof.Machine

namespace Sys2Proof.Machine

/-- Ring `r` of unit `u` has a row more released; the unit's other rings, the other units and the other governors are as before. -/
def RingReleased (u r : Nat) (s t : State) : Prop :=
  OnlyUnitGov u s t ∧ Tab.get {} (t.ctx.unit u).rings r =
    { Tab.get {} (s.ctx.unit u).rings r with released := (Tab.get {} (s.ctx.unit u).rings r).released + 1 } ∧
  ∀ k, k ≠ r → Tab.get {} (t.ctx.unit u).rings k = Tab.get {} (s.ctx.unit u).rings k

/-- Drain `i`, entry `e`, has kept its next row of ring `r`. -/
def DrainTook (u r i : Nat) (e : Entry) (s t : State) : Prop :=
  RingReleased u r s t ∧ t.mem = s.mem ∧ t.dev.gov = s.dev.gov ∧
  (t.ctx.unit u).me.entries = updAt (s.ctx.unit u).me.entries i (fun y =>
    { y with rows := y.rows ++ [trRow s.ctx u r (ringPlace s u r e) (dCols e.desc)], pos := y.pos + 1, ringNext := y.ringNext + 1 }) ∧
  (t.ctx.unit u).ve = (s.ctx.unit u).ve

/-- Chain `i`, entry `e`, has run its next row of ring `r`. -/
def ChainTook (u r i : Nat) (e : Entry) (s t : State) : Prop :=
  RingReleased u r s t ∧ t.mem = s.mem ∧
  (Tab.get {} t.dev.gov (regionOf u)).count = (Tab.get {} s.dev.gov (regionOf u)).count + vCols e.desc * chainCost e.desc ∧
  (t.ctx.unit u).ve.entries = updAt (s.ctx.unit u).ve.entries i (fun y => { y with
    rows := y.rows ++ [chainRow s.ctx u e.desc e.pos
      (readElems s.ctx (vSlot e.desc 0).fmt (trAddr u r (ringPlace s u r e) 0 + (vSlot e.desc 0).off % 512) (vCols e.desc))]
    pos := y.pos + 1, ringNext := y.ringNext + 1 }) ∧
  (t.ctx.unit u).me = (s.ctx.unit u).me

/-- Winnow `i`, entry `e`, has entered its next row of ring `r` into its states. -/
def WinnowTook (u r i : Nat) (e : Entry) (s t : State) : Prop :=
  RingReleased u r s t ∧
  Wrote s (winnowRow u e.desc e.pos
    (readElems s.ctx 0 (trAddr u r (ringPlace s u r e) 0 + (wSlot e.desc).off % 512) (wCols e.desc)) (s.ctx, 0)).1 t ∧
  (t.ctx.unit u).ve.entries.map (fun y => { y with lanes := 0 }) =
    (updAt (s.ctx.unit u).ve.entries i (fun y => { y with pos := y.pos + 1, ringNext := y.ringNext + 1 })).map (fun y => { y with lanes := 0 }) ∧
  (t.ctx.unit u).me = (s.ctx.unit u).me

/-- A meaning that ends as a consumer's does: its entry is changed, and its ring's row released. -/
theorem run_released {s : State} {u r q i : Nat} {op : Ctx → Ctx} {f : Entry → Entry} {b : Ctx} {gov : Tab Gov} {fresh : Nat}
    (hop : op s.ctx = (b.updEntry u q i f).updUnit u (UnitSt.release r (Tab.get {} (s.ctx.unit u).rings r)))
    (hdev : b.dev = { s.dev with gov := gov, fresh := fresh })
    (hgov : ∀ k, k ≠ regionOf u → Tab.get {} gov k = Tab.get {} s.dev.gov k) :
    RingReleased u r s (s.run op) ∧ Wrote s b (s.run op) ∧ (s.run op).dev.gov = gov ∧
      (s.run op).ctx.unit u = UnitSt.release r (Tab.get {} (s.ctx.unit u).rings r) (UnitSt.updEntry q i f (s.ctx.unit u)) := by
  have hunits (v : Nat) : b.unit v = s.ctx.unit v := by rw [Ctx.unit, hdev]; rfl
  have hd : (s.run op).dev = { s.dev with gov := gov, fresh := fresh, units := (s.run op).dev.units } := by
    rw [State.run_dev, hop, updEntry_eq, updUnit_updUnit, Ctx.updUnit, Ctx.setUnit, hdev]
  have hunit : (s.run op).ctx.unit u = UnitSt.release r (Tab.get {} (s.ctx.unit u).rings r) (UnitSt.updEntry q i f (s.ctx.unit u)) := by
    rw [State.run_at_unit, hop, updUnit_same, updEntry_eq, updUnit_same, hunits]
  have hring : ((s.run op).ctx.unit u).rings = Tab.set (s.ctx.unit u).rings r
      { Tab.get {} (s.ctx.unit u).rings r with released := (Tab.get {} (s.ctx.unit u).rings r).released + 1 } := by
    rw [hunit, UnitSt.release, UnitSt.updEntry, setQueue_rings]
  refine ⟨⟨⟨?dev, fun v hv => ?others, fun k hk => ?govs⟩, ?ring, fun k hk => ?rings⟩, .of_log (by rw [hop]; rfl), by rw [hd], hunit⟩
  case dev => rw [hd]
  case others => rw [State.run_at_unit, hop, updUnit_other _ _ hv, updEntry_eq, updUnit_other _ _ hv, hunits]
  case govs => rw [hd]; exact hgov k hk
  case ring => rw [hring, Tab.get_set_same]
  case rings => rw [hring, Tab.get_set_ne _ _ _ hk]

section
variable {s : State} {u r i n : Nat} {e : Entry} {op : Ctx → Ctx}

theorem run_drainTook (hop : op s.ctx = ringTake u r 0 i e (s.drawn n)) : DrainTook u r i e s (s.run op) := by
  obtain ⟨hrel, hwrote, hgov, hunit⟩ := run_released (hop.trans (ringTake_drain i e n)) rfl fun _ _ => rfl
  exact ⟨hrel, hwrote.mem_eq rfl, hgov, by rw [hunit]; rfl, by rw [hunit]; rfl⟩

theorem run_chainTook (hc : Clean s) (ho : hOpcode e.desc = 0x20) (hg : govHolds s.ctx u = false)
    (hop : op s.ctx = ringTake u r 1 i e (s.drawn n)) : ChainTook u r i e s (s.run op) := by
  obtain ⟨hrel, hwrote, hgov, hunit⟩ := run_released (hop.trans (ringTake_chain i n hc ho)) (govCount_dev ..) fun _ hk => govCount_other _ _ _ hk
  refine ⟨hrel, hwrote.mem_eq rfl, ?_, by rw [hunit]; rfl, by rw [hunit]; rfl⟩
  rw [hgov, govCount_region (c := s.drawn n) _ hg]; rfl

theorem run_winnowTook (hc : Clean s) (ho : hOpcode e.desc = 0x21) (hp : e.poison = false) (he : (s.ctx.unit u).ve.entries[i]? = some e)
    (hop : op s.ctx = ringTake u r 1 i e (s.drawn n)) : WinnowTook u r i e s (s.run op) := by
  obtain ⟨k, lanes, htake⟩ := ringTake_winnow (u := u) (r := r) i n hc ho hp
  obtain ⟨hrel, hwrote, -, hunit⟩ := run_released (hop.trans htake) (govCount_dev ..) fun _ hk => govCount_other _ _ _ hk
  refine ⟨hrel, hwrote, ?_, by rw [hunit]; rfl⟩
  rw [hunit]
  exact map_updAt_congr he rfl

end

/-! ### Which consumer takes a row (R124, R125, log entry 111) -/

/-- The drain, the chain and the winnow that find a row of ring `r`. -/
def drainReady (c : Ctx) (u r : Nat) : Option (Nat × Entry) :=
  findActive c u 0 0x12 (fun e => ringReady (Tab.get {} (c.unit u).rings r) r (dCount e.desc) e)
def chainReady (c : Ctx) (u r : Nat) : Option (Nat × Entry) :=
  findActive c u 1 0x20 (fun e => chainRing e.desc && ringReady (Tab.get {} (c.unit u).rings r) r (vRows e.desc) e)
def winnowReady (c : Ctx) (u r : Nat) : Option (Nat × Entry) :=
  findActive c u 1 0x21 (fun e => ringReady (Tab.get {} (c.unit u).rings r) r (wRows e.desc) e)

section
variable {c : Ctx} {u r : Nat} (hl : unitLive c u = true)
include hl

theorem ringRowConsumeOp_drain {i : Nat} {e : Entry} (h : drainReady c u r = some (i, e))
    (hv : govHolds c u = true ∨ (chainReady c u r = none ∧ winnowReady c u r = none)) : ringRowConsumeOp u r c = ringTake u r 0 i e c := by
  unfold drainReady at h
  obtain hg | ⟨hch, hwi⟩ := hv
  · simp only [ringRowConsumeOp, h, hg, hl, Bool.not_true, Bool.false_eq_true, if_false, if_true]
  · unfold chainReady at hch
    unfold winnowReady at hwi
    simp only [ringRowConsumeOp, h, hch, hwi, hl, ite_self, Bool.not_true, Bool.false_eq_true, if_false]

/-- A VE command that finds a row takes it, or the drain that finds one too. -/
theorem ringRowConsumeOp_ve {i : Nat} {e : Entry} (hg : govHolds c u = false)
    (hv : chainReady c u r = some (i, e) ∨ (chainReady c u r = none ∧ winnowReady c u r = some (i, e))) :
    (drainReady c u r = none → ringRowConsumeOp u r c = ringTake u r 1 i e c) ∧
    ∀ j f, drainReady c u r = some (j, f) → ringRowConsumeOp u r c = ringTake u r 0 j f (c.draw 1).2 ∨
      ringRowConsumeOp u r c = ringTake u r 1 i e (c.draw 1).2 := by
  unfold chainReady winnowReady at hv
  refine ⟨fun h => ?alone, fun j f h => ?both⟩
  all_goals unfold drainReady at h
  case alone =>
    obtain hch | ⟨hch, hwi⟩ := hv
    · simp only [ringRowConsumeOp, h, hch, hg, hl, Bool.not_true, Bool.false_eq_true, if_false]
    · simp only [ringRowConsumeOp, h, hch, hwi, hg, hl, Bool.not_true, Bool.false_eq_true, if_false]
  case both =>
    obtain ⟨k, c1, hk⟩ : ∃ k c1, c.draw 1 = (k, c1) := ⟨_, _, rfl⟩
    rw [hk]
    have hop : ringRowConsumeOp u r c = if Config.freeBool k then ringTake u r 0 j f c1 else ringTake u r 1 i e c1 := by
      obtain hch | ⟨hch, hwi⟩ := hv
      · simp only [ringRowConsumeOp, hk, h, hch, hg, hl, Bool.not_true, Bool.false_eq_true, if_false]
      · simp only [ringRowConsumeOp, hk, h, hch, hwi, hg, hl, Bool.not_true, Bool.false_eq_true, if_false]
    rw [hop]
    split
    · exact .inl rfl
    · exact .inr rfl

end

theorem drawn_fresh (s : State) : s.ctx = s.drawn s.dev.fresh := rfl

theorem draw_drawn (s : State) : (s.ctx.draw 1).2 = s.drawn (s.dev.fresh + 1) := rfl

/-- A VE command that finds a row of its ring takes it, or the drain that finds one too. -/
theorem completes_ringRowConsume {s : State} {u r i : Nat} {e : Entry} {P : State → Prop} (hw : (Instr.ringRowConsume u r).wf = true)
    (hl : unitLive s.ctx u = true) (hg : govHolds s.ctx u = false)
    (hv : chainReady s.ctx u r = some (i, e) ∨ (chainReady s.ctx u r = none ∧ winnowReady s.ctx u r = some (i, e)))
    (hP : ∀ n, ringRowConsumeOp u r s.ctx = ringTake u r 1 i e (s.drawn n) → P (s.run (ringRowConsumeOp u r))) :
    (drainReady s.ctx u r = none → Completes (.ringRowConsume u r) s P) ∧
    ∀ j f, drainReady s.ctx u r = some (j, f) → Completes (.ringRowConsume u r) s fun t => DrainTook u r j f s t ∨ P t := by
  obtain ⟨halone, hboth⟩ := ringRowConsumeOp_ve hl hg hv
  refine ⟨fun h => .of_run _ hw rfl (hP s.dev.fresh ((halone h).trans (by rw [← drawn_fresh]))), fun j f h => .of_run _ hw rfl ?_⟩
  rw [draw_drawn] at hboth
  obtain hop | hop := hboth j f h
  · exact .inl (run_drainTook hop)
  · exact .inr (hP _ hop)

/-- Settles O18: each consumer's meaning is one change of its entry and one of its ring; a free value chooses between two. -/
theorem ringConsumersTakeRowsInOrder : Obligations.RingConsumersTakeRowsInOrder := by
  unfold Obligations.RingConsumersTakeRowsInOrder
  intro s u r hu hr hl hc x g row drain chain winnow released drained chained winnowed
  have hwf : (Instr.ringRowConsume u r).wf = true := by simp [Instr.wf, hu, hr]
  refine ⟨fun i e h hv => ?drain, fun hg => ⟨fun i e h => ?chain, fun i e hnone h hp => ?winnow⟩⟩
  case drain => exact .of_run _ hwf rfl (run_drainTook ((ringRowConsumeOp_drain hl h hv).trans (by rw [← drawn_fresh])))
  case chain =>
    obtain ⟨-, -, ho, -⟩ := findActive_some h
    exact completes_ringRowConsume hwf hl hg (.inl h) fun n hop => run_chainTook hc ho hg hop
  case winnow =>
    obtain ⟨he, -, ho, -⟩ := findActive_some h
    exact completes_ringRowConsume hwf hl hg (.inr ⟨hnone, h⟩) fun n hop => run_winnowTook hc ho hp he hop

end Sys2Proof.Machine

/-! # The control cores, the vector engine and DMA: proofs

The pushes, traps and RAM accesses of control cores, completion records, chains and winnows, copies and the requests of other packages. -/

namespace Sys2Proof.Machine

/-! ### Pushes (R212–R214, log entries 118 and 119) -/

/-- UQ.PUSH, which waits on a full queue, or UQ.PUSHNB, which does not. -/
def pushInstr (block : Bool) (core rd rs1 rs2 : Nat) : Instr := if block then .uqPush core rd rs1 rs2 else .uqPushnb core rd rs1 rs2

/-- A core whose push does not enter its queue now: it waits, or goes on with the answer 1. -/
def CoreSt.pushLate (block : Bool) (q : Nat) (d : Desc) (rd : Nat) (k : CoreSt) : CoreSt :=
  if block then { k with stall := .push q d rd } else k.retire rd 1

/-- A push enters its queue, and its core goes on with the answer 0. -/
def pushEnter (u q core rd : Nat) (d : Desc) (c : Ctx) : Ctx := (enqueue u q core d c).updCore core (CoreSt.retire rd 0)

theorem enqueue_unit (u q core : Nat) (d : Desc) (c : Ctx) : (enqueue u q core d c).unit u =
    (c.unit u).setQueue q { (c.unit u).queue q with
      entries := ((c.unit u).queue q).entries ++ [{ core := core, desc := d }], lastCore := some core } := updUnit_same ..

theorem enqueue_other {u v : Nat} (q core : Nat) (d : Desc) (c : Ctx) (h : v ≠ u) : (enqueue u q core d c).unit v = c.unit v :=
  updUnit_other _ _ h

/-- A queue has an entry free while it holds fewer than 64 commands (R215). -/
theorem queueFree_eq_zero {c : Ctx} {u q : Nat} : queueFree c u q = 0 ↔ 64 ≤ ((c.unit u).queue q).entries.length := by
  rw [queueFree]; omega

/-- A push that finds room, and no lower-numbered core waiting, is not late. -/
theorem push_finds_room {c : Ctx} {u q core : Nat} (hroom : ((c.unit u).queue q).entries.length < 64) (hlow : lowerWaits c core q = false) :
    ¬ (decide (queueFree c u q = 0) || lowerWaits c core q) = true := by
  simpa [queueFree_eq_zero, hlow] using hroom

theorem enqueue_updCore (u q core n : Nat) (d : Desc) (f : CoreSt → CoreSt) (c : Ctx) :
    enqueue u q core d (c.updCore n f) = (enqueue u q core d c).updCore n f := rfl

theorem pushInstr_performs {core rd rs1 rs2 : Nat} (hc : core < 2048) (hrd : rd < 32) (h1 : rs1 < 32) (h2 : rs2 < 32) (block : Bool)
    (s : State) : (pushInstr block core rd rs1 rs2).wf = true ∧
      exec (pushInstr block core rd rs1 rs2) s = perform (pushInstr block core rd rs1 rs2) s (uqPushOp block core rd rs1 rs2) := by
  cases block <;> exact ⟨by simp [pushInstr, Instr.wf, hc, hrd, h1, h2], rfl⟩

/-- A command that changes nothing but unit `u` and core `core`, some free values drawn. -/
theorem completes_unit_core_drawn {i : Instr} {s : State} {u core n : Nat} {op : Ctx → Ctx} {c : Ctx} {g : CoreSt → CoreSt}
    (hw : i.wf = true) (he : exec i s = perform i s op) (hop : op s.ctx = c.updCore core g) (hlog : c.log = [])
    (hdev : c.dev = { s.dev with units := c.dev.units, fresh := n }) (hunit : ∀ v, v ≠ u → c.unit v = s.ctx.unit v) :
    Completes i s fun t => OnlyUnitCore u core { s with dev := { s.dev with fresh := n } } t ∧ t.ctx.unit u = c.unit u ∧
      t.ctx.core core = g (s.ctx.core core) := by
  have hcore (n : Nat) : c.core n = s.ctx.core n := by rw [Ctx.core, hdev]; rfl
  refine .of_run op hw he ⟨⟨State.run_mem_of_log s op (by rw [hop]; exact hlog), ?_, fun v hv => ?_, fun n hn => ?_⟩, ?_, ?_⟩
  · rw [State.run_dev, hop, Ctx.updCore, hdev]
  · rw [State.run_at_unit, hop, updCore_at_unit, hunit v hv]; rfl
  · rw [State.run_at_core, hop, updCore_other c g hn, hcore]; rfl
  · rw [State.run_at_unit, hop, updCore_at_unit]
  · rw [State.run_at_core, hop, updCore_same, hcore]

section
variable {s : State} {core rd rs1 rs2 : Nat} {block : Bool} (hp : PushReady s core rs1 rs2)
include hp

/-- The three courses of a push of 64 bytes that may enter its queue. -/
theorem uqPushOp_ready : uqPushOp block core rd rs1 rs2 s.ctx =
    let u := unitOfCore core
    let q := (s.ctx.core core).reg32 rs2 % 4
    let d := pushDesc s.ctx core q ((s.ctx.core core).reg32 rs1)
    if queueFree s.ctx u q = 0 || lowerWaits s.ctx core q then s.ctx.updCore core (CoreSt.pushLate block q d rd)
    else if mayContend s.ctx core q then
      if Config.freeBool s.dev.fresh then (s.ctx.draw 1).2.updCore core (CoreSt.pushLate block q d rd)
      else pushEnter u q core rd d (s.ctx.draw 1).2
    else pushEnter u q core rd d s.ctx := by
  obtain ⟨hr, hq, ha, hlo, hhi, hpr⟩ := hp
  simp only [uqPushOp, hr, hpr, pcNext_setReg32, if_neg hq, ne_eq, ha, Nat.not_lt.mpr hlo, Nat.not_le.mpr hhi, not_true_eq_false, decide_false,
    Bool.or_self, Bool.not_true, Bool.false_eq_true, if_false]
  cases block <;> rfl

/-- A push that finds its queue full, or a lower-numbered core waiting there, does not enter. -/
theorem uqPushOp_late (h : 64 ≤ ((s.ctx.unit (unitOfCore core)).queue ((s.ctx.core core).reg32 rs2 % 4)).entries.length ∨
      lowerWaits s.ctx core ((s.ctx.core core).reg32 rs2 % 4) = true) : uqPushOp block core rd rs1 rs2 s.ctx =
    s.ctx.updCore core (CoreSt.pushLate block ((s.ctx.core core).reg32 rs2 % 4)
      (pushDesc s.ctx core ((s.ctx.core core).reg32 rs2 % 4) ((s.ctx.core core).reg32 rs1)) rd) := by
  rw [uqPushOp_ready hp]
  exact if_pos (by simpa [queueFree_eq_zero] using h)

variable (hroom : ((s.ctx.unit (unitOfCore core)).queue ((s.ctx.core core).reg32 rs2 % 4)).entries.length < 64)
  (hlow : lowerWaits s.ctx core ((s.ctx.core core).reg32 rs2 % 4) = false)
include hroom hlow

theorem uqPushOp_enters (hcont : mayContend s.ctx core ((s.ctx.core core).reg32 rs2 % 4) = false) :
    uqPushOp block core rd rs1 rs2 s.ctx = pushEnter (unitOfCore core) ((s.ctx.core core).reg32 rs2 % 4) core rd
      (pushDesc s.ctx core ((s.ctx.core core).reg32 rs2 % 4) ((s.ctx.core core).reg32 rs1)) s.ctx := by
  rw [uqPushOp_ready hp]
  exact (if_neg (push_finds_room hroom hlow)).trans (if_neg (by rw [hcont]; exact Bool.false_ne_true))

/-- A push that may have met another's enters its queue or fares as on a full one. -/
theorem uqPushOp_contends (hcont : mayContend s.ctx core ((s.ctx.core core).reg32 rs2 % 4) = true) :
    let q := (s.ctx.core core).reg32 rs2 % 4
    let d := pushDesc s.ctx core q ((s.ctx.core core).reg32 rs1)
    uqPushOp block core rd rs1 rs2 s.ctx = pushEnter (unitOfCore core) q core rd d (s.ctx.draw 1).2 ∨
      uqPushOp block core rd rs1 rs2 s.ctx = (s.ctx.draw 1).2.updCore core (CoreSt.pushLate block q d rd) := by
  intro q d
  rw [uqPushOp_ready hp]
  dsimp only
  rw [if_neg (push_finds_room hroom hlow), if_pos hcont]
  split
  · exact .inr rfl
  · exact .inl rfl

end

/-- The unit and the core after a push has entered. -/
def PushEntered (core q rd : Nat) (d : Desc) (s t : State) : Prop :=
  t.ctx.unit (unitOfCore core) = (s.ctx.unit (unitOfCore core)).setQueue q { (s.ctx.unit (unitOfCore core)).queue q with
    entries := ((s.ctx.unit (unitOfCore core)).queue q).entries ++ [{ core := core, desc := d }], lastCore := some core } ∧
  t.ctx.core core = (s.ctx.core core).retire rd 0

/-- The unit and the core after a push has not entered. -/
def PushIsLate (block : Bool) (core q rd : Nat) (d : Desc) (s t : State) : Prop :=
  t.ctx.core core = (s.ctx.core core).pushLate block q d rd ∧ t.ctx.unit (unitOfCore core) = s.ctx.unit (unitOfCore core)

section
variable {i : Instr} {s : State} {core q rd : Nat} {d : Desc} {op : Ctx → Ctx} (hw : i.wf = true) (he : exec i s = perform i s op)
include hw he

theorem completes_pushEnter (hop : op s.ctx = pushEnter (unitOfCore core) q core rd d s.ctx) :
    Completes i s fun t => PushEntered core q rd d s t ∧ OnlyUnitCore (unitOfCore core) core s t :=
  (completes_unit_core hw he hop rfl rfl fun _ hv => enqueue_other q core d s.ctx hv).imp fun _ ⟨honly, hunit, hcore⟩ =>
    ⟨⟨hunit.trans (enqueue_unit ..), hcore⟩, honly⟩

theorem completes_push_late {block : Bool} (hop : op s.ctx = s.ctx.updCore core (CoreSt.pushLate block q d rd)) :
    Completes i s fun t => PushIsLate block core q rd d s t ∧ OnlyUnitCore (unitOfCore core) core s t :=
  (completes_updCore hw he hop).imp fun _ ⟨honly, hunit, hcore⟩ => ⟨⟨hcore, hunit⟩, honly⟩

theorem completes_push_contended {block : Bool} (hop : op s.ctx = pushEnter (unitOfCore core) q core rd d (s.ctx.draw 1).2 ∨
      op s.ctx = (s.ctx.draw 1).2.updCore core (CoreSt.pushLate block q d rd)) :
    Completes i s fun t => (PushEntered core q rd d s t ∨ PushIsLate block core q rd d s t) ∧
      OnlyUnitCore (unitOfCore core) core { s with dev := { s.dev with fresh := s.dev.fresh + 1 } } t := by
  obtain hop | hop := hop
  · exact (completes_unit_core_drawn hw he hop rfl rfl fun _ hv => enqueue_other q core d _ hv).imp fun _ ⟨honly, hunit, hcore⟩ =>
      ⟨.inl ⟨hunit.trans (enqueue_unit ..), hcore⟩, honly⟩
  · exact (completes_unit_core_drawn hw he hop rfl rfl fun _ _ => rfl).imp fun _ ⟨honly, hunit, hcore⟩ => ⟨.inr ⟨hcore, hunit⟩, honly⟩

end

/-- No lower-numbered core of the unit waits. -/
theorem lowerWaits_none {c : Ctx} {core : Nat} (q : Nat) (h : ∀ i, i < core % 4 → (c.core (4 * unitOfCore core + i)).stall = .no) :
    lowerWaits c core q = false := by
  rw [lowerWaits, List.any_eq_false]
  intro i hi
  have hcore : core - core % 4 + i = 4 * unitOfCore core + i := by rw [unitOfCore]; omega
  simp [hcore, h i (List.mem_range.mp hi)]

theorem pushAcceptOp_enters {c : Ctx} {core q rd : Nat} {d : Desc} (hs : (c.core core).stall = .push q d rd)
    (hh : (c.core core).halted = false) (hf : (c.core core).frozen = false) (hd : c.dieStopped (dieOfUnit (unitOfCore core)) = false)
    (hr : pushRefused c (unitOfCore core) = false) (hroom : ((c.unit (unitOfCore core)).queue q).entries.length < 64)
    (hlow : lowerWaits c core q = false) :
    pushAcceptOp core c = (enqueue (unitOfCore core) q core d c).updCore core (fun k => CoreSt.retire rd 0 { k with stall := .no }) := by
  have hfree : queueFree c (unitOfCore core) q ≠ 0 := by rw [Ne, queueFree_eq_zero]; omega
  simp only [pushAcceptOp, hs, hh, hf, hd, hr, hlow, decide_eq_false hfree, Bool.or_self, Bool.false_eq_true, if_false, pcNext_setReg32,
    enqueue_updCore, updCore_updCore]

/-- Settles O7: a push is one append to its queue and one change of its core, or that of its core alone. -/
theorem pushesAppendStallOrReportFull : Obligations.PushesAppendStallOrReportFull := by
  unfold Obligations.PushesAppendStallOrReportFull
  refine ⟨fun s core rd rs1 rs2 hc hrd h1 h2 hp => ⟨fun hroom hlow hcont i hi => ?enters, fun hroom hlow hcont => ?contends,
    fun hfull => ?late⟩, fun s core q rd d hc hs hh hf hd hr hroom hlow => ?accept⟩
  case enters =>
    obtain ⟨block, rfl⟩ : ∃ block, i = pushInstr block core rd rs1 rs2 := by
      simp only [List.mem_cons, List.not_mem_nil, or_false] at hi
      obtain rfl | rfl := hi
      exacts [⟨true, rfl⟩, ⟨false, rfl⟩]
    obtain ⟨hw, he⟩ := pushInstr_performs hc hrd h1 h2 block s
    exact completes_pushEnter hw he (uqPushOp_enters hp hroom hlow hcont)
  case contends =>
    have hpush (block : Bool) := completes_push_contended (pushInstr_performs hc hrd h1 h2 block s).1
      (pushInstr_performs hc hrd h1 h2 block s).2 (uqPushOp_contends hp hroom hlow hcont)
    exact ⟨hpush true, hpush false⟩
  case late =>
    have hpush (block : Bool) := completes_push_late (pushInstr_performs hc hrd h1 h2 block s).1
      (pushInstr_performs hc hrd h1 h2 block s).2 (uqPushOp_late hp hfull)
    exact ⟨hpush true, hpush false⟩
  case accept =>
    have hwf : (Instr.pushAccept core).wf = true := decide_eq_true hc
    exact (completes_unit_core hwf rfl (pushAcceptOp_enters hs hh hf hd hr hroom (lowerWaits_none q hlow)) rfl rfl
      fun _ hv => enqueue_other q core d s.ctx hv).imp fun _ ⟨honly, hunit, hcore⟩ => ⟨hunit.trans (enqueue_unit ..), hcore, honly⟩

end Sys2Proof.Machine

namespace Sys2Proof.Machine

/-! ### Illegal instructions (R212, log entry 118) -/

/-- Core `core` has taken an illegal-instruction exception, its units untouched. -/
def TrappedIllegal (core : Nat) (s t : State) : Prop :=
  (t.ctx.core core).mcause = 2 ∧ (t.ctx.core core).mepc = (s.ctx.core core).pc ∧ (t.ctx.core core).priv = 3 ∧
  (t.ctx.core core).pc = (s.ctx.core core).mtvec &&& ~~~(3 : Word64) ∧ (t.ctx.core core).regs = (s.ctx.core core).regs ∧
  (∀ u, t.ctx.unit u = s.ctx.unit u) ∧ OnlyUnitCore (unitOfCore core) core s t

theorem completes_illegal {i : Instr} {s : State} {core w : Nat} {op : Ctx → Ctx} (hw : i.wf = true) (he : exec i s = perform i s op)
    (hop : op s.ctx = illegal core w s.ctx) : Completes i s (TrappedIllegal core s) := by
  rw [illegal, trapEnter] at hop
  refine (completes_updCore (u := unitOfCore core) hw he hop).imp fun t ⟨honly, hunit, hcore⟩ => ?_
  have hunits (u : Nat) : t.ctx.unit u = s.ctx.unit u := by
    obtain ⟨-, -, hothers, -⟩ := honly
    by_cases hu : u = unitOfCore core
    · rw [hu, hunit]
    · exact hothers u hu
  exact ⟨by rw [hcore]; rfl, by rw [hcore], by rw [hcore], by rw [hcore], by rw [hcore], hunits, honly⟩

section
variable {c : Ctx} {core : Nat} (hr : c.coreRuns core = true)
include hr

theorem illegalInstructionOp_traps {w : Nat} (h0 : bits w 0 7 = 0x0B) (h5 : ¬ (bits w 25 7 = 0 ∧ bits w 12 3 ≤ 5))
    (h1 : ¬ (bits w 25 7 = 1 ∧ bits w 12 3 = 0)) : illegalInstructionOp core w c = illegal core w c := by
  have huq : isUq w = false := by
    simp only [isUq, h0, Bool.and_eq_false_iff, Bool.or_eq_false_iff, beq_eq_false_iff_ne, decide_eq_false_iff_not]
    exact .inr ⟨not_and_or.mp h5, not_and_or.mp h1⟩
  simp [illegalInstructionOp, hr, huq, h0]

theorem uqPushOp_queue3 (block : Bool) (rd rs1 : Nat) {rs2 : Nat} (hq : (c.core core).reg32 rs2 % 4 = 3) :
    uqPushOp block core rd rs1 rs2 c = illegal core (uqWord (b2n (!block)) 0 rd rs1 rs2) c := by
  simp [uqPushOp, hr, hq]

theorem uqQstatOp_queue3 (rd : Nat) {rs1 : Nat} (hq : (c.core core).reg32 rs1 % 4 = 3) :
    uqQstatOp core rd rs1 c = illegal core (uqWord 0 5 rd rs1 0) c := by
  simp [uqQstatOp, hr, hq]

end

/-- Settles O9: each of these words, and each naming of queue 3, is the one trap of an illegal instruction. -/
theorem illegalWordTrapsWithCauseTwo : Obligations.IllegalWordTrapsWithCauseTwo := by
  unfold Obligations.IllegalWordTrapsWithCauseTwo
  intro s core w rd rs1 rs2 hc hw hrd h1 h2 hr
  refine ⟨fun h0 h5 hn => ?word, fun hq => ?push, fun hq => ?qstat⟩
  case word => exact completes_illegal (by simpa [Instr.wf, hc] using hw) rfl (illegalInstructionOp_traps hr h0 h5 hn)
  case push =>
    have hpush (block : Bool) := completes_illegal (pushInstr_performs hc hrd h1 h2 block s).1 (pushInstr_performs hc hrd h1 h2 block s).2
      (uqPushOp_queue3 hr block rd rs1 hq)
    exact ⟨hpush true, hpush false⟩
  case qstat => exact completes_illegal (by simp [Instr.wf, hc, hrd, h1]) rfl (uqQstatOp_queue3 hr rd hq)

/-! ### A core's own RAMs (R211, Table 05-7) -/

theorem localPlace_instr {core a : Nat} (h : a < 0x10000) : localPlace core a = .instr (coreRam core + a) := by simp [localPlace, h]

theorem localPlace_data {core a : Nat} (hlo : 0x10000 ≤ a) (hhi : a < 0x18000) : localPlace core a = .data (coreRam core + a) := by
  simp [localPlace, Nat.not_lt.mpr hlo, hhi]

/-- An aligned access ends below a boundary of the RAMs that it starts below. -/
theorem aligned_last {a n hi : Nat} (hn : n ∈ [1, 2, 4]) (ha : a % n = 0) (h4 : hi % 4 = 0) (h : a < hi) : a + n - 1 < hi := by
  simp only [List.mem_cons, List.not_mem_nil, or_false] at hn
  obtain rfl | rfl | rfl := hn <;> omega

/-- No access starts after it ends. -/
theorem le_last {a n : Nat} (hn : n ∈ [1, 2, 4]) : a ≤ a + n - 1 := by
  simp only [List.mem_cons, List.not_mem_nil, or_false] at hn
  omega

section
variable {c : Ctx} {core a n v rd : Nat} {signed : Bool} (hr : c.coreRuns core = true) (hn : n ∈ [1, 2, 4]) (ha : a % n = 0)
include hr hn ha

theorem controlCoreAccessOp_fetch (h : a < 0x10000) : controlCoreAccessOp core .fetch a n v rd signed c =
    c.answer core { ok := true, value := c.readNat (coreRam core + a) n } := by
  simp only [controlCoreAccessOp, hr, localPlace_instr h, localPlace_instr (aligned_last hn ha rfl h)]
  rfl

variable (hlo : 0x10000 ≤ a) (hhi : a < 0x18000)
include hlo hhi

theorem controlCoreAccessOp_load : controlCoreAccessOp core .load a n v rd signed c =
    deliver core rd n (c.readNat (coreRam core + a) n) signed c := by
  simp [controlCoreAccessOp, hr, ha, localPlace_data hlo hhi, localPlace_data (hlo.trans (le_last hn)) (aligned_last hn ha rfl hhi)]

theorem controlCoreAccessOp_store : controlCoreAccessOp core .store a n v rd signed c =
    (c.write (coreRam core + a) (toBytes n v)).answer core {} := by
  simp [controlCoreAccessOp, hr, ha, localPlace_data hlo hhi, localPlace_data (hlo.trans (le_last hn)) (aligned_last hn ha rfl hhi),
    Ctx.writeNat]

end

/-- Settles O10: an access to a core's own RAM is one answer, one register delivered, or one write of its bytes. -/
theorem coreAccessReachesItsOwnRam : Obligations.CoreAccessReachesItsOwnRam := by
  unfold Obligations.CoreAccessReachesItsOwnRam
  intro s core a n v rd signed hc hn ha hv hrd hr
  have hwf (kind : Access) (h : a < 0x18000) : (Instr.controlCoreAccess core kind a n v rd signed).wf = true := by
    have hsize : (n == 1 || n == 2 || n == 4) = true := by simpa [or_assoc] using hn
    simp only [Instr.wf, hsize, Bool.and_eq_true, decide_eq_true_eq, and_true]
    omega
  refine ⟨fun h => ?fetch, fun hlo hhi => ⟨?load, ?store⟩⟩
  case fetch =>
    have hop := controlCoreAccessOp_fetch (v := v) (rd := rd) (signed := signed) hr hn ha h
    refine .of_run _ (hwf .fetch (by omega)) rfl ⟨?_, State.run_mem_of_log s _ (by rw [hop]; rfl), by rw [State.run_dev, hop]; rfl⟩
    rw [State.run_dev, hop]
    exact Tab.get_set_same ..
  case load =>
    have hop := controlCoreAccessOp_load (v := v) (rd := rd) (signed := signed) hr hn ha hlo hhi
    refine .of_run _ (hwf .load hhi) rfl ⟨?_, State.run_mem_of_log s _ (by rw [hop]; rfl), fun k hk => ?_, by rw [State.run_dev, hop]; rfl⟩
    · rw [State.run_at_core, hop, deliver, if_pos hc, answer_at_core, updCore_same]
      rfl
    · rw [State.run_at_core, hop, deliver, answer_at_core, updCore_other _ _ hk]
  case store =>
    have hop := controlCoreAccessOp_store (v := v) (rd := rd) (signed := signed) hr hn ha hlo hhi
    have hwrote : Wrote s (s.ctx.write (coreRam core + a) (toBytes n v)) (s.run (controlCoreAccessOp core .store a n v rd signed)) :=
      .of_log (by rw [hop]; rfl)
    have hbytes := hwrote.bytes_write
    have hkeeps := hwrote.keepsMemoryBut
    rw [length_toBytes] at hbytes hkeeps
    refine .of_run _ (hwf .store hhi) rfl ⟨hbytes, hkeeps, ?_⟩
    rw [State.run_dev, hop]
    simp [Ctx.answer]

end Sys2Proof.Machine

namespace Sys2Proof.Machine

/-! ### Completion records (R219, R220, Table 05-9) -/

@[simp] theorem length_recordBytes (q status tag detail : Nat) : (recordBytes q status tag detail).length = 16 := by simp [recordBytes]

/-- No command that a startable one stands behind has ended. -/
theorem startable_ahead {c : Ctx} {u q op j : Nat} {x : Entry} (h : startable c u q op = some (j, x)) :
    ∀ e ∈ ((c.unit u).queue q).entries.take j, e.ended = none := by
  unfold startable at h
  dsimp only at h
  split at h
  · cases h
  · split at h
    · next hc =>
      obtain ⟨rfl, -⟩ : _ = j ∧ _ = x := by simpa using h
      simp only [Bool.and_eq_true, List.all_eq_true, Option.isNone_iff_eq_none] at hc
      obtain ⟨⟨⟨-, hopen⟩, -⟩, -⟩ := hc
      exact hopen
    · cases h

/-- No command starts behind one that waits for its record. -/
theorem startable_le_ended {c : Ctx} {u q op i j : Nat} {x : Entry}
    (hi : ((c.unit u).queue q).entries.findIdx? (fun e => e.ended.isSome) = some i) (h : startable c u q op = some (j, x)) : j ≤ i := by
  by_contra hlt
  obtain ⟨hil, hended, -⟩ := List.findIdx?_eq_some_iff_getElem.mp hi
  have hopen := startable_ahead h _ (List.getElem_mem (n := i) (by rw [List.length_take]; omega))
  rw [List.getElem_take] at hopen
  rw [hopen] at hended
  cases hended

/-- A unit with a command's signal counted, where the command has one. -/
def UnitSt.signalled (e : Entry) (x : UnitSt) : UnitSt :=
  if hSig e.desc then { x with evts := Tab.upd {} x.evts (hSigEvt e.desc) (Evt.add 1) } else x

theorem signalOf_updUnit (u : Nat) (e : Entry) (c : Ctx) (f : UnitSt → UnitSt) :
    signalOf u e (c.updUnit u f) = c.updUnit u (fun x => (f x).signalled e) := by
  unfold signalOf UnitSt.signalled
  split
  · rw [addEvt_eq, updUnit_updUnit]
  · rfl

theorem signalled_evts (u : Nat) (e : Entry) (s : State) {x : UnitSt} (h : x.evts = (s.ctx.unit u).evts) : (x.signalled e).evts =
    if hSig e.desc then ((addEvt u (hSigEvt e.desc) 1 s.ctx).unit u).evts else (s.ctx.unit u).evts := by
  unfold UnitSt.signalled
  split
  · rw [addEvt_eq, updUnit_same, h]
  · exact h

theorem signalled_cpls (e : Entry) (x : UnitSt) : (x.signalled e).cpls = x.cpls := by
  unfold UnitSt.signalled; split <;> rfl

theorem queue_evts (x : UnitSt) (t : Tab Evt) (q : Nat) : UnitSt.queue { x with evts := t } q = x.queue q := by
  match q with
  | 0 => rfl
  | 1 => rfl
  | _ + 2 => rfl

theorem queue_cpls (x : UnitSt) (t : Tab Cpl) (q : Nat) : UnitSt.queue { x with cpls := t } q = x.queue q := by
  match q with
  | 0 => rfl
  | 1 => rfl
  | _ + 2 => rfl

theorem signalled_queue (e : Entry) (x : UnitSt) (q : Nat) : (x.signalled e).queue q = x.queue q := by
  unfold UnitSt.signalled
  split
  · exact queue_evts ..
  · rfl

/-- A unit after the record of command `i`, entry `e`, has entered completion ring `r`: HEAD goes one on, and the command leaves its queue. -/
def UnitSt.recorded (q i : Nat) (e : Entry) (r : Cpl) (x : UnitSt) : UnitSt :=
  let y := { x with cpls := Tab.set x.cpls (e.core % 4) { r with head := (r.head + 1) % 256 } }
  y.setQueue q { x.queue q with entries := (x.queue q).entries.eraseIdx i }

theorem Cpl.full_iff {r : Cpl} : r.full = true ↔ (r.head + 256 - r.tail) % 256 = 2 ^ r.lenLog2 := beq_iff_eq

section
variable {c : Ctx} {u q i : Nat} {e : Entry} (hi : ((c.unit u).queue q).entries.findIdx? (fun e => e.ended.isSome) = some i)
  (he : ((c.unit u).queue q).entries[i]? = some e)
include hi he

theorem completionRecordWriteOp_full (hf : (Tab.get {} (c.unit u).cpls (e.core % 4)).full = true) : completionRecordWriteOp u q c = c := by
  simp only [completionRecordWriteOp, hi, he, hf, Bool.true_or, if_true]

theorem completionRecordWriteOp_writes {status detail : Nat} (hend : e.ended = some (status, detail))
    (hl : unitLive c u = true ∨ ((c.unit u).retired = true ∧ (c.unit u).resetting = false ∧ c.dieStopped (dieOfUnit u) = false))
    (hf : ¬ (Tab.get {} (c.unit u).cpls (e.core % 4)).full = true) :
    let r := Tab.get {} (c.unit u).cpls (e.core % 4)
    completionRecordWriteOp u q c =
      (c.write (coreRam e.core + 0x10000 + (r.base + 16 * (r.head % 2 ^ r.lenLog2)) % 0x8000)
        (recordBytes q status (hTag e.desc) detail)).updUnit u (fun x => (x.recorded q i e r).signalled e) := by
  have hgo : (unitLive c u || ((c.unit u).retired && !(c.unit u).resetting && !c.dieStopped (dieOfUnit u))) = true := by
    simpa [and_assoc] using hl
  simp only [completionRecordWriteOp, hi, he, hend, Bool.eq_false_iff.mpr hf, hgo, Bool.not_true, Bool.or_self, Bool.false_eq_true, if_false,
    Option.getD_some, Ctx.dropEntry, Ctx.updQueue, updUnit_updUnit, signalOf_updUnit, queue_cpls]
  rfl

end

/-- Settles O19: the record is the command's one write, and its ring, its queue and its signal are the one change of its unit. -/
theorem completionRecordEntersTheCoresRing : Obligations.CompletionRecordEntersTheCoresRing := by
  unfold Obligations.CompletionRecordEntersTheCoresRing
  intro s u q i status detail e hu hq hi he hend hl r a full
  have hwf : (Instr.completionRecordWrite u q).wf = true := by simp [Instr.wf, hu, hq]
  refine ⟨fun hf => ?full, fun op j x h => startable_le_ended hi h, fun hoff => ?off, fun hf => ?writes⟩
  case full =>
    exact (completes_becomes hwf rfl (completionRecordWriteOp_full hi he (Cpl.full_iff.mpr hf))).imp
      fun _ ⟨hdev, hwrote⟩ => ⟨hwrote.mem_eq rfl, hdev⟩
  case off => rw [recordDue, show (Tab.get {} (s.ctx.unit u).cpls (e.core % 4)).enable = false from hoff, Bool.and_false]
  case writes =>
    have hop := completionRecordWriteOp_writes hi he hend hl (mt Cpl.full_iff.mp hf)
    refine (completes_updUnit hwf rfl hop (Ctx.write_dev ..)).imp fun t ⟨hwrote, honly, hunit⟩ => ?_
    have hbytes := hwrote.bytes_write
    have hkeeps := hwrote.keepsMemoryBut
    rw [length_recordBytes] at hbytes hkeeps
    refine ⟨hbytes, hkeeps, honly, ?evts, ?queue, ?ring⟩ <;> rw [hunit]
    case evts => exact signalled_evts u e s (setQueue_evts ..)
    case queue => rw [signalled_queue, UnitSt.recorded, queue_setQueue]
    case ring =>
      rw [signalled_cpls, UnitSt.recorded, setQueue_cpls]
      exact Tab.get_set_same ..

end Sys2Proof.Machine

namespace Sys2Proof.Machine

/-! ### Copies start and complete (R222–R226) -/

/-- A copy that ends with poison carried waits for its record where one is due, else leaves with its signal (R225). -/
theorem finish_carried {s : State} {u i : Nat} {e : Entry} (detail : Nat) (h : ((s.ctx.unit u).queue 2).entries[i]? = some e) :
    finish u 2 i 6 detail s.ctx = s.ctx.updUnit u (UnitSt.ended 2 (doneEntries s u 2 i e 6 detail) (doneEvts s u e)) := by
  have h6 : finish u 2 i 6 detail s.ctx =
      if recordDue s.ctx u e then s.ctx.updEntry u 2 i (fun x => { x with started := true, ended := some (6, detail) })
      else signalOf u e (s.ctx.dropEntry u 2 i) := by
    simp [finish, h, halts]
  by_cases hdue : recordDue s.ctx u e = true
  · rw [h6, if_pos hdue, doneEntries, if_pos hdue, doneEvts, hdue, Bool.not_true, Bool.and_false, if_neg Bool.false_ne_true, updEntry_eq]
    exact updUnit_congr rfl
  · have h0 := finish_done (c := s.ctx) detail rfl rfl rfl h
    rw [finish_zero detail h, if_neg hdue] at h0
    rw [h6, if_neg hdue, h0, doneEntries, doneEntries, if_neg hdue, if_neg hdue]

theorem dmaCopyOp_starts {s : State} {u i : Nat} {e : Entry} (h : startable s.ctx u 2 0x30 = some (i, e)) (hok : copyOk s.ctx e.desc = true)
    (hw : copyRefused s.ctx e.desc = none)
    (hroute : ∀ p, cRemote e.desc = some p → (route s.ctx (dieOfUnit u) p s.dev.boot.pkg).isSome = true) :
    dmaCopyOp u s.ctx = s.ctx.updUnit u (UnitSt.updEntry 2 i (fun x => { x with started := true })) := by
  cases hr : cRemote e.desc with
  | none =>
    simp only [dmaCopyOp, h, hok, hw, hr, Bool.not_true, Bool.false_eq_true, if_false]
    rfl
  | some p =>
    have hsome : (route s.ctx (dieOfUnit u) p s.ctx.dev.boot.pkg).isNone = false := by simpa [Option.isSome_iff_ne_none] using hroute p hr
    simp only [dmaCopyOp, h, hok, hw, hr, hsome, Bool.not_true, Bool.false_eq_true, if_false]
    rfl

theorem dmaCopyCompleteOp_done {s : State} {u i : Nat} {e : Entry}
    (h : findActive s.ctx u 2 0x30 (fun e => !hasChunk e && e.await.isEmpty) = some (i, e)) (hl : queueLive s.ctx u 2 = true)
    (hr : e.remoteRefused = false) (hp : e.poison = false) :
    dmaCopyCompleteOp u s.ctx = s.ctx.updUnit u
      (UnitSt.ended 2 (doneEntries s u 2 i e (if e.carried.isEmpty then 0 else 6) e.carried.length) (doneEvts s u e)) := by
  obtain ⟨he, -⟩ := findActive_some h
  simp only [dmaCopyCompleteOp, h, hl, hr, hp, Bool.not_true, Bool.false_eq_true, if_false]
  by_cases hcar : e.carried = []
  · simp only [hcar, List.isEmpty_nil, if_true, List.length_nil]
    exact finish_done 0 rfl rfl rfl he
  · simp only [List.isEmpty_iff, if_neg hcar]
    exact finish_carried _ he

/-- Settles O24: a copy's start marks its entry, its end is one change of its unit. -/
theorem dmaCopyStartsAndCompletes : Obligations.DmaCopyStartsAndCompletes := by
  unfold Obligations.DmaCopyStartsAndCompletes
  intro s u i e hu
  have hstart : (Instr.dmaCopy u).wf = true := decide_eq_true hu
  have hend : (Instr.dmaCopyComplete u).wf = true := decide_eq_true hu
  exact ⟨fun h hok hw hroute => completes_unit hstart rfl (dmaCopyOp_starts h hok hw hroute),
    fun h hl hr hp => completes_unit hend rfl (dmaCopyCompleteOp_done h hl hr hp)⟩

/-! ### Chunks (R221, R225) -/

/-- The context in which the cluster's engine serves unit `u`: the turn has passed to the next unit. -/
def passTurn (u : Nat) (c : Ctx) : Ctx := c.updCluster (u / 8) (fun y => { y with turn := (u + 1) % 8 })

/-- The unit whose turn it is, and which has a chunk, is served. -/
theorem dmaChunkOp_turn {c : Ctx} {u i : Nat} {e : Entry} (hf : (c.cluster (u / 8)).frozen = false) (ht : (c.cluster (u / 8)).turn = u % 8)
    (hl : unitLive c u = true) (h : findActive c u 2 0x30 hasChunk = some (i, e)) : dmaChunkOp (u / 8) c = chunkOf u e i (passTurn u c) := by
  have hu : 8 * (u / 8) + (u % 8 + 0) % 8 = u := by omega
  simp only [dmaChunkOp, hf, ht, Bool.false_eq_true, if_false]
  rw [List.range_succ_eq_map, List.map_cons, hu, List.find?_cons_of_pos (by rw [hl, h]; rfl)]
  simp only [h]
  rfl

/-- Where a chunk from position `pos` begins on the source and on the destination side, and its bytes. -/
def chunkSrc (d : Desc) (pos : Nat) : Nat := cSrc d + pos / cRowBytes d * cSrcStride d + pos % cRowBytes d
def chunkDst (d : Desc) (pos : Nat) : Nat := cDst d + pos / cRowBytes d * cDstStride d + pos % cRowBytes d
def chunkLen (d : Desc) (pos : Nat) : Nat := min 4096 (cRowBytes d - pos % cRowBytes d)

/-- An entry that waits for the answer about its next `n` bytes, asked for at clock `now` over a port. -/
def Entry.asked (n now port : Nat) (x : Entry) : Entry :=
  { x with await := x.await ++ [(x.pos, n)], sentAt := x.sentAt ++ [now], via := x.via ++ [port], pos := x.pos + n }

theorem moveLocal_clean (u i src dst n : Nat) {c : Ctx} (hc : c.Clean) :
    moveLocal u i src dst n c = (c.write dst (c.read src n)).updEntry u 2 i (fun x => { x with pos := x.pos + n }) := by
  have hbases : carriedBases c src dst n = [] := by simp [carriedBases, isPoisoned, hc.1]
  simp only [moveLocal, eccRead_clean _ _ hc, hbases, store_clean _ _ hc, poisonAt_clean _ _ hc, Bool.and_false, Bool.or_false, List.filter_nil,
    List.eraseDups_nil, List.append_nil]
  rfl

section
variable {c : Ctx} {u i : Nat} {e : Entry}

theorem chunkOf_local (hc : c.Clean) (hr : cRemote e.desc = none) (hsw : windowHeld c (chunkSrc e.desc e.pos) = false)
    (hdw : windowHeld c (chunkDst e.desc e.pos) = false)
    (hcr : chunkRefused c (some (chunkSrc e.desc e.pos)) (some (chunkDst e.desc e.pos)) (chunkLen e.desc e.pos) = none)
    (hfp : firstProtected c (chunkDst e.desc e.pos) (chunkLen e.desc e.pos) = none) :
    chunkOf u e i c = (c.write (chunkDst e.desc e.pos) (c.read (chunkSrc e.desc e.pos) (chunkLen e.desc e.pos))).updEntry u 2 i
      (fun x => { x with pos := x.pos + chunkLen e.desc e.pos }) := by
  have hs : cSrcRemote e.desc = false := by
    rw [cRemote] at hr; split at hr
    · cases hr
    · next h => exact Bool.eq_false_iff.mpr h
  have hd : cDstRemote e.desc = false := by
    rw [cRemote, hs] at hr; simpa using hr
  rw [← moveLocal_clean _ _ _ _ _ hc]
  unfold chunkSrc chunkDst chunkLen at *
  simp only [chunkOf, chunkAt, hs, hd, hr, hsw, hdw, hcr, hfp, Bool.and_false, Bool.or_self, Bool.false_eq_true, if_false]

variable {pkg port : Nat} {line : Bool} (hr : cRemote e.desc = some pkg)
  (hroute : route c (dieOfUnit u) pkg c.dev.boot.pkg = some (port, line))
include hr hroute

theorem chunkOf_asks (hs : cSrcRemote e.desc = true) (hdw : windowHeld c (chunkDst e.desc e.pos) = false)
    (hcr : chunkRefused c none (if cDstRemote e.desc then none else some (chunkDst e.desc e.pos)) (chunkLen e.desc e.pos) = none)
    (hfp : cDstRemote e.desc = false → firstProtected c (chunkDst e.desc e.pos) (chunkLen e.desc e.pos) = none) :
    chunkOf u e i c = (c.send (.remoteRequest pkg u (chunkSrc e.desc e.pos) (chunkLen e.desc e.pos) false [] false)).updEntry u 2 i
      (Entry.asked (chunkLen e.desc e.pos) c.dev.slow port) := by
  have hfree : (if cDstRemote e.desc then none else firstProtected c (chunkDst e.desc e.pos) (chunkLen e.desc e.pos)) = none := by
    split
    · rfl
    · next h => exact hfp (Bool.eq_false_iff.mpr h)
  unfold chunkSrc chunkDst chunkLen at *
  simp only [chunkOf, chunkAt, hs, hr, hdw, hcr, hfree, hroute, Bool.not_true, Bool.false_and, Bool.and_false, Bool.or_self, Bool.false_eq_true,
    if_false, if_true]
  rfl

theorem chunkOf_sends (hc : c.Clean) (hs : cSrcRemote e.desc = false) (hsw : windowHeld c (chunkSrc e.desc e.pos) = false)
    (hcr : chunkRefused c (some (chunkSrc e.desc e.pos)) none (chunkLen e.desc e.pos) = none) :
    chunkOf u e i c = (c.send (.remoteRequest pkg u (chunkDst e.desc e.pos) (chunkLen e.desc e.pos) true
      (c.read (chunkSrc e.desc e.pos) (chunkLen e.desc e.pos)) false)).updEntry u 2 i
      (Entry.asked (chunkLen e.desc e.pos) c.dev.slow port) := by
  have hd : cDstRemote e.desc = true := by
    rw [cRemote, hs] at hr
    by_contra h
    simp [h] at hr
  unfold chunkSrc chunkDst chunkLen at *
  simp only [chunkOf, chunkAt, hs, hd, hr, hsw, hcr, hroute, eccRead_clean _ _ hc, poisonAt_clean _ _ hc, Bool.not_true, Bool.false_and,
    Bool.and_false, Bool.or_self, Bool.false_eq_true, if_false, if_true]
  rfl

end

/-- The engine's turn has passed on from unit `u`; the other clusters and units are as before. -/
def TurnPassed (u : Nat) (s t : State) : Prop :=
  t.ctx.cluster (u / 8) = { s.ctx.cluster (u / 8) with turn := (u + 1) % 8 } ∧
  (∀ k, k ≠ u / 8 → t.ctx.cluster k = s.ctx.cluster k) ∧ ∀ v, v ≠ u → t.ctx.unit v = s.ctx.unit v

/-- A chunk's meaning: a write or a message in the context with the turn passed, then a change of the copy's entry. -/
theorem completes_dmaChunk {s : State} {u i : Nat} {b : Ctx} {f : Entry → Entry} (hu : u < 512)
    (hop : dmaChunkOp (u / 8) s.ctx = b.updEntry u 2 i f) (hdev : b.dev = { (passTurn u s.ctx).dev with outbox := b.dev.outbox }) :
    Completes (.dmaChunk (u / 8)) s fun t => Wrote s b t ∧ TurnPassed u s t ∧
      t.dev = { s.dev with units := t.dev.units, clusters := t.dev.clusters, outbox := b.dev.outbox } ∧
      (t.ctx.unit u).dma.entries = updAt (s.ctx.unit u).dma.entries i f := by
  have hwf : (Instr.dmaChunk (u / 8)).wf = true := by simp only [Instr.wf, decide_eq_true_eq]; omega
  have hunit (v : Nat) : b.unit v = s.ctx.unit v := by rw [Ctx.unit, hdev]; rfl
  have hcluster (k : Nat) : b.cluster k = (passTurn u s.ctx).cluster k := by rw [Ctx.cluster, hdev]; rfl
  refine .of_run _ hwf rfl ⟨.of_log (by rw [hop]; rfl), ⟨?own, fun k hk => ?clusters, fun v hv => ?units⟩, ?dev, ?entries⟩
  case own => rw [State.run_at_cluster, hop]; exact (hcluster _).trans (updCluster_same ..)
  case clusters => rw [State.run_at_cluster, hop]; exact (hcluster k).trans (updCluster_other _ _ hk)
  case units => rw [State.run_at_unit, hop, updEntry_eq, updUnit_other _ _ hv, hunit]
  case dev =>
    have hd : (s.run (dmaChunkOp (u / 8))).dev = { b.dev with units := (s.run (dmaChunkOp (u / 8))).dev.units } := by
      rw [State.run_dev, hop]; rfl
    rw [hd, hdev]
    rfl
  case entries => rw [State.run_at_unit, hop, updEntry_eq, updUnit_same, hunit]; rfl

/-- Settles O25: the unit whose turn it is moves its chunk by one write, or asks for it by one message. -/
theorem dmaChunkMovesItsBytes : Obligations.DmaChunkMovesItsBytes := by
  unfold Obligations.DmaChunkMovesItsBytes
  intro s u i e hu hf ht hl h hc
  have hturn := dmaChunkOp_turn hf ht hl h
  have hclean : (passTurn u s.ctx).Clean := hc
  refine ⟨fun hr hsw hdw hcr hfp => ?moved, fun pkg port line hr hroute => ⟨fun hs hdw hcr hfp => ?asked, fun hs hsw hcr => ?sent⟩⟩
  case moved =>
    refine (completes_dmaChunk hu (hturn.trans (chunkOf_local hclean hr hsw hdw hcr hfp)) (by rw [Ctx.write_dev])).imp
      fun t ⟨hwrote, hpassed, hdev, hentries⟩ => ?_
    have hlog := congrArg Ctx.log (write_withDev s.ctx (passTurn u s.ctx).dev (chunkDst e.desc e.pos)
      (s.bytes (chunkSrc e.desc e.pos) (chunkLen e.desc e.pos)))
    have hw : Wrote s (s.ctx.write (chunkDst e.desc e.pos) (s.bytes (chunkSrc e.desc e.pos) (chunkLen e.desc e.pos))) t :=
      hwrote.trans (congrArg (applyLog s.mem) hlog)
    have hlen : (s.bytes (chunkSrc e.desc e.pos) (chunkLen e.desc e.pos)).length = chunkLen e.desc e.pos := by simp [State.bytes]
    have hbytes := hw.bytes_write
    have hkeeps := hw.keepsMemoryBut
    rw [hlen] at hbytes hkeeps
    exact ⟨hbytes, hkeeps, hpassed, by rw [hdev, Ctx.write_dev]; rfl, hentries⟩
  case asked =>
    exact (completes_dmaChunk hu (hturn.trans (chunkOf_asks hr hroute hs hdw hcr hfp)) rfl).imp
      fun t ⟨hwrote, hpassed, hdev, hentries⟩ => ⟨hwrote.mem_eq rfl, hpassed, by rw [hdev], by rw [hdev]; rfl, hentries⟩
  case sent =>
    exact (completes_dmaChunk hu (hturn.trans (chunkOf_sends hr hroute hclean hs hsw hcr)) rfl).imp
      fun t ⟨hwrote, hpassed, hdev, hentries⟩ => ⟨hwrote.mem_eq rfl, hpassed, by rw [hdev], by rw [hdev]; rfl, hentries⟩

end Sys2Proof.Machine

namespace Sys2Proof.Machine

/-! ### Remote answers (R224, R225, R455) -/

/-- An entry whose oldest remote request is answered; `rest` are the others. -/
def Entry.answered (rest : List (Nat × Nat)) (x : Entry) : Entry :=
  { x with await := rest, sentAt := x.sentAt.drop 1, via := x.via.drop 1 }

section
variable {c : Ctx} {u i pos n : Nat} {e : Entry} {rest : List (Nat × Nat)}
  (h : findActive c u 2 0x30 (fun e => !e.await.isEmpty) = some (i, e))
include h

/-- With a request older than RESP_TIMEOUT the copy has been refused. -/
theorem respTimeoutOp_refuses (hlate : ∃ x ∈ e.sentAt, (c.linkCfg (dieOfUnit u)).respTimeout ≤ c.dev.slow - x) :
    respTimeoutOp u c = c.updUnit u (UnitSt.updEntry 2 i (fun x => { x with await := [], sentAt := [], via := [], remoteRefused := true })) := by
  have hall : ¬ e.sentAt.all (fun t => decide (c.since t < (c.linkCfg (dieOfUnit u)).respTimeout)) = true := by
    obtain ⟨x, hx, hle⟩ := hlate
    rw [List.all_eq_true]
    intro hnone
    exact absurd (of_decide_eq_true (hnone x hx)) (Nat.not_lt.mpr hle)
  simp only [respTimeoutOp, h, if_neg hall]
  rfl

variable (ha : e.await = (pos, n) :: rest) (hl : unitLive c u = true)
include ha hl

theorem remoteResponseOp_refused (data : List Byte) (poison : Bool) : remoteResponseOp u true data poison c =
    c.updUnit u (UnitSt.updEntry 2 i (fun x => { x.answered rest with remoteRefused := true })) := by
  simp only [remoteResponseOp, h, ha, hl, Bool.not_true, Bool.false_eq_true, if_false, if_true]
  rfl

theorem remoteResponseOp_write (data : List Byte) (poison : Bool) (hs : cSrcRemote e.desc = false) :
    remoteResponseOp u false data poison c = c.updUnit u (UnitSt.updEntry 2 i (Entry.answered rest)) := by
  simp only [remoteResponseOp, h, ha, hl, hs, Bool.not_true, Bool.false_eq_true, if_false]
  rfl

variable (hs : cSrcRemote e.desc = true)
include hs

theorem remoteResponseOp_poisoned (data : List Byte) : remoteResponseOp u false data true c =
    c.updUnit u (UnitSt.updEntry 2 i (fun x => { x.answered rest with poison := true })) := by
  simp only [remoteResponseOp, h, ha, hl, hs, Bool.not_true, Bool.false_eq_true, if_false, if_true]
  rfl

theorem remoteResponseOp_lands {data : List Byte} (hn : data.length = n) (hdw : windowHeld c (chunkDst e.desc pos) = false)
    (hcr : chunkRefused c none (some (chunkDst e.desc pos)) n = none) (hfp : firstProtected c (chunkDst e.desc pos) n = none) (hc : c.Clean) :
    remoteResponseOp u false data false c =
      (c.write (chunkDst e.desc pos) data).updUnit u (UnitSt.updEntry 2 i (Entry.answered rest)) := by
  unfold chunkDst at *
  simp only [remoteResponseOp, h, ha, hl, hs, hn, hdw, hcr, hfp, store_clean _ _ hc, ne_eq, not_true_eq_false, Bool.not_true,
    Bool.false_eq_true, if_false, if_true]
  rfl

end

/-- Settles O26: an answer is one change of the copy's entry and, where data come, one write; so is a timeout. -/
theorem remoteAnswersReachTheCopy : Obligations.RemoteAnswersReachTheCopy := by
  unfold Obligations.RemoteAnswersReachTheCopy
  intro s u i pos n e rest data poison hu h ha
  have hwf (refused poison : Bool) : (Instr.remoteResponse u refused data poison).wf = true := decide_eq_true hu
  refine ⟨fun hl => ⟨?refused, fun hs => ?write, fun hs => ?poisoned, fun hs hn hdw hcr hfp hc => ?lands⟩, fun hlate => ?timeout⟩
  case refused =>
    exact (completes_unit (hwf true poison) rfl (remoteResponseOp_refused h ha hl data poison)).imp
      fun _ ⟨hmem, honly, hunit⟩ => ⟨hmem, honly, by rw [hunit]; rfl⟩
  case write =>
    exact (completes_unit (hwf false poison) rfl (remoteResponseOp_write h ha hl data poison hs)).imp
      fun _ ⟨hmem, honly, hunit⟩ => ⟨hmem, honly, by rw [hunit]; rfl⟩
  case poisoned =>
    exact (completes_unit (hwf false true) rfl (remoteResponseOp_poisoned h ha hl hs data)).imp
      fun _ ⟨hmem, honly, hunit⟩ => ⟨hmem, honly, by rw [hunit]; rfl⟩
  case lands =>
    subst hn
    exact (completes_updUnit (hwf false false) rfl (remoteResponseOp_lands h ha hl hs rfl hdw hcr hfp hc) (Ctx.write_dev ..)).imp
      fun _ ⟨hwrote, honly, hunit⟩ => ⟨hwrote.bytes_write, hwrote.keepsMemoryBut, honly, by rw [hunit]; rfl⟩
  case timeout =>
    have hw : (Instr.respTimeout u).wf = true := decide_eq_true hu
    exact (completes_unit hw rfl (respTimeoutOp_refuses h hlate)).imp fun _ ⟨hmem, honly, hunit⟩ => ⟨hmem, honly, by rw [hunit]; rfl⟩

/-! ### Requests of other packages (R224, R245, R276) -/

/-- A T2 block that lands is held for its sender, once (R276). -/
def holdBlock (src a : Nat) (c : Ctx) : Ctx :=
  if !c.dev.srv.t2Held.contains (src, a) then
    { c with dev := { c.dev with srv := { c.dev.srv with t2Held := c.dev.srv.t2Held ++ [(src, a)] } } }
  else c

theorem holdBlock_log (src a : Nat) (c : Ctx) : (holdBlock src a c).log = c.log := by unfold holdBlock; split <;> rfl

theorem holdBlock_dev (src a : Nat) (c : Ctx) : (holdBlock src a c).dev = { c.dev with srv := { c.dev.srv with
    t2Held := if c.dev.srv.t2Held.contains (src, a) then c.dev.srv.t2Held else c.dev.srv.t2Held ++ [(src, a)] } } := by
  unfold holdBlock
  cases c.dev.srv.t2Held.contains (src, a) <;> rfl

/-- A port that is UP or DEGRADED is not left out. -/
theorem port_serves {state : Nat} (h : state = 2 ∨ state = 3) : (decide (state ≠ 2) && decide (state ≠ 3)) = false := by
  obtain rfl | rfl := h <;> rfl

section
variable {c : Ctx} {p src a n : Nat} (hn : n ≠ 0) (hc : c.Clean) (hst : (c.port p).state = 2 ∨ (c.port p).state = 3)
  (hsafe : c.dev.safe.safe = false) (hfrom : refusesFrom c src = false)
include hn hc hst hsafe hfrom

theorem remoteAccessRequestOp_read (hok : remoteAllowed c a n false = true) :
    remoteAccessRequestOp p src a n false [] false c = c.send (.remoteResponse src p false (c.read a n) false) := by
  simp only [remoteAccessRequestOp, hsafe, port_serves hst, hfrom, hok, hn, isT2Block, eccRead_clean _ _ hc, poisonAt_clean _ _ hc, decide_false,
    Bool.false_and, Bool.not_true, Bool.or_self, Bool.false_eq_true, if_false]

variable {data : List Byte} (hok : remoteAllowed c a n true = true) (hfp : firstProtected c a n = none)
include hok hfp

theorem remoteAccessRequestOp_write (ht2 : isT2Block c src n true = false) : remoteAccessRequestOp p src a n true data false c =
    (quotaCheck (c.write a data)).send (.remoteResponse src p false [] false) := by
  simp only [remoteAccessRequestOp, hsafe, port_serves hst, hfrom, hok, hn, ht2, hfp, store_clean _ _ hc, decide_false,
    Bool.false_and, Bool.not_true, Bool.or_self, Bool.false_eq_true, if_false, if_true]

theorem remoteAccessRequestOp_block (ht2 : isT2Block c src n true = true) (hq : c.dev.job.overQuota = false) :
    remoteAccessRequestOp p src a n true data false c =
      (quotaCheck (holdBlock src a (c.write a data))).send (.remoteResponse src p false [] false) := by
  simp only [remoteAccessRequestOp, hsafe, port_serves hst, hfrom, hok, hn, ht2, hq, hfp, store_clean _ _ hc, decide_false, Bool.true_and,
    Bool.and_false, Bool.not_true, Bool.or_self, Bool.false_eq_true, if_false, if_true]
  rfl

end

/-- Settles O27: a read is one message, a write one write and one message, a T2 block also one entry held for its sender. -/
theorem remoteAccessIsServed : Obligations.RemoteAccessIsServed := by
  unfold Obligations.RemoteAccessIsServed
  intro s p src a n data hp hsrc ha hn hn0 hc hst hsafe hfrom
  refine ⟨fun hok => ?read, fun hok ht2 hfp hlen => ?write, fun hok ht2 hq hfp hlen => ?block⟩
  case read =>
    have hwf : (Instr.remoteAccessRequest p src a n false [] false).wf = true := by simpa [Instr.wf, hp] using ⟨⟨hsrc, ha⟩, hn⟩
    exact (completes_becomes hwf rfl (remoteAccessRequestOp_read hn0 (State.clean_ctx hc) hst hsafe hfrom hok)).imp
      fun _ ⟨hdev, hwrote⟩ => ⟨hwrote.mem_eq rfl, hdev⟩
  all_goals
    have hwf : (Instr.remoteAccessRequest p src a n true data false).wf = true := by
      simpa [Instr.wf, hp, hlen] using ⟨⟨hsrc, ha⟩, hn⟩
    subst hlen
  case write =>
    have hop := remoteAccessRequestOp_write hn0 (State.clean_ctx hc) hst hsafe hfrom hok hfp (data := data) ht2
    have hwrote : Wrote s (s.ctx.write a data) (s.run (remoteAccessRequestOp p src a data.length true data false)) :=
      .of_log (by rw [hop]; rfl)
    refine .of_run _ hwf rfl ⟨hwrote.bytes_write, hwrote.keepsMemoryBut, ?_⟩
    rw [State.run_dev, hop]
    simp only [quotaCheck, Ctx.send, Ctx.updJob, Ctx.write_dev]
    rfl
  case block =>
    have hop := remoteAccessRequestOp_block hn0 (State.clean_ctx hc) hst hsafe hfrom hok hfp (data := data) ht2 hq
    have hwrote : Wrote s (s.ctx.write a data) (s.run (remoteAccessRequestOp p src a data.length true data false)) :=
      .of_log (by rw [hop]; exact holdBlock_log ..)
    refine .of_run _ hwf rfl ⟨hwrote.bytes_write, hwrote.keepsMemoryBut, ?_, ?_⟩
    all_goals
      rw [State.run_dev, hop]
      simp only [quotaCheck, Ctx.send, Ctx.updJob, holdBlock_dev, Ctx.write_dev]
      rfl

end Sys2Proof.Machine

namespace Sys2Proof.Machine

/-! ### Work on memory alone

Chains and winnows write through stores; memory being without errors, such work does not depend on the devices and leaves them. -/

/-- Work that reads and writes memory alone, and writes no byte outside `P`. -/
structure WritesOnly (P : Nat → Prop) (f : Ctx → Ctx) : Prop where
  mem : ∀ c : Ctx, c.Clean → (f c).mem = c.mem
  withDev : ∀ (c : Ctx) (dev : Dev), c.Clean → (dev.poison = [] ∧ dev.errs = []) → f (c.withDev dev) = (f c).withDev dev
  byte : ∀ c : Ctx, c.Clean → ∀ b, ¬ P b → (f c).byte b = c.byte b

namespace WritesOnly

variable {P : Nat → Prop} {f g : Ctx → Ctx}

theorem dev (h : WritesOnly P f) {c : Ctx} (hc : c.Clean) : (f c).dev = c.dev := by
  have hdev := congrArg Ctx.dev (h.withDev c c.dev hc hc)
  exact hdev

theorem clean (h : WritesOnly P f) {c : Ctx} (hc : c.Clean) : (f c).Clean := by rw [Ctx.Clean, h.dev hc]; exact hc

theorem unit (h : WritesOnly P f) {c : Ctx} (hc : c.Clean) (u : Nat) : (f c).unit u = c.unit u := by rw [Ctx.unit, h.dev hc]; rfl

protected theorem id : WritesOnly P fun c => c := ⟨fun _ _ => rfl, fun _ _ _ _ => rfl, fun _ _ _ _ => rfl⟩

theorem comp (hg : WritesOnly P g) (hf : WritesOnly P f) : WritesOnly P fun c => g (f c) where
  mem c hc := (hg.mem _ (hf.clean hc)).trans (hf.mem c hc)
  withDev c dev hc hd := by rw [hf.withDev c dev hc hd, hg.withDev _ dev (hf.clean hc) hd]
  byte c hc b hb := (hg.byte _ (hf.clean hc) b hb).trans (hf.byte c hc b hb)

/-- Work that begins with a look at memory. -/
theorem bind {α : Type} {look : Ctx → α} {f : α → Ctx → Ctx} (hl : ∀ c dev, look (c.withDev dev) = look c)
    (hf : ∀ c, WritesOnly P (f (look c))) : WritesOnly P fun c => f (look c) c where
  mem c hc := (hf c).mem c hc
  withDev c dev hc hd := by rw [hl, (hf c).withDev c dev hc hd]
  byte c hc := (hf c).byte c hc

theorem ite {p : Prop} [Decidable p] (hf : WritesOnly P f) (hg : WritesOnly P g) : WritesOnly P fun c => if p then f c else g c := by
  split
  · exact hf
  · exact hg

theorem foldl {α : Type} {ks : List α} {f : α → Ctx → Ctx} (h : ∀ k ∈ ks, WritesOnly P (f k)) :
    WritesOnly P fun c => ks.foldl (fun a k => f k a) c := by
  induction ks with
  | nil => exact .id
  | cons k ks ih => exact (ih fun j hj => h j (List.mem_cons_of_mem k hj)).comp (h k List.mem_cons_self)

theorem store (a : Nat) (l : List Byte) (h : ∀ b, a ≤ b → b < a + l.length → P b) : WritesOnly P (Machine.store a l) where
  mem c hc := by rw [store_clean a l hc, Ctx.write_mem]
  withDev c dev hc hd := by rw [store_clean a l hc, store_clean (c := c.withDev dev) a l hd, write_withDev]
  byte c hc b hb := by rw [store_clean a l hc, Ctx.byte_write, if_neg fun hin => hb (h b hin.1 hin.2)]

theorem storeNat (a n x : Nat) (h : ∀ b, a ≤ b → b < a + n → P b) : WritesOnly P (Machine.storeNat a n x) :=
  store a (toBytes n x) fun b hlo hhi => h b hlo (by rwa [length_toBytes] at hhi)

end WritesOnly

/-! ### The bytes a chain writes (R180, R188–R190) -/

theorem mul_elemBytes_one {f : Nat} (h : f ≠ 4) (n : Nat) : n * elemBytes f 1 = elemBytes f n := by
  unfold elemBytes elemBytes.fmtWidthOf
  split <;> omega

/-- A block of 32 elements has 66 bytes (R88). -/
theorem length_bsxToBytes (rtz : Bool) (e : Nat) {xs : List Ext} (h : xs.length = 32) : (bsxToBytes (bsxOfExt rtz e xs)).length = 66 := by
  simp [bsxToBytes, bsxOfExt, List.length_flatMap, Function.comp_def, h]

/-- The pieces of a list that they fit in are whole. -/
theorem length_of_mem_chunks {α : Type} {n k : Nat} {l p : List α} (h : n * k ≤ l.length) (hp : p ∈ chunks n k l) : p.length = n := by
  induction k generalizing l with
  | zero => cases hp
  | succ k ih =>
    rw [Nat.mul_succ] at h
    obtain rfl | hp := List.mem_cons.mp hp
    · rw [List.length_take]; omega
    · exact ih (by rw [List.length_drop]; omega) hp

theorem length_bsxRowBytes (rtz : Bool) (e : Nat) (xs : List Ext) : (bsxRowBytes rtz e xs).length = xs.length / 32 * 66 := by
  have hblock : ∀ p ∈ chunks 32 (xs.length / 32) xs, ((bsxToBytes (bsxOfExt rtz e p)).map (BitVec.ofNat 8)).length = 66 := fun p hp => by
    rw [List.length_map, length_bsxToBytes rtz e (length_of_mem_chunks (by omega) hp)]
  rw [bsxRowBytes, List.length_flatMap, List.map_congr_left hblock, List.map_const', List.sum_replicate, length_chunks]
  rfl

/-- A row of codes in D's format has the bytes of a row of as many elements. -/
theorem length_destRow (d : Desc) (codes : List Nat) : (destRow d codes).length = rowBytes (vD d).fmt codes.length := by
  by_cases h4 : (vD d).fmt = 4
  · simp only [destRow, rowBytes, if_pos h4, length_mxRowBytes, List.length_map]
  · by_cases h8 : (vD d).fmt = 8
    · simp only [destRow, rowBytes, if_neg h4, if_pos h8, length_bsxRowBytes, List.length_map]
    · simp only [destRow, rowBytes, if_neg h4, if_neg h8, length_elemRowBytes, List.length_map, mul_elemBytes_one h4]

/-- A reduction that gives pairs has D in a format of four bytes (R192, R193). -/
theorem chainOk_pairs {d : Desc} (h : chainOk d = true) (hp : lastOp d = 0x33 ∨ lastOp d = 0x34) : (vD d).fmt = 0 ∨ (vD d).fmt = 7 := by
  simp only [chainOk, Bool.and_eq_true, Bool.or_eq_true, bne_iff_ne] at h
  obtain ⟨⟨-, h33⟩, h34⟩ := h
  obtain hp | hp := hp
  · have hfmt := h33.resolve_left (not_not_intro hp)
    split at hfmt
    · exact .inr (beq_iff_eq.mp hfmt)
    · exact .inl (beq_iff_eq.mp hfmt)
  · exact .inl (beq_iff_eq.mp (h34.resolve_left (not_not_intro hp)))

/-- A result record has the bytes of its size. -/
theorem length_recordOut {d : Desc} (h : chainOk d = true) (r : Nat × Int) : (recordOut d r).length = recordSize d := by
  have helem (hp : lastOp d = 0x33 ∨ lastOp d = 0x34) : elemBytes (vD d).fmt 1 = 4 := by
    obtain hf | hf := chainOk_pairs h hp <;> rw [hf] <;> rfl
  unfold recordOut recordSize
  split
  · next hp => simp [hp, helem (.inl hp)]
  · next hp => simp [hp, helem (.inr hp)]
  · next h33 h34 => simp [show lastOp d ≠ 0x33 from h33, show lastOp d ≠ 0x34 from h34]

/-- The results of a chain that ends in a reduction. -/
def chainResults (d : Desc) (rows : List (List Nat)) (old : List (Nat × Int)) : List (Nat × Int) :=
  let lines := if vAxis d = 0 then rows else (List.range (vCols d)).map (fun j => rows.map (fun r => r.getD j 0))
  (List.range lines.length).map (fun i =>
    let n := reduceLine d (lines.getD i [])
    if vAcc d then mergeRecord d (old.getD i (0, 0)) n else n)

theorem length_chainResults {d : Desc} {rows : List (List Nat)} (old : List (Nat × Int)) (h : rows.length = vRows d) :
    (chainResults d rows old).length = lineCount d := by
  rw [chainResults, List.length_map, List.length_range, lineCount, ← h]
  split
  · rfl
  · rw [List.length_map, List.length_range]

/-- The pieces a chain writes to D: their offsets and bytes. -/
def chainParts (d : Desc) (rows : List (List Nat)) (old : List (Nat × Int)) : List (Nat × List Byte) :=
  if isReduction (lastOp d) then
    [((vD d).off, if (vD d).fmt = 4 || (vD d).fmt = 8 then destRow d ((chainResults d rows old).map (fun r => r.1))
      else (chainResults d rows old).flatMap (recordOut d))]
  else (List.range rows.length).map (fun i => ((vD d).off + i * (vD d).stride, destRow d (rows.getD i [])))

theorem chainWrite_parts (u : Nat) (d : Desc) (rows : List (List Nat)) (old : List (Nat × Int)) (c : Ctx) :
    chainWrite u d rows old c = (chainParts d rows old).foldl (fun a p => store (umBase u + p.1) p.2 a) c := by
  unfold chainWrite chainParts
  split
  · rw [List.foldl_cons, List.foldl_nil, ← apply_ite (fun l => store (umBase u + (vD d).off) l c)]
    rfl
  · rw [List.foldl_map]
    simp only [Nat.add_assoc]

/-- Each piece lies where D's byte ranges do. -/
theorem chainParts_ranges {d : Desc} {rows : List (List Nat)} (old : List (Nat × Int)) (hok : chainOk d = true)
    (hn : rows.length = vRows d) (hm : ∀ r ∈ rows, r.length = vCols d) :
    (chainParts d rows old).map (fun p => (p.1, p.2.length)) = destRanges d := by
  unfold chainParts destRanges
  split
  · rw [List.map_cons, List.map_nil]
    congr 2
    by_cases h : (vD d).fmt = 4 ∨ (vD d).fmt = 8
    · simp [h, length_destRow, length_chainResults old hn]
    · simp [h, List.length_flatMap, length_recordOut hok, length_chainResults old hn]
  · rw [List.map_map, hn]
    refine List.map_congr_left fun i hi => ?_
    have hlt : i < rows.length := hn ▸ List.mem_range.mp hi
    simp [length_destRow, List.getD_eq_getElem?_getD, hlt, hm _ (List.getElem_mem hlt)]

theorem chainWrite_writesOnly (u : Nat) (d : Desc) (rows : List (List Nat)) (old : List (Nat × Int)) :
    WritesOnly (fun b => ∃ p ∈ (chainParts d rows old).map (fun p => (p.1, p.2.length)), umBase u + p.1 ≤ b ∧ b < umBase u + p.1 + p.2)
      (chainWrite u d rows old) := by
  rw [funext (chainWrite_parts u d rows old)]
  exact .foldl fun p hp => .store _ _ fun b hlo hhi => ⟨_, List.mem_map_of_mem hp, hlo, hhi⟩

end Sys2Proof.Machine

namespace Sys2Proof.Machine

/-! ### Lane-cycles and the governor (R594, log entry 120) -/

/-- Some of the lane-cycles of a command that has just started issue and count. -/
theorem issueSome_started {c : Ctx} {u i : Nat} {e : Entry} (f : Entry → Entry) (h : (c.unit u).ve.entries[i]? = some e) :
    ∃ k, k ≤ (f e).lanes ∧ issueSome u i (c.updEntry u 1 i f) =
      (govCount u k (c.draw 1).2).updUnit u (UnitSt.updEntry 1 i (fun x => { f x with lanes := (f x).lanes - k })) := by
  have hentry : ((c.updEntry u 1 i f).unit u).ve.entries[i]? = some (f e) := by
    rw [updEntry_eq, updUnit_same]
    exact getElem?_updAt_same f h
  have hle (n : Nat) : n % (min (f e).lanes (256 * veLanes u) + 1) ≤ (f e).lanes :=
    (Nat.le_of_lt_succ (Nat.mod_lt n (Nat.succ_pos _))).trans (Nat.min_le_left ..)
  have hmerge (k : Nat) : govCount u k (((c.updEntry u 1 i f).draw 1).2.updEntry u 1 i (fun x => { x with lanes := x.lanes - k })) =
      (govCount u k (c.draw 1).2).updEntry u 1 i (fun x => { f x with lanes := (f x).lanes - k }) :=
    updEntry_updEntry (govCount u k (c.draw 1).2) u 1 i f _
  simp only [issueSome, hentry]
  split
  · exact ⟨_, (Nat.sub_le _ _).trans (hle _), hmerge _⟩
  · exact ⟨_, hle _, hmerge _⟩

/-- A command that writes memory, changes one unit and counts `k` lane-cycles in its region's governor. -/
theorem completes_updUnit_gov {i : Instr} {s : State} {op : Ctx → Ctx} {u k n : Nat} {c : Ctx} {f : UnitSt → UnitSt} (hw : i.wf = true)
    (he : exec i s = perform i s op) (hop : op s.ctx = c.updUnit u f) (hdev : c.dev = { (govCount u k s.ctx).dev with fresh := n }) :
    Completes i s fun t => Wrote s c t ∧ OnlyUnitGov u s t ∧
      (Tab.get {} t.dev.gov (regionOf u)).count = (Tab.get {} s.dev.gov (regionOf u)).count + k ∧
      t.ctx.unit u = f (s.ctx.unit u) := by
  have hunit (v : Nat) : c.unit v = s.ctx.unit v := by rw [Ctx.unit, hdev]; rfl
  have hd : (s.run op).dev = { (govCount u k s.ctx).dev with fresh := n, units := (s.run op).dev.units } := by
    rw [State.run_dev, hop, Ctx.updUnit, Ctx.setUnit, hdev]
  refine .of_run op hw he ⟨.of_log (by rw [hop]; rfl), ⟨?dev, fun v hv => ?others, fun r hr => ?govs⟩, ?gov, ?unit⟩
  case dev => rw [hd]; rfl
  case others => rw [State.run_at_unit, hop, updUnit_other _ _ hv, hunit]
  case govs => rw [hd]; exact govCount_other u k s.ctx hr
  case gov => rw [hd]; exact congrArg Gov.count (Tab.get_set_same ..)
  case unit => rw [State.run_at_unit, hop, updUnit_same, hunit]

/-! ### Chains (R172–R196) -/

/-- Entry of a chain that is under way, with `n` lane-cycles still to issue. -/
def chainStarted (s : State) (u : Nat) (d : Desc) (n : Nat) (x : Entry) : Entry :=
  { x with
    started := true
    pos := if chainRing d then 0 else vRows d
    ringNext := (Tab.get {} (s.ctx.unit u).rings ((vSlot d 0).off / 2 ^ 18)).released
    rows := if chainRing d then [] else (List.range (vRows d)).map (fun r => chainRow s.ctx u d r [])
    old := oldRecords s.ctx u d
    lanes := n
    poison := false }

/-- The lane-cycles of a chain that takes no ring's rows. -/
def chainLanes (d : Desc) : Nat := if chainRing d then 0 else vRows d * vCols d * chainCost d

theorem veChainOp_starts {s : State} {u i : Nat} {e : Entry} (h : startable s.ctx u 1 0x20 = some (i, e)) (hg : govHolds s.ctx u = false)
    (hok : chainOk e.desc = true) (hwin : chainWindow u e.desc = none) (hc : Clean s) :
    veChainOp u s.ctx = issueSome u i (s.ctx.updEntry u 1 i (chainStarted s u e.desc (chainLanes e.desc))) := by
  have hclean := State.clean_ctx hc
  simp only [veChainOp, h, hg, hok, hwin, readAll, foldl_eccRead_clean _ hclean, any_poisonAt_clean _ hclean, Bool.not_true, Bool.false_eq_true,
    if_false]
  rfl

/-- A command that ends well leaves with its signal or waits for its record, its writes being work on memory alone and its lane-cycles counted. -/
theorem completes_veFinish {i : Instr} {s : State} {op : Ctx → Ctx} {P : Nat → Prop} {work : Ctx → Ctx} {u j detail lanes : Nat} {e : Entry}
    (hw : i.wf = true) (he : exec i s = perform i s op) (hc : Clean s) (hwork : WritesOnly P work)
    (hop : op s.ctx = finish u 1 j 0 detail (work (govCount u lanes s.ctx))) (hj : (s.ctx.unit u).ve.entries[j]? = some e) :
    Completes i s fun t => (OnlyUnitGov u s t ∧
      (Tab.get {} t.dev.gov (regionOf u)).count = (Tab.get {} s.dev.gov (regionOf u)).count + lanes ∧
      t.ctx.unit u = { s.ctx.unit u with
        evts := doneEvts s u e, ve := { (s.ctx.unit u).ve with entries := doneEntries s u 1 j e 0 detail } }) ∧ Wrote s (work s.ctx) t := by
  have hclean := State.clean_ctx hc
  have hgov : (govCount u lanes s.ctx).Clean := govCount_clean hclean
  have hunit : (work (govCount u lanes s.ctx)).unit u = s.ctx.unit u := hwork.unit hgov u
  rw [finish_done (s := s) detail (by rw [hunit]) (by rw [hunit]) (by rw [hunit]) hj] at hop
  have hlog := congrArg Ctx.log (hwork.withDev s.ctx (govCount u lanes s.ctx).dev hclean hgov)
  refine (completes_updUnit_gov (k := lanes) (n := s.dev.fresh) hw he hop (hwork.dev hgov)).imp fun t ⟨hwrote, honly, hcount, hx⟩ =>
    ⟨⟨honly, hcount, hx⟩, hwrote.trans (congrArg (applyLog s.mem) hlog)⟩

theorem veChainCompleteOp_done {s : State} {u i : Nat} {e : Entry}
    (h : findActive s.ctx u 1 0x20 (fun e => decide (vRows e.desc ≤ e.pos)) = some (i, e)) (hl : unitLive s.ctx u = true)
    (hp : e.poison = false) (hg : 0 < e.lanes → govHolds s.ctx u = false) :
    veChainCompleteOp u s.ctx = finish u 1 i 0 0 (chainWrite u e.desc e.rows e.old (govCount u e.lanes s.ctx)) := by
  have hgo : (decide (0 < e.lanes) && govHolds s.ctx u) = false := by
    by_cases h0 : 0 < e.lanes <;> simp [h0, hg]
  simp only [veChainCompleteOp, h, hl, hp, hgo, Bool.not_true, Bool.or_self, Bool.false_eq_true, if_false]

theorem completes_veChainComplete {s : State} {u i : Nat} {e : Entry} (hu : u < 512)
    (h : findActive s.ctx u 1 0x20 (fun e => decide (vRows e.desc ≤ e.pos)) = some (i, e)) (hl : unitLive s.ctx u = true)
    (hp : e.poison = false) (hg : 0 < e.lanes → govHolds s.ctx u = false) (hc : Clean s) :
    Completes (.veChainComplete u) s fun t => (OnlyUnitGov u s t ∧
      (Tab.get {} t.dev.gov (regionOf u)).count = (Tab.get {} s.dev.gov (regionOf u)).count + e.lanes ∧
      t.ctx.unit u = { s.ctx.unit u with
        evts := doneEvts s u e, ve := { (s.ctx.unit u).ve with entries := doneEntries s u 1 i e 0 0 } }) ∧
      Wrote s (chainWrite u e.desc e.rows e.old s.ctx) t := by
  obtain ⟨he, -⟩ := findActive_some h
  have hwf : (Instr.veChainComplete u).wf = true := decide_eq_true hu
  exact completes_veFinish hwf rfl hc (chainWrite_writesOnly u e.desc e.rows e.old) (veChainCompleteOp_done h hl hp hg) he

/-- Settles O21: a chain's start is one change of its entry and a count; its end writes its pieces, which lie in D's byte ranges. -/
theorem veChainWritesItsResultsToD : Obligations.VeChainWritesItsResultsToD := by
  unfold Obligations.VeChainWritesItsResultsToD
  refine ⟨fun s u i e hu h hg hok hwin hc => ?start, fun s u i e hu hl hp hc hok h hg => ?complete⟩
  case start =>
    obtain ⟨he, -⟩ := startable_some h
    have hwf : (Instr.veChain u).wf = true := decide_eq_true hu
    obtain ⟨k, hk, hissue⟩ := issueSome_started (c := s.ctx) (chainStarted s u e.desc (chainLanes e.desc)) he
    refine (completes_updUnit_gov (k := k) (n := s.dev.fresh + 1) hwf rfl ((veChainOp_starts h hg hok hwin hc).trans hissue) rfl).imp
      fun t ⟨hwrote, honly, hcount, hunit⟩ => ⟨hwrote.mem_eq rfl, honly, k, hk, hcount, hunit⟩
  case complete =>
    refine (completes_veChainComplete hu h hl hp hg hc).imp fun t ⟨⟨honly, _⟩, hwrote⟩ => ⟨honly, hwrote, fun hn hm a ha => ?_⟩
    have hwork := chainWrite_writesOnly u e.desc e.rows e.old
    have hclean := State.clean_ctx hc
    rw [hwrote.byte (hwork.mem _ hclean)]
    refine hwork.byte _ hclean a ?_
    rw [chainParts_ranges e.old hok hn hm]
    rintro ⟨p, hp, hlo, hhi⟩
    obtain hout | hout := ha p hp <;> omega

end Sys2Proof.Machine

namespace Sys2Proof.Machine

/-! ### The states of a winnow (R200–R203, Table 05-4) -/

/-- A byte of the states of a winnow's tokens. -/
def StateByte (u : Nat) (d : Desc) (b : Nat) : Prop :=
  umBase u + wState d ≤ b ∧ b < umBase u + wState d + wCols d * (16 + 8 * wK d)

/-- The record of a token lies among the states. -/
theorem stateByte_of_record {u j b : Nat} {d : Desc} (hj : j < wCols d) (hlo : winnowAddr u d j ≤ b)
    (hhi : b < winnowAddr u d j + (16 + 8 * wK d)) : StateByte u d b := by
  have hend : (j + 1) * (16 + 8 * wK d) ≤ wCols d * (16 + 8 * wK d) := Nat.mul_le_mul_right _ hj
  rw [Nat.succ_mul] at hend
  unfold winnowAddr at hlo hhi
  unfold StateByte
  omega

theorem length_placeSlot (y v : Nat) (l : List (Nat × Nat)) : (placeSlot y v l).length = l.length + 1 := by
  induction l with
  | nil => rfl
  | cons p l ih =>
    unfold placeSlot
    split
    · rfl
    · rw [List.length_cons, ih, List.length_cons]

/-- A state that fills at most `k` slots fills at most `k` after an element has entered. -/
theorem length_winnowInsert {k : Nat} (s0 x v : Nat) {w : WinnowSt} (hk : 1 ≤ k) (hw : w.slots.length = w.count) (hc : w.count ≤ k) :
    (winnowInsert k s0 x v w).slots.length ≤ k := by
  have hkept : w.slots.length ≤ k := hw.trans_le hc
  unfold winnowInsert
  split
  · exact hkept
  · dsimp only
    split
    · exact hkept
    · split
      · exact hkept
      · generalize hmax : (if extLt (f32 w.m) (f32 (mulF32 x s0)) then _ else _ : WinnowSt) = w1
        obtain ⟨hslots, hcount⟩ : w1.slots = w.slots ∧ w1.count = w.count := by
          rw [← hmax]; split <;> exact ⟨rfl, rfl⟩
        split
        · rw [length_placeSlot, hslots]; omega
        · split
          · rw [length_placeSlot, List.length_take]; omega
          · rwa [hslots]

theorem readWinnow_slots (c : Ctx) (u : Nat) (d : Desc) (j : Nat) :
    (readWinnow c u d j).slots.length = (readWinnow c u d j).count ∧ (readWinnow c u d j).count ≤ wK d :=
  ⟨by simp [readWinnow], Nat.min_le_right ..⟩

/-- A field of the header of a token's record. -/
theorem storeHeader_writesOnly {u j : Nat} {d : Desc} (hj : j < wCols d) (o n x : Nat) (h : o + n ≤ 16) :
    WritesOnly (StateByte u d) (storeNat (winnowAddr u d j + o) n x) :=
  .storeNat _ _ _ fun _ hlo hhi => stateByte_of_record hj (by omega) (by omega)

theorem writeWinnow_writesOnly {u j : Nat} {d : Desc} {w : WinnowSt} (hj : j < wCols d) (hw : w.slots.length ≤ wK d) :
    WritesOnly (StateByte u d) (writeWinnow u d j w) := by
  have hlen : (w.slots.flatMap (fun p => toBytes 4 p.1 ++ toBytes 4 p.2)).length = w.slots.length * 8 := by
    simp [List.length_flatMap]
  have hslots : WritesOnly (StateByte u d) (store (winnowAddr u d j + 16) (w.slots.flatMap (fun p => toBytes 4 p.1 ++ toBytes 4 p.2))) :=
    .store _ _ fun b hlo hhi => stateByte_of_record hj (by omega) (by omega)
  exact hslots.comp ((storeHeader_writesOnly hj 10 1 (b2n w.invalid) (by omega)).comp ((storeHeader_writesOnly hj 8 2 w.count (by omega)).comp
    ((storeHeader_writesOnly hj 4 4 w.s (by omega)).comp (storeHeader_writesOnly hj 0 4 w.m (by omega)))))

theorem winnowSetup_writesOnly (u : Nat) (d : Desc) : WritesOnly (StateByte u d) (winnowSetup u d) := by
  refine .foldl fun j hj => ?_
  replace hj := List.mem_range.mp hj
  refine .ite ((storeHeader_writesOnly hj 10 1 0 (by omega)).comp ((storeHeader_writesOnly hj 8 2 0 (by omega)).comp
    ((storeHeader_writesOnly hj 4 4 0 (by omega)).comp (storeHeader_writesOnly hj 0 4 negInf (by omega))))) ?_
  exact .bind (look := fun c => c.readNat (winnowAddr u d j + 8) 2)
    (f := fun n c => if wK d < n then storeNat (winnowAddr u d j + 8) 2 (wK d) c else c) (fun _ _ => rfl)
    fun c => .ite (storeHeader_writesOnly hj 8 2 _ (by omega)) .id

/-- The context after an input row has entered the states. -/
theorem winnowRow_fst (u : Nat) (d : Desc) (n : Nat) (xs : List Nat) (p : Ctx × Nat) : (winnowRow u d n xs p).1 =
    (List.range (wCols d)).foldl (fun a j =>
      writeWinnow u d j (winnowInsert (wK d) (wS0 d) (xs.getD j 0) (wIdx d + n) (readWinnow a u d j)) a) p.1 :=
  (List.foldl_hom Prod.fst fun _ _ => rfl).symm

/-- Row `n` of memory enters the states. -/
def takeRow (u : Nat) (d : Desc) (n : Nat) (c : Ctx) : Ctx := (winnowRow u d n (readElems c 0 (winnowSrc u d n) (wCols d)) (c, 0)).1

theorem takeRows_fst (u : Nat) (d : Desc) (ns : List Nat) (p : Ctx × Nat) :
    (ns.foldl (fun a n => winnowRow u d n (readElems a.1 0 (winnowSrc u d n) (wCols d)) a) p).1 =
      ns.foldl (fun a n => takeRow u d n a) p.1 := by
  refine (List.foldl_hom Prod.fst fun a n => ?_).symm
  rw [takeRow, winnowRow_fst, winnowRow_fst]

theorem readElems_withDev (c : Ctx) (dev : Dev) (f a n : Nat) : readElems (c.withDev dev) f a n = readElems c f a n := rfl

theorem takeRow_writesOnly {u : Nat} {d : Desc} (hk : 1 ≤ wK d) (n : Nat) : WritesOnly (StateByte u d) (takeRow u d n) := by
  have hrow (xs : List Nat) : WritesOnly (StateByte u d) fun c => (winnowRow u d n xs (c, 0)).1 := by
    simp only [winnowRow_fst]
    refine .foldl fun j hj => ?_
    refine .bind (look := fun c => winnowInsert (wK d) (wS0 d) (xs.getD j 0) (wIdx d + n) (readWinnow c u d j))
      (fun c dev => by rw [readWinnow_withDev]) fun c => ?_
    obtain ⟨hslots, hcount⟩ := readWinnow_slots c u d j
    exact writeWinnow_writesOnly (List.mem_range.mp hj) (length_winnowInsert _ _ _ hk hslots hcount)
  exact .bind (look := fun c => readElems c 0 (winnowSrc u d n) (wCols d)) (f := fun xs c => (winnowRow u d n xs (c, 0)).1)
    (fun c dev => readElems_withDev c dev ..) fun _ => hrow _

end Sys2Proof.Machine

namespace Sys2Proof.Machine

/-! ### A winnow starts (R198–R204) -/

/-- Memory after a winnow has set its states up and, unless it consumes a ring, taken its rows; the number counts the elements placed. -/
def winnowTaken (u : Nat) (d : Desc) (c : Ctx) : Ctx × Nat :=
  (List.range (wRows d)).foldl (fun a n => winnowRow u d n (readElems a.1 0 (winnowSrc u d n) (wCols d)) a) (winnowSetup u d c, 0)

theorem winnowTaken_writesOnly {d : Desc} (u : Nat) (hk : 1 ≤ wK d) : WritesOnly (StateByte u d) fun c => (winnowTaken u d c).1 := by
  simp only [winnowTaken, takeRows_fst]
  exact (WritesOnly.foldl fun n _ => takeRow_writesOnly hk n).comp (winnowSetup_writesOnly u d)

theorem winnowOk_slots {c : Ctx} {u : Nat} {d : Desc} (h : winnowOk c u d = true) : 1 ≤ wK d := by
  simp only [winnowOk, Bool.and_eq_true, decide_eq_true_eq, and_assoc] at h
  obtain ⟨-, -, -, -, -, -, -, -, -, -, hk, -⟩ := h
  exact hk

theorem OnlyUnit.onlyUnitGov {u : Nat} {s t : State} (h : OnlyUnit u s t) : OnlyUnitGov u s t := by
  obtain ⟨hdev, hothers⟩ := h
  exact ⟨by rw [hdev], hothers, fun r _ => by rw [hdev]⟩

section
variable {s : State} {u i : Nat} {e : Entry} (h : startable s.ctx u 1 0x21 = some (i, e)) (hg : govHolds s.ctx u = false)
  (hok : winnowOk s.ctx u e.desc = true) (hwide : isWide u = true)
  (hwin : outside (if (wSlot e.desc).kind = 1 then 2 ^ 20 else umSize)
    (if wRows e.desc = 0 then [] else slotRanges (wSlot e.desc) (wRows e.desc) (wCols e.desc)) = none) (hc : Clean s)
include h hg hok hwide hwin hc

theorem veWinnowOp_ring (hr : (wSlot e.desc).ring = true) : veWinnowOp u s.ctx =
    (winnowSetup u e.desc s.ctx).updUnit u (UnitSt.updEntry 1 i (fun x => { x with
      started := true, poison := false, ringNext := (Tab.get {} (s.ctx.unit u).rings ((wSlot e.desc).off / 2 ^ 18)).released })) := by
  have hclean := State.clean_ctx hc
  simp only [veWinnowOp, h, hg, hok, hwide, hwin, hr, readAll, foldl_eccRead_clean _ hclean, any_poisonAt_clean _ hclean, Bool.not_true,
    Bool.false_eq_true, if_false, if_true]
  rfl

theorem veWinnowOp_rows (hr : (wSlot e.desc).ring = false) : veWinnowOp u s.ctx =
    issueSome u i ((winnowTaken u e.desc s.ctx).1.updEntry u 1 i (fun x => { x with
      started := true, pos := wRows e.desc, poison := false,
      lanes := winnowLanes (3 * wRows e.desc * wCols e.desc + 8 * (winnowTaken u e.desc s.ctx).2) })) := by
  have hclean := State.clean_ctx hc
  simp only [veWinnowOp, h, hg, hok, hwide, hwin, hr, readAll, foldl_eccRead_clean _ hclean, any_poisonAt_clean _ hclean, Bool.not_true,
    Bool.false_eq_true, if_false]
  rfl

end

/-- Settles O22: a winnow's start writes its tokens' states alone and is one change of its entry and a count. -/
theorem veWinnowTakesItsRows : Obligations.VeWinnowTakesItsRows := by
  unfold Obligations.VeWinnowTakesItsRows
  intro s u i e hu h hg hok hwide hwin hc c1 c2
  obtain ⟨he, -⟩ := startable_some h
  replace he : (s.ctx.unit u).ve.entries[i]? = some e := he
  have hclean := State.clean_ctx hc
  have hwf : (Instr.veWinnow u).wf = true := decide_eq_true hu
  have hframe {work : Ctx → Ctx} {t : State} (hwork : WritesOnly (StateByte u e.desc) work) (hwrote : Wrote s (work s.ctx) t) (a : Nat)
      (ha : a < umBase u + wState e.desc ∨ umBase u + wState e.desc + wCols e.desc * (16 + 8 * wK e.desc) ≤ a) : t.byte a = s.byte a := by
    rw [hwrote.byte (hwork.mem _ hclean)]
    refine hwork.byte _ hclean a ?_
    unfold StateByte
    omega
  cases hr : (wSlot e.desc).ring
  case true =>
    have hwork := winnowSetup_writesOnly u e.desc
    refine (completes_updUnit hwf rfl (veWinnowOp_ring h hg hok hwide hwin hc hr) (hwork.dev hclean)).imp
      fun t ⟨hwrote, honly, hunit⟩ => ⟨hframe hwork hwrote, hwrote, honly.onlyUnitGov, ?_⟩
    rw [hunit]
    exact map_updAt_congr he rfl
  case false =>
    have hwork := winnowTaken_writesOnly u (winnowOk_slots hok)
    have hdev : (winnowTaken u e.desc s.ctx).1.dev = s.dev := hwork.dev hclean
    have hentry : ((winnowTaken u e.desc s.ctx).1.unit u).ve.entries[i]? = some e := by
      rw [show (winnowTaken u e.desc s.ctx).1.unit u = s.ctx.unit u from hwork.unit hclean u]; exact he
    obtain ⟨k, -, hissue⟩ := issueSome_started _ hentry
    refine (completes_updUnit_gov (k := k) (n := s.dev.fresh + 1) hwf rfl ((veWinnowOp_rows h hg hok hwide hwin hc hr).trans hissue) ?_).imp
      fun t ⟨hwrote, honly, _, hunit⟩ => ⟨hframe hwork hwrote, hwrote, honly, ?_⟩
    · simp only [govCount, Ctx.draw, hdev]; rfl
    · rw [hunit]
      exact map_updAt_congr he rfl

/-! ### Chains and winnows complete (R196, R204–R206) -/

/-- The seedbed entries of a winnow's tokens are written (R204). -/
def writeEntries (u : Nat) (d : Desc) (c : Ctx) : Ctx :=
  (List.range (wCols d)).foldl (fun a j => store (umBase u + wOut d + j * wOutStride d) (winnowEntry (wK d) (readWinnow a u d j)) a) c

theorem writeEntries_writesOnly (u : Nat) (d : Desc) : WritesOnly (fun _ => True) (writeEntries u d) :=
  .foldl fun j _ => .bind (look := fun c => winnowEntry (wK d) (readWinnow c u d j))
    (f := store (umBase u + wOut d + j * wOutStride d)) (fun c dev => by rw [readWinnow_withDev]) fun _ => .store _ _ fun _ _ _ => trivial

/-- What a winnow writes when it completes. -/
def winnowEnd (u : Nat) (d : Desc) (c : Ctx) : Ctx := if wFinish d then writeEntries u d c else c

/-- The lane-cycles that issue as a winnow completes. -/
def winnowEndLanes (e : Entry) : Nat :=
  winnowLanes e.lanes + (if wFinish e.desc then winnowLanes (wCols e.desc * (4 * wK e.desc + 8)) else 0)

theorem veWinnowCompleteOp_done {s : State} {u i : Nat} {e : Entry}
    (h : findActive s.ctx u 1 0x21 (fun e => decide (wRows e.desc ≤ e.pos)) = some (i, e)) (hl : unitLive s.ctx u = true)
    (hp : e.poison = false) (hg : 0 < winnowEndLanes e → govHolds s.ctx u = false) :
    veWinnowCompleteOp u s.ctx = finish u 1 i 0 ((List.range (wCols e.desc)).filter (fun j => (readWinnow s.ctx u e.desc j).invalid)).length
      (winnowEnd u e.desc (govCount u (winnowEndLanes e) s.ctx)) := by
  have hgo : (decide (0 < winnowEndLanes e) && govHolds s.ctx u) = false := by
    by_cases h0 : 0 < winnowEndLanes e <;> simp [h0, hg]
  unfold winnowEndLanes at *
  simp only [veWinnowCompleteOp, h, hl, hp, hgo, Bool.not_true, Bool.or_self, Bool.false_eq_true, if_false]
  rfl

/-- Settles O23: the end of a chain or winnow is its one piece of work on memory, one change of its unit and a count. -/
theorem veCommandsComplete : Obligations.VeCommandsComplete := by
  unfold Obligations.VeCommandsComplete
  intro s u i e hu hl hp hc done
  refine ⟨fun h hg => completes_veChainComplete hu h hl hp hg hc, fun h hg => ?_⟩
  obtain ⟨he, -⟩ := findActive_some h
  have hwf : (Instr.veWinnowComplete u).wf = true := decide_eq_true hu
  have hwork : WritesOnly (fun _ => True) (winnowEnd u e.desc) := (writeEntries_writesOnly u e.desc).ite .id
  refine (completes_veFinish hwf rfl hc hwork (veWinnowCompleteOp_done h hl hp hg) he).imp
    fun t ⟨hdone, hwrote⟩ => ⟨hdone, fun hf => ?_, fun hf => ?_⟩
  · exact hwrote.mem_eq (by rw [winnowEnd, hf]; rfl)
  · rwa [winnowEnd, if_pos hf] at hwrote

end Sys2Proof.Machine

/-! # Unit memory and LPDDR5X: proofs

The form of memory, patrol scrub, copy-on-write pages and the sheaf streamer, the resets of the package, the serving timers and moves of caches,
and start-up. -/

namespace Sys2Proof.Machine

/-! ### The form of memory -/

/-- Settles O6: a tick keeps memory, and a command puts the log of its meaning into it. -/
theorem stepKeepsMemoryCanonical : Obligations.StepKeepsMemoryCanonical := by
  unfold Obligations.StepKeepsMemoryCanonical
  intro s t hs h
  obtain ⟨-, ht⟩ | ⟨c, rest, -, ht⟩ := step_cases h
  · cases ht
    exact hs
  · obtain ⟨-, f, rfl⟩ := exec_next ht.symm
    exact State.wf_run f hs

/-! ### Patrol scrub (R234, R260) -/

/-- Where no codeword holds errors a check finds none. -/
theorem checkWord_of_no_errs {c : Ctx} (b : Nat) (h : c.dev.errs = []) : checkWord b c = c := by
  simp [checkWord, h]

/-- Work that changes nothing here changes nothing for a list of numbers. -/
theorem forAll_eq_self {σ : Type} {f : Nat → σ → σ} {x : σ} (h : ∀ k, f k x = x) (ks : List Nat) : forAll ks f x = x := by
  induction ks with
  | nil => rfl
  | cons k ks ih => exact (congrArg (forAll ks f) (h k)).trans ih

/-- A command that updates one die leaves memory, the other dies and every other part of the devices. -/
theorem completes_updDie {i : Instr} {s : State} {op : Ctx → Ctx} {d : Nat} {f : DieSt → DieSt} (hw : i.wf = true)
    (he : exec i s = perform i s op) (hop : op s.ctx = s.ctx.updDie d f) :
    Completes i s fun t => t.mem = s.mem ∧ t.dev = { s.dev with dies := t.dev.dies } ∧ (∀ e, e ≠ d → t.ctx.die e = s.ctx.die e) ∧
      t.ctx.die d = f (s.ctx.die d) := by
  refine .of_run op hw he ⟨State.run_mem_of_log s op (by rw [hop]; rfl), ?_, fun e hne => ?_, ?_⟩
  · rw [State.run_dev, hop]; rfl
  · rw [State.run_at_die, hop, updDie_other _ _ hne]
  · rw [State.run_at_die, hop, updDie_same]

theorem umPatrolScrubOp_clean {c : Ctx} {u : Nat} (he : c.dev.errs = []) (hr : (c.unit u).resetting = false) :
    umPatrolScrubOp u c = c.updUnit u (fun y => { y with scrub := ((c.unit u).scrub + 1) % 786432, scrubJoins := false }) := by
  simp only [umPatrolScrubOp, hr, checkWord_of_no_errs _ he, Bool.false_eq_true, if_false]

theorem lpPatrolScrubOp_clean {c : Ctx} {ch : Nat} (he : c.dev.errs = []) (ht : (c.die (ch / 32)).trained = true) :
    lpPatrolScrubOp ch c = c.updDie (ch / 32) (fun y =>
      { y with scrub := Tab.set y.scrub (ch % 32) ((Tab.get 0 (c.die (ch / 32)).scrub (ch % 32) + 1) % 2 ^ 24) }) := by
  simp only [lpPatrolScrubOp, ht, forAll_eq_self fun b => checkWord_of_no_errs b he, Bool.not_true, Bool.false_eq_true, if_false]

/-- Settles O28: without errors a scrubber's read is one change of its place in the round. -/
theorem patrolScrubVisitsEveryWord : Obligations.PatrolScrubVisitsEveryWord := by
  unfold Obligations.PatrolScrubVisitsEveryWord
  intro s u ch hu hch he
  have hum : (Instr.umPatrolScrub u).wf = true := decide_eq_true hu
  have hlp : (Instr.lpPatrolScrub ch).wf = true := decide_eq_true hch
  have hstarve : (Instr.scrubStarvation u).wf = true := decide_eq_true hu
  exact ⟨fun hr => completes_unit hum rfl (umPatrolScrubOp_clean he hr), fun ht => completes_updDie hlp rfl (lpPatrolScrubOp_clean he ht),
    completes_unit hstarve rfl rfl⟩

end Sys2Proof.Machine

namespace Sys2Proof.Machine

/-! ### Copy-on-write (R266, R267) -/

/-- A read of bytes that a write does not touch. -/
theorem Ctx.read_write_apart (c : Ctx) {a b n : Nat} {l : List Byte} (h : b + n ≤ a ∨ a + l.length ≤ b) :
    (c.write a l).read b n = c.read b n := by
  refine List.map_congr_left fun i hi => ?_
  rw [List.mem_range] at hi
  rw [Ctx.byte_write, if_neg (by omega)]

/-- Reading back exactly the bytes written, their number given. -/
theorem Ctx.read_write_length (c : Ctx) (a : Nat) {n : Nat} {l : List Byte} (h : l.length = n) : (c.write a l).read a n = l := by
  subst h; exact Ctx.read_write c a l

theorem State.length_bytes (s : State) (a n : Nat) : (s.bytes a n).length = n := by simp [State.bytes]

theorem updCow_read (c : Ctx) (f : CowSt → CowSt) (a n : Nat) : (c.updCow f).read a n = c.read a n := rfl

/-! The check of JOB_USE changes OVER_QUOTA alone. -/

theorem quotaCheck_mem (c : Ctx) : (quotaCheck c).mem = c.mem := rfl
theorem quotaCheck_log (c : Ctx) : (quotaCheck c).log = c.log := rfl
theorem quotaCheck_cow (c : Ctx) : (quotaCheck c).dev.cow = c.dev.cow := rfl
theorem quotaCheck_res (c : Ctx) : (quotaCheck c).dev.res = c.dev.res := rfl
theorem quotaCheck_outbox (c : Ctx) : (quotaCheck c).dev.outbox = c.dev.outbox := rfl
theorem quotaCheck_read (c : Ctx) (a n : Nat) : (quotaCheck c).read a n = c.read a n := rfl

/-- A copy of memory without errors is a plain write. -/
theorem copyLines_clean {c : Ctx} (src dst n : Nat) (hc : c.Clean) : copyLines src dst n c = c.write dst (c.read src n) := by
  have hgood : (wordsOf src n).filter (isPoisoned c) = [] := by simp [isPoisoned, hc.1]
  simp only [copyLines, eccRead_clean _ _ hc, store_clean _ _ hc, hgood, List.flatMap_nil]
  rfl

theorem copyPage_clean {c : Ctx} (src dst : Nat) (hc : c.Clean) : copyPage src dst c = c.write dst (c.read src 65536) :=
  copyLines_clean src dst 65536 hc

theorem State.bytes_eq_read (s : State) (a n : Nat) : s.bytes a n = s.ctx.read a n := rfl

/-- A page is not protected once it bears the current generation. -/
theorem protectedPage_of_gen {c : Ctx} {page : Nat} (h : Tab.get 0 c.dev.cow.pageGen page = c.dev.cow.gen) : protectedPage c page = false := by
  simp [protectedPage, h]

/-- A context in which no first write waits has none to release. -/
theorem releaseWrites_none {c : Ctx} (h : c.dev.cow.waiting = []) : releaseWrites c = c := by
  unfold releaseWrites
  split
  · rfl
  · simp only [h, List.filter_nil, List.foldl_nil, Ctx.updCow]
    rw [← h]

/-- The one write that waits lands where its pages are free. -/
theorem releaseWrites_one {c : Ctx} {a : Nat} {data : List Byte} (hs : c.dev.safe.safe = false) (hw : c.dev.cow.waiting = [(a, data)])
    (h : firstProtected c a (max 1 data.length) = none) :
    releaseWrites c = store a data (c.updCow (fun w => { w with waiting := [] })) := by
  simp [releaseWrites, hs, hw, h, Ctx.updCow]

section
variable {c : Ctx} {a : Nat} {data : List Byte} (hlen : a + data.length ≤ lpSize)
include hlen

theorem cowFirstWriteOp_lands (hc : c.Clean) (h : firstProtected c a data.length = none) : cowFirstWriteOp a data c = c.write a data := by
  simp only [cowFirstWriteOp, Nat.not_lt.mpr hlen, h, if_false, store_clean _ _ hc]

theorem cowFirstWriteOp_waits (h : firstProtected c a data.length ≠ none) (hw : c.dev.cow.waiting.contains (a, data) = false) :
    cowFirstWriteOp a data c = c.updCow (fun w => { w with waiting := w.waiting ++ [(a, data)] }) := by
  obtain ⟨page, hpage⟩ := Option.ne_none_iff_exists'.mp h
  simp only [cowFirstWriteOp, Nat.not_lt.mpr hlen, hpage, if_false, cowWait, hw, Bool.false_eq_true]

end

/-- LP_COW once a page has its copy at `dst`, and no first write waits any more. -/
def CowSt.copied (page dst : Nat) (w : CowSt) : CowSt :=
  { w with pageGen := Tab.set w.pageGen page w.gen, staged := Tab.set w.staged page dst, waiting := [] }

/-- The page that the one waiting write waits for is copied, which gives context `b`, and marked, and the write lands. -/
theorem cowPageCopiedOp_lands {c b : Ctx} {a page dst : Nat} {data : List Byte} (hb : copyPage (page * 65536) dst c = b) (hdev : b.dev = c.dev)
    (hc : c.Clean) (hd : data ≠ []) (hp : protectedPage c page = true) (hw : c.dev.cow.waiting = [(a, data)])
    (hpages : pagesOf a data.length = [page]) (hfree : stagingFree c = some dst) (hs : c.dev.safe.safe = false) :
    cowPageCopiedOp page c = quotaCheck ((b.updCow (CowSt.copied page dst)).write a data) := by
  have hmax : max 1 data.length = data.length := Nat.max_eq_right (List.length_pos_iff.mpr hd)
  let c1 := markPage page (b.updCow (fun w => { w with staged := Tab.set w.staged page dst }))
  have hmarked : protectedPage c1 page = false := protectedPage_of_gen (Tab.get_set_same _ _ _ _)
  have hrel : releaseWrites c1 = store a data (c1.updCow (fun w => { w with waiting := [] })) := by
    refine releaseWrites_one ?_ ?_ ?_
    · simpa [c1, markPage, Ctx.updCow, hdev] using hs
    · simpa [c1, markPage, Ctx.updCow, hdev] using hw
    · simp [firstProtected, hmax, hpages, hmarked]
  have hclean : (c1.updCow (fun w => { w with waiting := [] })).Clean := by simpa [c1, markPage, Ctx.updCow, Ctx.Clean, hdev] using hc
  have hop : cowPageCopiedOp page c = quotaCheck (releaseWrites c1) := by
    simp only [cowPageCopiedOp, hp, hw, hmax, hpages, hs, hfree, hb, List.any_cons, List.any_nil, List.contains_cons, beq_self_eq_true,
      Bool.true_or, Bool.not_true, Bool.or_self, Bool.false_eq_true, if_false]
    rfl
  rw [hop, hrel, store_clean _ _ hclean]
  rfl

/-- Settles O29: a write that lands is one write, one that waits an entry of LP_COW; a copied page is a write of its bytes, a change of LP_COW
and the write that waited. -/
theorem cowWriteWaitsForItsCopy : Obligations.CowWriteWaitsForItsCopy := by
  unfold Obligations.CowWriteWaitsForItsCopy
  intro s a page dst data hd hlen hc
  have hwf : (Instr.cowFirstWrite a data).wf = true := by
    have : a + data.length ≤ 2 ^ 48 := hlen.trans (by decide)
    simpa [Instr.wf, hd] using this
  refine ⟨fun h => ?lands, fun h hw => ?waits, fun hpage hp hw hpages hfree hs happart => ?copied⟩
  case lands =>
    refine (completes_becomes hwf rfl (cowFirstWriteOp_lands hlen (State.clean_ctx hc) h)).imp fun t ⟨hdev, hwrote⟩ =>
      ⟨hwrote.bytes_write, hwrote.keepsMemoryBut, hdev.trans (Ctx.write_dev ..)⟩
  case waits =>
    exact (completes_becomes hwf rfl (cowFirstWriteOp_waits hlen h hw)).imp fun t ⟨hdev, hwrote⟩ => ⟨hwrote.mem_eq rfl, hdev⟩
  case copied =>
    have hcopy := copyPage_clean (page * 65536) dst (State.clean_ctx hc)
    rw [← State.bytes_eq_read] at hcopy
    have hpl := State.length_bytes s (page * 65536) 65536
    generalize s.bytes (page * 65536) 65536 = old at hcopy hpl ⊢
    have hop := cowPageCopiedOp_lands hcopy (Ctx.write_dev ..) hc hd hp hw hpages hfree hs
    have hmem : (cowPageCopiedOp page s.ctx).mem = s.mem := by
      rw [hop, quotaCheck_mem, Ctx.write_mem, updCow_mem, Ctx.write_mem, State.ctx_mem]
    have hbytes (b n : Nat) : (s.run (cowPageCopiedOp page)).bytes b n =
        (((s.ctx.write dst old).updCow (CowSt.copied page dst)).write a data).read b n := by
      rw [State.bytes_run s (cowPageCopiedOp page) b n hmem, hop, quotaCheck_read]
    refine .of_run (cowPageCopiedOp page) (decide_eq_true hpage) rfl ⟨?_, ?_, ?_⟩
    · rw [hbytes, Ctx.read_write_apart _ happart, updCow_read]
      exact Ctx.read_write_length s.ctx dst hpl
    · rw [hbytes, Ctx.read_write]
    · rw [State.run_dev, hop, quotaCheck_cow, Ctx.write_dev, Ctx.updCow, Ctx.write_dev]
      rfl

end Sys2Proof.Machine

namespace Sys2Proof.Machine

/-! ### The sheaf streamer (R268, R465) -/

theorem updCow_updCow (c : Ctx) (f g : CowSt → CowSt) : (c.updCow f).updCow g = c.updCow (fun w => g (f w)) := rfl

/-- A page without poison lands in a slot by a plain write. -/
theorem landPage_clean {c : Ctx} (a hdr : Nat) (bytes : List Byte) (hc : c.Clean) : landPage a hdr bytes [] c = c.write a bytes :=
  store_clean a bytes hc

theorem poisonLines_clean {c : Ctx} (a : Nat) (hc : c.Clean) : poisonLines c a = [] := by
  simp [poisonLines, poisonAt_clean _ _ hc]

/-- Sending a flit keeps what a port's transmit queue is no part of. -/
theorem sendFlit_keeps {β : Type} {g : Ctx → β} (hp : ∀ c p f, g (c.updPort p f) = g c) (d vc dst : Nat) (l : List Byte) (c : Ctx) :
    g (sendFlit d vc dst l c) = g c := by
  unfold sendFlit
  dsimp only
  split
  · rfl
  · exact hp _ _ _

/-- The page to send next is the one in order where no page went out of order and no first write waits. -/
theorem nextPage_in_order {c : Ctx} {page : Nat} (hw : c.dev.cow.waiting = []) (he : c.dev.cow.early = [])
    (h : (scopePages c)[c.dev.cow.next]? = some page) : nextPage c = some c.dev.cow.next := by
  obtain ⟨hlt, -⟩ := List.getElem?_eq_some_iff.mp h
  have hfind : (List.range (scopePages c).length).find? (fun k => decide (c.dev.cow.next ≤ k) &&
      !c.dev.cow.early.contains ((scopePages c).getD k 0)) = some c.dev.cow.next := by
    rw [List.find?_range_eq_some]
    simpa [he] using hlt
  simp only [nextPage, awaitedPages, hw, List.flatMap_nil, List.find?_nil, ite_self, hfind]

/-- LP_COW and the sheaf's run once the streamer has sent `page`, `n` being the next of the set. -/
def CowSt.sentPage (page n : Nat) (w : CowSt) : CowSt :=
  { w with pageGen := Tab.set w.pageGen page w.gen, staged := Tab.del page w.staged, next := n }

def SheafRun.sentPage (r : SheafRun) : SheafRun := { r with sent := r.sent + 1 }

/-- The context after the streamer has sent `page` with its bytes `data`, and with the check of JOB_USE that follows. -/
def pageLanded (r : SheafRun) (page : Nat) (data : List Byte) (c : Ctx) : Ctx :=
  let k := c.dev.cow.next
  (((c.write (homeSlot c r.slot + recordOff k) (toBytes 8 (page * 65536) ++ data)).send
    (.sheafPage c.dev.res.buddy r.slot r.seq (k + 1) (page * 65536) data [])).updCow (CowSt.sentPage page (k + 1))).updRes (fun x =>
    { x with run := some r.sentPage })

def pageSent (r : SheafRun) (page : Nat) (data : List Byte) (c : Ctx) : Ctx := quotaCheck (pageLanded r page data c)

section
variable (r : SheafRun) (page : Nat) (data : List Byte) (c : Ctx)

theorem pageSent_mem : (pageSent r page data c).mem = c.mem := by
  simp only [pageSent, pageLanded, quotaCheck_mem, updRes_mem, updCow_mem, send_mem, Ctx.write_mem]

theorem pageSent_log : (pageSent r page data c).log =
    (c.write (homeSlot c r.slot + recordOff c.dev.cow.next) (toBytes 8 (page * 65536) ++ data)).log := by
  simp only [pageSent, pageLanded, quotaCheck_log, updRes_log, updCow_log, send_log]

theorem pageSent_cow : (pageSent r page data c).dev.cow = CowSt.sentPage page (c.dev.cow.next + 1) c.dev.cow := by
  simp only [pageSent, pageLanded, quotaCheck_cow, Ctx.updRes, Ctx.updCow, Ctx.send, Ctx.write_dev]

theorem pageSent_res : (pageSent r page data c).dev.res = { c.dev.res with run := some r.sentPage } := by
  simp only [pageSent, pageLanded, quotaCheck_res, Ctx.updRes, Ctx.updCow, Ctx.send, Ctx.write_dev]

theorem pageSent_outbox : (pageSent r page data c).dev.outbox =
    c.dev.outbox ++ [.sheafPage c.dev.res.buddy r.slot r.seq (c.dev.cow.next + 1) (page * 65536) data []] := by
  simp only [pageSent, pageLanded, quotaCheck_outbox, Ctx.updRes, Ctx.updCow, Ctx.send, Ctx.write_dev]

end

theorem sheafPageSendOp_sends {c : Ctx} {r : SheafRun} {page : Nat} {data : List Byte} (hr : c.dev.res.run = some r) (hs : r.sent < r.pages)
    (hl : furLive c 0 = true) (hc : c.Clean) (hw : c.dev.cow.waiting = []) (he : c.dev.cow.early = [])
    (h : (scopePages c)[c.dev.cow.next]? = some page) (hd : c.read (Tab.get (page * 65536) c.dev.cow.staged page) 65536 = data) :
    sheafPageSendOp c = if r.sent + 1 = r.pages then sendDigest r.sentPage (pageSent r page data c)
      else pageSent r page data c := by
  have hpage : (scopePages c).getD c.dev.cow.next 0 = page := by simp [h]
  have hawait : awaitedPages c = [] := by simp [awaitedPages, hw]
  have horder : (List.range c.dev.cow.next).all (fun i => decide (i < c.dev.cow.next) ||
      c.dev.cow.early.contains ((scopePages c).getD i 0)) = true := by
    simp +contextual [List.all_eq_true]
  have hrel : releaseWrites (pageLanded r page data c) = pageLanded r page data c := by
    refine releaseWrites_none ?_
    simpa [pageLanded, Ctx.updCow, Ctx.updRes, Ctx.send, CowSt.sentPage] using hw
  rw [pageSent, ← hrel]
  simp only [sheafPageSendOp, Ctx.res, hr, nextPage_in_order hw he h, hpage, hawait, Nat.not_le.mpr hs, hl, eccRead_clean _ _ hc, hd,
    poisonLines_clean _ hc, landPage_clean _ _ _ hc, List.contains_nil, decide_false, Bool.not_true, Bool.false_and, Bool.or_self,
    Bool.false_eq_true, if_false, horder, if_true, Ctx.write_dev]
  rfl

/-! The digest's message leaves the rest of the devices to the streamer. -/

theorem sendRes_keeps {β : Type} {g : Ctx → β} (hp : ∀ c p f, g (c.updPort p f) = g c) (hs : ∀ c m, g (c.send m) = g c) (pkg type : Nat)
    (m : ResMsg) (c : Ctx) : g (sendRes pkg type m c) = g c :=
  (sendFlit_keeps hp _ _ _ _ _).trans (hs _ _)

theorem sendDigest_keeps {β : Type} {g : Ctx → β} (hp : ∀ c p f, g (c.updPort p f) = g c) (hs : ∀ c m, g (c.send m) = g c)
    (hr : ∀ c f, g (c.updRes f) = g c) (r : SheafRun) (c : Ctx) : g (sendDigest r c) = g c := by
  unfold sendDigest
  dsimp only
  rw [hr, sendRes_keeps hp hs]

theorem sendRes_outbox (pkg type : Nat) (m : ResMsg) (c : Ctx) :
    (sendRes pkg type m c).dev.outbox = c.dev.outbox ++ [.resilience pkg type m] :=
  sendFlit_keeps (g := fun c => c.dev.outbox) (fun _ _ _ => rfl) 0 0 pkg (resBytes type m) (c.send (.resilience pkg type m))

theorem sendDigest_outbox (r : SheafRun) (c : Ctx) : ∃ m, (sendDigest r c).dev.outbox = c.dev.outbox ++ [m] := by
  simp only [sendDigest, Ctx.updRes, sendRes_outbox]
  exact ⟨_, rfl⟩

theorem sendDigest_run (r : SheafRun) (c : Ctx) : (sendDigest r c).dev.res.run =
    some { r with digest := sha384Nat (c.read (homeSlot c r.slot) (sheafBytes r.pages)), digestSent := true } := by
  simp only [sendDigest, Ctx.updRes]

/-- Settles O30: the page is the streamer's one write and one message; with the last page the digest's message follows. -/
theorem sheafStreamerSendsNextPage : Obligations.SheafStreamerSendsNextPage := by
  unfold Obligations.SheafStreamerSendsNextPage
  intro s r page hr hs hl hc hw he h src a
  have hlen := State.length_bytes s src 65536
  have hdata : s.ctx.read src 65536 = s.bytes src 65536 := (State.bytes_eq_read ..).symm
  generalize s.bytes src 65536 = data at hlen hdata ⊢
  have hop := sheafPageSendOp_sends (c := s.ctx) hr hs hl hc hw he h hdata
  have hkeep {β : Type} {g : Ctx → β} (hp : ∀ c p f, g (c.updPort p f) = g c) (hs : ∀ c m, g (c.send m) = g c)
      (hr : ∀ c f, g (c.updRes f) = g c) : g (sheafPageSendOp s.ctx) = g (pageSent r page data s.ctx) := by
    rw [hop]
    split
    · exact sendDigest_keeps hp hs hr _ _
    · rfl
  have hwrote : Wrote s (s.ctx.write a (toBytes 8 (page * 65536) ++ data)) (s.run sheafPageSendOp) :=
    .of_log ((hkeep (g := Ctx.log) (fun _ _ _ => rfl) (fun _ _ => rfl) (fun _ _ => rfl)).trans (pageSent_log ..))
  have hrec : (toBytes 8 (page * 65536) ++ data).length = 65544 := by rw [List.length_append, length_toBytes, hlen]
  have hbytes := hwrote.bytes_write
  have hkeeps := hwrote.keepsMemoryBut
  rw [hrec] at hbytes hkeeps
  refine .of_run sheafPageSendOp rfl rfl ⟨hbytes, hkeeps, ?cow, ?sent, fun hmore => ?more, fun hlast => ?last⟩
  case cow =>
    have hcow := hkeep (g := fun c => c.dev.cow) (fun _ _ _ => rfl) (fun _ _ => rfl) (fun _ _ => rfl)
    rw [State.run_dev, hcow, pageSent_cow]
    rfl
  case sent =>
    rw [State.run_dev, hop]
    split
    · obtain ⟨m, hm⟩ := sendDigest_outbox r.sentPage (pageSent r page data s.ctx)
      rw [hm, pageSent_outbox]
      exact List.mem_append_left _ (List.mem_append_right _ List.mem_cons_self)
    · rw [pageSent_outbox]
      exact List.mem_append_right _ List.mem_cons_self
  case more =>
    rw [State.run_dev, hop, if_neg (Nat.ne_of_lt hmore), pageSent_res]
    rfl
  case last =>
    have hmem : (sheafPageSendOp s.ctx).mem = s.mem := by
      rw [hkeep (g := Ctx.mem) (fun _ _ _ => rfl) (fun _ _ => rfl) (fun _ _ => rfl), pageSent_mem, State.ctx_mem]
    have hread (b n : Nat) : (s.run sheafPageSendOp).bytes b n = (pageSent r page data s.ctx).read b n := by
      rw [State.bytes_run s sheafPageSendOp b n hmem, hkeep (g := fun c => c.read b n) (fun _ _ _ => rfl) (fun _ _ => rfl) (fun _ _ => rfl)]
    have hhome : homeSlot (pageSent r page data s.ctx) r.slot = homeSlot s.ctx r.slot := by
      simp only [homeSlot, Ctx.res, pageSent_res, State.ctx_dev]
    rw [State.run_dev, hop, if_pos hlast, sendDigest_run]
    refine ⟨_, rfl, rfl, ?_⟩
    rw [hread, ← hhome]
    rfl

end Sys2Proof.Machine

/-! # The resets of the package: proofs -/

namespace Sys2Proof.Machine

/-! ### A cold reset (R250, R589, R648) -/

/-- The contents of every memory but the NVM are lost. -/
def LosesMemory (s t : State) : Prop :=
  (∀ a, nvmBase ≤ a → t.byte a = s.byte a) ∧
  ∀ a, (a < lpSize ∨ (umBase 0 ≤ a ∧ a < umBase 512) ∨ (trBase 0 ≤ a ∧ a < trBase 512) ∨ (coreRam 0 ≤ a ∧ a < coreRam 2094)) → t.byte a = 0

theorem coldReset_mem (c : Ctx) : (coldReset c).mem = c.mem := by simp only [coldReset, ramsZero, Ctx.zero_mem]

theorem coldReset_dev (c : Ctx) : (coldReset c).dev = { c.dev.cold with pins := pinsReleased c.dev.pins } := by
  simp only [coldReset, ramsZero, Ctx.zero_dev]

theorem coldReset_byte_nvm (c : Ctx) {a : Nat} (h : nvmBase ≤ a) : (coldReset c).byte a = c.byte a := by
  have hz : (coldReset c).byte a = _ := Ctx.zero_byte ..
  rw [hz]
  simp only [ramsZero, Ctx.zero_byte, nvmBase, bootWindow, queueRam, queueRamSize, umBase, lpSize, trBase, coreRam] at h ⊢
  iterate 6 rw [if_neg (by omega)]

theorem coldReset_byte_lost (c : Ctx) {a : Nat}
    (h : a < lpSize ∨ (umBase 0 ≤ a ∧ a < umBase 512) ∨ (trBase 0 ≤ a ∧ a < trBase 512) ∨ (coreRam 0 ≤ a ∧ a < coreRam 2094)) :
    (coldReset c).byte a = 0 := by
  have hz : (coldReset c).byte a = _ := Ctx.zero_byte ..
  rw [hz]
  simp only [ramsZero, Ctx.zero_byte, ← ite_or]
  refine if_pos ?_
  simp only [bootWindow, queueRam, queueRamSize, umBase, lpSize, trBase, coreRam] at h ⊢
  omega

/-- A command whose memory is that of a cold reset, from a context that has written nothing. -/
theorem run_losesMemory {s : State} {op : Ctx → Ctx} {c : Ctx} (hm : (op s.ctx).mem = s.mem)
    (hb : ∀ a, (op s.ctx).byte a = (coldReset c).byte a) (hc : ∀ a, c.byte a = s.byte a) : LosesMemory s (s.run op) := by
  refine ⟨fun a ha => ?_, fun a ha => ?_⟩
  · rw [State.byte_run' _ _ _ hm, hb, coldReset_byte_nvm c ha, hc]
  · rw [State.byte_run' _ _ _ hm, hb, coldReset_byte_lost c ha]

/-! ### A warm reset (R531, R649, Table 18-8) -/

/-- The units whose seedbeds a warm reset zeroes, and the context with them zeroed. -/
def seedbedsZeroed (c : Ctx) : Ctx := forAll (c.dev.units.map (fun p => p.1)) seedbedZero c

theorem seedbedsZeroed_mem (c : Ctx) : (seedbedsZeroed c).mem = c.mem :=
  forAll_keeps (g := Ctx.mem) (seedbedZero_keeps (fun _ _ _ => Ctx.zero_mem ..) fun _ _ => rfl) _ c

/-- The devices with no codeword marked. -/
def Dev.unmarked (d : Dev) : Dev := { d with poison := [], errs := [] }

/-- Zeroing seedbeds changes nothing of the devices but the poison and the errors of their words. -/
theorem seedbedsZeroed_dev (c : Ctx) :
    (seedbedsZeroed c).dev = { c.dev with poison := (seedbedsZeroed c).dev.poison, errs := (seedbedsZeroed c).dev.errs } := by
  have hkeep : (seedbedsZeroed c).dev.unmarked = c.dev.unmarked :=
    forAll_keeps (g := fun c => c.dev.unmarked) (seedbedZero_keeps (g := fun c => c.dev.unmarked) (fun _ _ _ => by rw [Ctx.zero_dev])
      fun _ _ => rfl) _ c
  exact congrArg (fun d : Dev => { d with poison := (seedbedsZeroed c).dev.poison, errs := (seedbedsZeroed c).dev.errs }) hkeep

/-- No seedbed lies in LPDDR5X. -/
theorem seedbedsZeroed_byte_lpddr (c : Ctx) {a : Nat} (h : a < lpSize) : (seedbedsZeroed c).byte a = c.byte a := by
  refine forAll_keeps (g := fun c => c.byte a) (fun u c => ?_) _ c
  rw [seedbedZero_byte, if_neg]
  simp only [seedbed, umBase, lpSize] at h ⊢
  omega

theorem warmReset_mem (c : Ctx) : (warmReset c).mem = c.mem := by
  have hz : (warmReset c).mem = (ramsZero (seedbedsZeroed c)).mem := rfl
  rw [hz, ramsZero, Ctx.zero_mem, Ctx.zero_mem, seedbedsZeroed_mem]

theorem warmReset_byte (c : Ctx) (a : Nat) : (warmReset c).byte a = (ramsZero (seedbedsZeroed c)).byte a := rfl

theorem warmReset_byte_lpddr (c : Ctx) {a : Nat} (h : a < lpSize) : (warmReset c).byte a = c.byte a := by
  rw [warmReset_byte, ramsZero, Ctx.zero_byte, Ctx.zero_byte, seedbedsZeroed_byte_lpddr c h]
  rw [if_neg (by simp only [trBase, lpSize] at *; omega), if_neg (by simp only [coreRam, lpSize] at *; omega)]

theorem warmReset_byte_rams (c : Ctx) {a : Nat} (h : (trBase 0 ≤ a ∧ a < trBase 512) ∨ (coreRam 0 ≤ a ∧ a < coreRam 2094)) :
    (warmReset c).byte a = 0 := by
  rw [warmReset_byte, ramsZero, Ctx.zero_byte, Ctx.zero_byte, ← ite_or]
  refine if_pos ?_
  simp only [trBase, coreRam] at h ⊢
  omega

theorem warmReset_dev (c : Ctx) : (warmReset c).dev =
    { c.dev.warm with pins := pinsReleased c.dev.pins, poison := (warmReset c).dev.poison, errs := (warmReset c).dev.errs } := by
  have hdev : (ramsZero (seedbedsZeroed c)).dev = (seedbedsZeroed c).dev := by rw [ramsZero, Ctx.zero_dev, Ctx.zero_dev]
  have hwarm : (warmReset c).dev =
      { (ramsZero (seedbedsZeroed c)).dev.warm with pins := pinsReleased (ramsZero (seedbedsZeroed c)).dev.pins } := rfl
  rw [hwarm, hdev, seedbedsZeroed_dev]
  rfl

/-! ### The reset inputs (R589, R623, R624) -/

theorem pulseStarts_long {pulse : Nat} (c : Ctx) (h : 100 ≤ pulse) : pulseStarts pulse c = (true, c) := by
  rw [pulseStarts, if_neg (by omega), if_neg (by omega)]

theorem pulseStarts_short {pulse : Nat} (c : Ctx) (h : pulse < 10) : pulseStarts pulse c = (false, c) := by
  rw [pulseStarts, if_pos h]

/-- A pulse of 10 to 99 cycles starts a reset or not, a free value. -/
theorem pulseStarts_free {pulse : Nat} (c : Ctx) (hlo : 10 ≤ pulse) (hhi : pulse < 100) :
    pulseStarts pulse c = (Config.freeBool c.dev.fresh, (c.draw 1).2) := by
  rw [pulseStarts, if_neg (by omega), if_pos hhi]
  rfl

section
variable {pulse : Nat} {c c1 : Ctx}

theorem coldRstOp_none (h : pulseStarts pulse c = (false, c1)) : coldRstOp pulse c = c1 := by
  simp only [coldRstOp, h, Bool.not_false, if_true]

theorem warmRstOp_none (h : pulseStarts pulse c = (false, c1)) : warmRstOp pulse c = c1 := by
  simp only [warmRstOp, h, Bool.not_false, Bool.true_or, if_true]

variable (h : pulseStarts pulse c = (true, c1))
include h

theorem coldRstOp_absorbed (hheld : c1.dev.pins.coldRst = true ∨ c1.dev.pins.pwrGood = false) :
    coldRstOp pulse c = c1.updPins (fun p => { p with coldRst := true }) := by
  have hor : (c1.dev.pins.coldRst || !c1.dev.pins.pwrGood) = true := by simpa using hheld
  simp only [coldRstOp, h, hor, Bool.not_true, Bool.false_eq_true, if_false, if_true]

theorem coldRstOp_resets (hcold : c1.dev.pins.coldRst = false) (hgood : c1.dev.pins.pwrGood = true) :
    coldRstOp pulse c = coldReset (c1.updPins (fun p => { p with coldRst := true })) := by
  simp only [coldRstOp, h, hcold, hgood, Bool.not_true, Bool.or_self, Bool.false_eq_true, if_false]

theorem warmRstOp_held (hs : c1.dev.safe.held = true) : warmRstOp pulse c = c1 := by
  simp only [warmRstOp, h, hs, Bool.or_true, if_true]

variable (hs : c1.dev.safe.held = false)
include hs

theorem warmRstOp_absorbed (hr : resetHeld c1 = true) : warmRstOp pulse c = c1.updPins (fun p => { p with warmRst := true }) := by
  simp only [warmRstOp, h, hs, hr, Bool.not_true, Bool.or_self, Bool.false_eq_true, if_false, if_true]

theorem warmRstOp_resets (hr : resetHeld c1 = false) : warmRstOp pulse c = warmReset (c1.updPins (fun p => { p with warmRst := true })) := by
  simp only [warmRstOp, h, hs, hr, Bool.not_true, Bool.or_self, Bool.false_eq_true, if_false]

end

theorem pwrGoodFallOp_resets {c : Ctx} (h : c.dev.pins.pwrGood = true) : pwrGoodFallOp c =
    forAll (List.range 4) (fun d a => a.updDie d (fun x => { x with thermal := false }))
      ((coldReset (c.updPins (fun p => { p with pwrGood := false, thermtrip := false }))).updSafe (fun s => { s with thermal := false })) := by
  simp only [pwrGoodFallOp, h, Bool.not_true, Bool.false_eq_true, if_false]

/-- A fall of PWR_GOOD keeps what the cold reset left of all but the comparators. -/
theorem pwrGoodFallOp_keeps {β : Type} {g : Ctx → β} (hd : ∀ c d f, g (c.updDie d f) = g c) (hs : ∀ c f, g (c.updSafe f) = g c) {c : Ctx}
    (h : c.dev.pins.pwrGood = true) :
    g (pwrGoodFallOp c) = g (coldReset (c.updPins (fun p => { p with pwrGood := false, thermtrip := false }))) := by
  rw [pwrGoodFallOp_resets h, forAll_keeps fun _ _ => hd _ _ _, hs]

/-! ### Stage 1 begins (R531, R623) -/

theorem irqRaise_keeps {β : Type} {g : Ctx → β} (hs : ∀ c f, g (c.updStw f) = g c) (hc : ∀ c n f, g (c.updCore n f) = g c) (b : Nat)
    (c : Ctx) : g (irqRaise b c) = g c := by
  unfold irqRaise
  dsimp only
  split
  · rw [forAll_keeps fun _ _ => hc _ _ _, hs]
  · exact hs c _

theorem msix_keeps {β : Type} {g : Ctx → β} (hm : ∀ c m, g (c.send m) = g c) (fn v : Nat) (c : Ctx) : g (msix fn v c) = g c := by
  unfold msix
  split
  · exact hm c _
  · rfl

/-- ALERT_N changes its pin, and raises its event at most. -/
theorem updAlert_keeps {β : Type} {g : Ctx → β} (hp : ∀ c b, g (c.updPins fun p => { p with alert := b }) = g c)
    (hs : ∀ c f, g (c.updStw f) = g c) (hc : ∀ c n f, g (c.updCore n f) = g c) (hm : ∀ c m, g (c.send m) = g c) (c : Ctx) :
    g (updAlert c) = g c := by
  unfold updAlert
  dsimp only
  split
  · rw [msix_keeps hm, irqRaise_keeps hs hc, hp]
  · exact hp c _

/-- Stage 1 begins with no more than its entry in the start-up's books, THERMTRIP_N and ALERT_N. -/
theorem stageOne_keeps {β : Type} {g : Ctx → β} (hp : ∀ c b, g (c.updPins fun p => { p with alert := b }) = g c)
    (ht : ∀ c, g (tripPin c) = g c) (hs : ∀ c f, g (c.updStw f) = g c) (hc : ∀ c n f, g (c.updCore n f) = g c)
    (hm : ∀ c m, g (c.send m) = g c) (c : Ctx) :
    g (stageOne c) = g (c.updBoot (fun b => { b with stage := 1, stageAt := c.dev.slow })) := by
  rw [stageOne, updAlert_keeps hp hs hc hm, ht]

section
variable (c : Ctx)

theorem stageOne_mem : (stageOne c).mem = c.mem :=
  stageOne_keeps (g := Ctx.mem) (fun _ _ => rfl) (fun _ => rfl) (fun _ _ => rfl) (fun _ _ _ => rfl) (fun _ _ => rfl) c

theorem stageOne_log : (stageOne c).log = c.log :=
  stageOne_keeps (g := Ctx.log) (fun _ _ => rfl) (fun _ => rfl) (fun _ _ => rfl) (fun _ _ _ => rfl) (fun _ _ => rfl) c

theorem stageOne_boot : (stageOne c).dev.boot = { c.dev.boot with stage := 1, stageAt := c.dev.slow } :=
  stageOne_keeps (g := fun c => c.dev.boot) (fun _ _ => rfl) (fun _ => rfl) (fun _ _ => rfl) (fun _ _ _ => rfl) (fun _ _ => rfl) c

theorem stageOne_epoch : (stageOne c).dev.epoch = c.dev.epoch :=
  stageOne_keeps (g := fun c => c.dev.epoch) (fun _ _ => rfl) (fun _ => rfl) (fun _ _ => rfl) (fun _ _ _ => rfl) (fun _ _ => rfl) c

/-- The reset inputs and PWR_GOOD stay as they are. -/
theorem stageOne_pins {g : Pins → Bool} (ha : ∀ p b, g { p with alert := b } = g p) (ht : ∀ p b, g { p with thermtrip := b } = g p) :
    g (stageOne c).dev.pins = g c.dev.pins :=
  stageOne_keeps (g := fun c => g c.dev.pins) (fun _ _ => ha _ _) (fun _ => ht _ _) (fun _ _ => rfl) (fun _ _ _ => rfl) (fun _ _ => rfl) c

end

/-! ### What the five commands complete with -/

/-- A command whose meaning is a cold reset of a context that has written nothing. -/
theorem completes_coldReset {i : Instr} {s : State} {op : Ctx → Ctx} {c : Ctx} (hw : i.wf = true) (he : exec i s = perform i s op)
    (hop : op s.ctx = coldReset c) (hm : c.mem = s.mem) (hl : c.log = []) :
    Completes i s fun t => LosesMemory s t ∧ t.dev = { c.dev.cold with pins := pinsReleased c.dev.pins } := by
  refine .of_run op hw he ⟨run_losesMemory (c := c) ?_ (fun a => by rw [hop]) fun a => ?_, ?_⟩
  · rw [hop, coldReset_mem, hm]
  · rw [Ctx.byte, hm, hl]; rfl
  · rw [State.run_dev, hop, coldReset_dev]

/-- A command whose meaning is a warm reset of a context that has written nothing. -/
theorem completes_warmReset {i : Instr} {s : State} {op : Ctx → Ctx} {c : Ctx} (hw : i.wf = true) (he : exec i s = perform i s op)
    (hop : op s.ctx = warmReset c) (hm : c.mem = s.mem) (hl : c.log = []) :
    Completes i s fun t => (∀ a, a < lpSize → t.byte a = s.byte a) ∧
      (∀ a, ((trBase 0 ≤ a ∧ a < trBase 512) ∨ (coreRam 0 ≤ a ∧ a < coreRam 2094)) → t.byte a = 0) ∧
      t.dev = { c.dev.warm with pins := pinsReleased c.dev.pins, poison := t.dev.poison, errs := t.dev.errs } := by
  have hmem : (op s.ctx).mem = s.mem := by rw [hop, warmReset_mem, hm]
  refine .of_run op hw he ⟨fun a ha => ?_, fun a ha => ?_, ?_⟩
  · rw [State.byte_run' _ _ _ hmem, hop, warmReset_byte_lpddr c ha, Ctx.byte, hm, hl]; rfl
  · rw [State.byte_run' _ _ _ hmem, hop, warmReset_byte_rams c ha]
  · rw [State.run_dev, hop]; exact warmReset_dev c

/-- A command whose meaning changes the devices alone. -/
theorem completes_dev {i : Instr} {s : State} {op : Ctx → Ctx} {dev : Dev} (hw : i.wf = true) (he : exec i s = perform i s op)
    (hop : op s.ctx = s.ctx.withDev dev) : Completes i s fun t => t.mem = s.mem ∧ t.dev = dev :=
  .of_run op hw he ⟨State.run_mem_of_log s op (by rw [hop]; rfl), by rw [State.run_dev, hop]; rfl⟩

section
variable {s : State}

theorem pwrGoodFall_resets (hg : s.dev.pins.pwrGood = true) : Completes .pwrGoodFall s fun t =>
    LosesMemory s t ∧ t.dev.pins.pwrGood = false ∧ t.dev.pins.thermtrip = false ∧ t.dev.boot = {} ∧ t.dev.colls = [] ∧ t.dev.units = [] := by
  have hpins := pwrGoodFallOp_keeps (c := s.ctx) (g := fun c => c.dev.pins) (fun _ _ _ => rfl) (fun _ _ => rfl) hg
  have hboot := pwrGoodFallOp_keeps (c := s.ctx) (g := fun c => c.dev.boot) (fun _ _ _ => rfl) (fun _ _ => rfl) hg
  have hcolls := pwrGoodFallOp_keeps (c := s.ctx) (g := fun c => c.dev.colls) (fun _ _ _ => rfl) (fun _ _ => rfl) hg
  have hunits := pwrGoodFallOp_keeps (c := s.ctx) (g := fun c => c.dev.units) (fun _ _ _ => rfl) (fun _ _ => rfl) hg
  have hbyte (a : Nat) := pwrGoodFallOp_keeps (c := s.ctx) (g := fun c => c.byte a) (fun _ _ _ => rfl) (fun _ _ => rfl) hg
  simp only [coldReset_dev] at hpins hboot hcolls hunits
  refine .of_run pwrGoodFallOp rfl rfl ⟨run_losesMemory ?_ hbyte fun _ => rfl, ?_, ?_, hboot, hcolls, hunits⟩
  · rw [pwrGoodFallOp_keeps (c := s.ctx) (g := Ctx.mem) (fun _ _ _ => rfl) (fun _ _ => rfl) hg, coldReset_mem]; rfl
  · rw [State.run_dev, hpins]; rfl
  · rw [State.run_dev, hpins]; rfl

theorem bootControlWarm_restarts {v : Nat} (hv : v < 2 ^ 32) (hb : bit v 0 = true) (hm : stwMgmtRuns s.ctx = true)
    (hr : resetHeld s.ctx = false) (hh : s.dev.safe.held = false) : Completes (.bootControlWarm v) s fun t =>
      Becomes s (stageOne (warmReset s.ctx)) t ∧ t.dev.boot.stage = 1 ∧ t.dev.epoch = s.dev.epoch ∧ ∀ a, a < lpSize → t.byte a = s.byte a := by
  have hop : bootControlOp v s.ctx = stageOne (warmReset s.ctx) := by simp [bootControlOp, hb, hm, hr, hh]
  have hmem : (bootControlOp v s.ctx).mem = s.mem := by rw [hop, stageOne_mem, warmReset_mem, State.ctx_mem]
  have hbyte (a : Nat) : (bootControlOp v s.ctx).byte a = (warmReset s.ctx).byte a := by
    rw [hop, Ctx.byte, stageOne_mem, stageOne_log, Ctx.byte]
  refine .of_run (bootControlOp v) (decide_eq_true hv) rfl ⟨.of_eq hop, ?_, ?_, fun a ha => ?_⟩
  · rw [State.run_dev, hop, stageOne_boot]
  · rw [State.run_dev, hop, stageOne_epoch, warmReset_dev]; rfl
  · rw [State.byte_run' _ _ _ hmem, hbyte, warmReset_byte_lpddr _ ha]; rfl

theorem resetRelease_starts (hr : resetHeld s.ctx = true) : Completes .resetRelease s fun t => t.mem = s.mem ∧ t.dev.pins.coldRst = false ∧
    t.dev.pins.warmRst = false ∧ t.dev.pins.pwrGood = true ∧ t.dev.boot = { s.dev.boot with stage := 1, stageAt := s.dev.slow } := by
  have hop : resetReleaseOp s.ctx = stageOne (s.ctx.updPins (fun p => { p with coldRst := false, warmRst := false, pwrGood := true })) := by
    simp [resetReleaseOp, hr]
  refine .of_run resetReleaseOp rfl rfl ⟨State.run_mem_of_log _ _ (by rw [hop, stageOne_log]; rfl), ?_, ?_, ?_, ?_⟩ <;>
    rw [State.run_dev, hop]
  · exact stageOne_pins (g := Pins.coldRst) _ (fun _ _ => rfl) fun _ _ => rfl
  · exact stageOne_pins (g := Pins.warmRst) _ (fun _ _ => rfl) fun _ _ => rfl
  · exact stageOne_pins (g := Pins.pwrGood) _ (fun _ _ => rfl) fun _ _ => rfl
  · exact stageOne_boot _

end

/-- Settles O54: each command is a cold or a warm reset, a change of the pins, or the beginning of stage 1. -/
theorem packageResetsClearAndKeep : Obligations.PackageResetsClearAndKeep := by
  unfold Obligations.PackageResetsClearAndKeep
  intro s pulse v hv p low lost warmed
  refine ⟨fun hp => ?long, fun hp i hi => ?short, fun hlo hhi => ?free, fun hg => ?power, fun hb hm hr hh => ?control, fun hr => ?release⟩
  case long =>
    have hgo := pulseStarts_long s.ctx hp
    refine ⟨fun hc hg => ?_, fun h => ?_, fun hs hr => ?_, fun hs hr => ?_, fun hs => ?_⟩
    · exact completes_coldReset rfl rfl (coldRstOp_resets hgo hc hg) rfl rfl
    · exact completes_dev rfl rfl (coldRstOp_absorbed hgo h)
    · exact completes_warmReset rfl rfl (warmRstOp_resets hgo hs hr) rfl rfl
    · exact completes_dev rfl rfl (warmRstOp_absorbed hgo hs hr)
    · exact completes_dev rfl rfl (warmRstOp_held hgo hs)
  case short =>
    have hgo := pulseStarts_short s.ctx hp
    simp only [List.mem_cons, List.not_mem_nil, or_false] at hi
    obtain rfl | rfl := hi
    · exact completes_dev rfl rfl (coldRstOp_none hgo)
    · exact completes_dev rfl rfl (warmRstOp_none hgo)
  case free =>
    have hgo := pulseStarts_free s.ctx hlo hhi
    refine ⟨fun i hi => ?_, fun hc hg => ?_⟩
    · by_cases hb : Config.freeBool s.dev.fresh = false
      · rw [State.ctx_dev, hb] at hgo
        simp only [List.mem_cons, List.not_mem_nil, or_false] at hi
        obtain rfl | rfl := hi
        · exact (completes_dev rfl rfl (coldRstOp_none hgo)).imp fun _ h _ => h
        · exact (completes_dev rfl rfl (warmRstOp_none hgo)).imp fun _ h _ => h
      · simp only [List.mem_cons, List.not_mem_nil, or_false] at hi
        obtain rfl | rfl := hi
        · exact .of_run (coldRstOp pulse) rfl rfl fun h => absurd h hb
        · exact .of_run (warmRstOp pulse) rfl rfl fun h => absurd h hb
    · by_cases hb : Config.freeBool s.dev.fresh = true
      · rw [State.ctx_dev, hb] at hgo
        exact (completes_coldReset rfl rfl (coldRstOp_resets hgo hc hg) rfl rfl).imp fun _ h _ => h.1
      · exact .of_run (coldRstOp pulse) rfl rfl fun h => absurd h hb
  case power =>
    refine (pwrGoodFall_resets hg).imp fun t ⟨hlost, hgood, htrip, hboot, hcolls, hunits⟩ => ⟨hlost, hgood, htrip, hboot, hcolls, hunits, ?_⟩
    simp [outputs, hgood]
  case control => exact bootControlWarm_restarts hv hb hm hr hh
  case release => exact resetRelease_starts hr

end Sys2Proof.Machine

/-! # What reading a codeword with errors leaves as it is

A codeword that is read can be corrected or poisoned, either an event of its memory, which can take a unit, a port, a die or the package out of
work (R254–R257, R484–R498). None of it sets the slow clock or the image slot in use. -/

namespace Sys2Proof.Machine

/-- The slow clock's count and the image slot in use. -/
def Ctx.clockSlot (c : Ctx) : Nat × Nat := (c.dev.slow, c.dev.boot.slot)

theorem clockSlot_ite {p : Prop} [Decidable p] {x y c : Ctx} (hx : x.clockSlot = c.clockSlot) (hy : y.clockSlot = c.clockSlot) :
    (if p then x else y).clockSlot = c.clockSlot := by split <;> assumption

/-- The tables of masters are apart from the clock and the slot. -/
theorem masters_clockSlot (c : Ctx) (units : Tab UnitSt) (cores : Tab CoreSt) (clusters : Tab ClusterSt) (gov : Tab Gov) :
    ({ c with dev := { c.dev with units := units, cores := cores, clusters := clusters, gov := gov } } : Ctx).clockSlot = c.clockSlot := rfl

theorem updBoot_clockSlot (c : Ctx) {f : BootSt → BootSt} (hf : ∀ b, (f b).slot = b.slot) : (c.updBoot f).clockSlot = c.clockSlot :=
  congrArg (Prod.mk c.dev.slow) (hf c.dev.boot)

theorem updDie_clockSlot (c : Ctx) (d : Nat) (f : DieSt → DieSt) : (c.updDie d f).clockSlot = c.clockSlot := rfl
theorem write_clockSlot (c : Ctx) (a : Nat) (l : List Byte) : (c.write a l).clockSlot = c.clockSlot := by
  rw [Ctx.clockSlot, Ctx.write_dev, Ctx.clockSlot]
theorem updPins_clockSlot (c : Ctx) (f : Pins → Pins) : (c.updPins f).clockSlot = c.clockSlot := rfl

theorem updAlert_clockSlot (c : Ctx) : (updAlert c).clockSlot = c.clockSlot :=
  updAlert_keeps (g := Ctx.clockSlot) (fun _ _ => rfl) (fun _ _ => rfl) (fun _ _ _ => rfl) (fun _ _ => rfl) c

theorem endCause_clockSlot (code : Nat) (c : Ctx) : (endCause code c).clockSlot = c.clockSlot :=
  endCause_keeps (g := Ctx.clockSlot) (fun _ _ => rfl) code c

theorem disableFn_clockSlot (fn : DisFn) (c : Ctx) : (disableFn fn c).clockSlot = c.clockSlot :=
  disableFn_keeps (g := Ctx.clockSlot) (fun _ _ => rfl) fn c

theorem sendCaps_clockSlot (c : Ctx) : (sendCaps c).clockSlot = c.clockSlot := sendCaps_keeps (g := Ctx.clockSlot) (fun _ _ => rfl) c

theorem portDisable_clockSlot (late : Bool) (p : Nat) (c : Ctx) : (portDisable late p c).clockSlot = c.clockSlot := by
  unfold portDisable
  have hdown (f : Port → Port) : (disableThrough p (c.updPort p f)).clockSlot = c.clockSlot :=
    disableThrough_keeps (g := Ctx.clockSlot) (fun _ _ _ => rfl) p _
  dsimp only
  split
  · rfl
  · split
    · exact (disableFn_clockSlot _ _).trans (hdown _)
    · exact hdown _

theorem functionDisable_clockSlot (f : Nat) (c : Ctx) : (functionDisable f c).clockSlot = c.clockSlot := by
  refine (disableFn_clockSlot _ _).trans (forAll_keeps (g := Ctx.clockSlot) (fun _ _ => ?_) _ c)
  exact disableFn_clockSlot _ _

theorem unitDisable_clockSlot (u : Nat) (e : Defect) (c : Ctx) : (unitDisable u e c).clockSlot = c.clockSlot := by
  unfold unitDisable
  split
  · rfl
  split
  · rfl
  split
  · exact disableFn_clockSlot _ c
  · refine (forAll_keeps (g := Ctx.clockSlot) (fun _ _ => ?_) _ _).trans rfl
    rfl

theorem defectWrite_clockSlot {c c1 : Ctx} {e : Defect} (h : defectWrite c e = some c1) : c1.clockSlot = c.clockSlot := by
  unfold defectWrite at h
  dsimp only at h
  split at h
  · cases h
    exact write_clockSlot _ _ _
  · cases h

theorem defectAppend_clockSlot (e : Defect) (c : Ctx) : (defectAppend e c).1.clockSlot = c.clockSlot := by
  unfold defectAppend
  dsimp only
  split
  case h_1 c1 h =>
    split at h
    · cases h
    · exact (defectWrite_clockSlot h :)
  case h_2 => rfl

theorem zero_clockSlot (c : Ctx) (lo n : Nat) : (c.zero lo n).clockSlot = c.clockSlot := by simp only [Ctx.clockSlot, Ctx.zero_dev]

theorem chansFreeze_clockSlot (d : Nat) (c : Ctx) : (chansFreeze d c).clockSlot = c.clockSlot := rfl
theorem stepLost_clockSlot (c : Ctx) : (stepLost c).clockSlot = c.clockSlot := rfl
theorem freezeApp_clockSlot (source i : Nat) (c : Ctx) : (freezeApp source i c).clockSlot = c.clockSlot := rfl

theorem presetHold_clockSlot (d : Nat) (c : Ctx) : (presetHold d c).clockSlot = c.clockSlot := by
  refine (zero_clockSlot _ _ _).trans ((zero_clockSlot _ _ _).trans ((updBoot_clockSlot _ fun _ => ?_).trans
    ((masters_clockSlot _ _ _ _ _).trans ((chansFreeze_clockSlot _ _).trans (updDie_clockSlot ..)))))
  rfl

theorem presetStart_clockSlot (d : Nat) (c : Ctx) : (presetStart d c).clockSlot = c.clockSlot := by
  unfold presetStart
  dsimp only
  refine clockSlot_ite rfl ((sendCaps_clockSlot _).trans ?_)
  split
  · exact (stepLost_clockSlot _).trans (presetHold_clockSlot d c)
  · exact (endCause_clockSlot _ _).trans (presetHold_clockSlot d c)

theorem safeEnter_clockSlot (source : Nat) (c : Ctx) : (safeEnter source c).clockSlot = c.clockSlot := by
  unfold safeEnter
  split
  · rfl
  · dsimp only
    rw [endCause_clockSlot, sendCaps_clockSlot, updAlert_clockSlot, updPins_clockSlot]
    refine (forAll_keeps (g := Ctx.clockSlot) (fun _ _ => ?_) _ _).trans ((forAll_keeps (g := Ctx.clockSlot) (fun _ _ => ?_) _ _).trans rfl)
    · split
      · exact freezeApp_clockSlot _ _ _
      · rfl
    · rw [chansFreeze_clockSlot]
      split <;> rfl

/-- The actions of a level, when the event of a failed append keeps the clock and the slot. -/
theorem levelAction_clockSlot {again : Ctx → Ctx} (ha : ∀ c, (again c).clockSlot = c.clockSlot) (coll source : Nat)
    (idents : List Nat) (lvl : Nat) (c : Ctx) : (levelAction again coll source idents lvl c).clockSlot = c.clockSlot := by
  have hagain (e : Defect) (c : Ctx) :
      (if (defectAppend e c).2 then again (defectAppend e c).1 else (defectAppend e c).1).clockSlot = c.clockSlot := by
    split
    · exact (ha _).trans (defectAppend_clockSlot e c)
    · exact defectAppend_clockSlot e c
  unfold levelAction
  split
  · refine forAll_keeps (g := Ctx.clockSlot) (fun _ _ => ?_) _ c
    rfl
  · split
    · exact forAll_keeps (g := Ctx.clockSlot) (freezeApp_clockSlot 4) _ c
    · rfl
  · split
    · exact (portDisable_clockSlot _ _ _).trans (hagain _ c)
    split
    · exact forAll_keeps (g := Ctx.clockSlot) functionDisable_clockSlot _ c
    · refine forAll_keeps (g := Ctx.clockSlot) (fun u a => ?_) _ c
      split
      · rfl
      · exact (unitDisable_clockSlot _ _ _).trans (hagain _ a)
  · split
    · exact presetStart_clockSlot _ c
    · rfl
  · exact safeEnter_clockSlot _ c
  · rfl

theorem raiseTo_clockSlot {again : Ctx → Ctx} (ha : ∀ c, (again c).clockSlot = c.clockSlot) (coll source lvl : Nat) (news : List Nat)
    (c : Ctx) : (raiseTo again coll source lvl news c).clockSlot = c.clockSlot := by
  unfold raiseTo
  split
  · rfl
  · split
    · rfl
    · exact forAll_keeps (g := Ctx.clockSlot) (fun _ _ => levelAction_clockSlot ha _ _ _ _ _) _ _

theorem raiseN_clockSlot (fuel coll source cls : Nat) (idents : List Nat) (c : Ctx) :
    (raiseN fuel coll source cls idents c).clockSlot = c.clockSlot := by
  induction fuel generalizing coll source cls idents c with
  | zero => rfl
  | succ fuel ih =>
    have hsafe (c : Ctx) (b : Bool) (f : SafeSt → SafeSt) : (if b then c.updSafe f else c).clockSlot = c.clockSlot := by split <;> rfl
    unfold raiseN
    dsimp only
    split
    · rfl
    split
    · exact hsafe _ _ _
    · refine (updAlert_clockSlot _).trans ((raiseTo_clockSlot (fun a => ?_) _ _ _ _ _).trans (hsafe _ _ _))
      exact ih _ _ _ _ _

theorem eccEvent_clockSlot (base : Nat) (poisoned : Bool) (c : Ctx) : (eccEvent base poisoned c).clockSlot = c.clockSlot := by
  unfold eccEvent
  split
  · exact raiseN_clockSlot ..
  · exact raiseN_clockSlot ..

theorem setPoison_clockSlot (base : Nat) (c : Ctx) : (setPoison base c).clockSlot = c.clockSlot := by
  unfold setPoison
  split <;> rfl

theorem miscorrect_clockSlot (base : Nat) (diff : List (Nat × Nat)) (c : Ctx) : (miscorrect base diff c).clockSlot = c.clockSlot := by
  have hwritten : (diff.foldl (fun a p =>
      if p.1 < wordSize base then a.write (base + p.1) [a.byte (base + p.1) ^^^ BitVec.ofNat 8 p.2] else a) c).clockSlot = c.clockSlot := by
    induction diff generalizing c with
    | nil => rfl
    | cons p l ih =>
      exact (ih _).trans (clockSlot_ite (write_clockSlot _ _ _) rfl)
  unfold miscorrect
  dsimp only
  split
  · exact (setPoison_clockSlot _ _).trans hwritten
  · exact hwritten

theorem checkWord_clockSlot (base : Nat) (c : Ctx) : (checkWord base c).clockSlot = c.clockSlot := by
  have hbad (errs : Tab (List (Nat × Nat))) (p : Bool) :
      (eccEvent base p (setPoison base { c with dev := { c.dev with errs := errs } })).clockSlot = c.clockSlot :=
    (eccEvent_clockSlot _ _ _).trans (setPoison_clockSlot _ _)
  have hfixed (errs : Tab (List (Nat × Nat))) (b : Bool) (diff : List (Nat × Nat)) :
      (if b then { c with dev := { c.dev with errs := errs } } else miscorrect base diff { c with dev := { c.dev with errs := errs } }).clockSlot =
        c.clockSlot := clockSlot_ite rfl (miscorrect_clockSlot _ _ _)
  unfold checkWord
  dsimp only
  refine clockSlot_ite rfl ?_
  generalize rsFix _ _ (Tab.get [] c.dev.errs base) = fix
  cases fix with
  | some fix =>
    exact clockSlot_ite (hbad _ _) (clockSlot_ite (hfixed _ _ _) ((eccEvent_clockSlot _ _ _).trans (hfixed _ _ _)))
  | none =>
    dsimp only
    split
    next fix _ =>
      refine clockSlot_ite (hbad _ _) ?_
      cases fix.isEmpty
      · exact hbad _ _
      · exact setPoison_clockSlot _ _
    next => exact hbad _ _

theorem eccRead_clockSlot (a n : Nat) (c : Ctx) : (eccRead a n c).clockSlot = c.clockSlot := by
  unfold eccRead
  split
  · rfl
  · exact forAll_keeps (g := Ctx.clockSlot) checkWord_clockSlot _ c

theorem store_clockSlot (a : Nat) (l : List Byte) (c : Ctx) : (store a l c).clockSlot = c.clockSlot := by
  have hwrite (c : Ctx) (is : List Nat) : (is.foldl (fun x i =>
      if isPoisoned x (wordBase (a + i)) then x else x.write (a + i) [l.getD i 0]) c).clockSlot = c.clockSlot := by
    induction is generalizing c with
    | nil => rfl
    | cons i is ih =>
      exact (ih _).trans (clockSlot_ite rfl (write_clockSlot _ _ _))
  unfold store
  split
  · exact write_clockSlot _ _ _
  · refine (hwrite _ _).trans (forAll_keeps (g := Ctx.clockSlot) (fun b x => ?_) _ c)
    split
    · rfl
    · exact checkWord_clockSlot b x

end Sys2Proof.Machine

/-! # The stages of start-up: proofs -/

namespace Sys2Proof.Machine

/-! ### A start-up that stops (R509) -/

theorem bootStop_boot (code : Nat) (c : Ctx) : (bootStop code c).dev.boot = { c.dev.boot with stopped := true, error := code } := by
  rw [bootStop, sendCaps_keeps (g := fun c => c.dev.boot) fun _ _ => rfl]
  exact updAlert_keeps (g := fun c => c.dev.boot) (fun _ _ => rfl) (fun _ _ => rfl) (fun _ _ _ => rfl) (fun _ _ => rfl) _

/-- A command that stops start-up leaves its code in BOOT_ERROR. -/
theorem completes_bootStop {i : Instr} {s : State} {op : Ctx → Ctx} {code : Nat} {c : Ctx} (hw : i.wf = true) (he : exec i s = perform i s op)
    (hop : op s.ctx = bootStop code c) :
    Completes i s fun t => Becomes s (bootStop code c) t ∧ t.dev.boot.stopped = true ∧ t.dev.boot.error = code :=
  (completes_becomes hw he hop).imp fun t ht => ⟨ht, by rw [ht.1, bootStop_boot]; exact ⟨rfl, rfl⟩⟩

/-! ### Stages 1 and 2 (R515, R538) -/

section
variable {c : Ctx} (straps : List Nat) (slot response : Nat)

/-- The strap lands and the slot pins are read. -/
def strapsRead (c : Ctx) : Ctx :=
  c.updBoot (fun b => { b with straps := (List.range 8).map (fun i => (i, strapLevel (straps.getD i 0))), slotPin := slot })

theorem bootRomOp_reserved (ho : stageOpen c 1 = true) (hs : 3 ≤ strapLevel (straps.getD 0 0)) :
    bootRomOp straps slot response c = bootStop 1 (strapsRead straps slot c) := by
  simp only [bootRomOp, ho, hs, Bool.not_true, Bool.false_eq_true, if_true, if_false, strapsRead]

theorem bootRomOp_none (ho : stageOpen c 1 = true) (hs : ¬ 3 ≤ strapLevel (straps.getD 0 0)) (hd : chooseDir (strapsRead straps slot c) = none) :
    bootRomOp straps slot response c = stageBegin 2 (strapsRead straps slot c) := by
  simp only [strapsRead] at hd ⊢
  simp only [bootRomOp, ho, hs, hd, Bool.not_true, Bool.false_eq_true, if_false]

theorem bootRomOp_some {k : Nat} (ho : stageOpen c 1 = true) (hs : ¬ 3 ≤ strapLevel (straps.getD 0 0))
    (hd : chooseDir (strapsRead straps slot c) = some k) :
    bootRomOp straps slot response c =
      let c2 := (strapsRead straps slot c).updBoot (fun b => { b with dirCopy := k })
      stageBegin 2 (identityLoad (seedOf response c2) c2) := by
  simp only [strapsRead] at hd ⊢
  simp only [bootRomOp, ho, hs, hd, Bool.not_true, Bool.false_eq_true, if_false]

end

/-- Stage 1 derives the identity without a write, and leaves the slot pins as they were read. The device key is a number of its own before the
definition is taken apart: neither the elaborator nor the kernel may compute it. -/
theorem identityLoad_keeps (seed : Nat) (c : Ctx) :
    (identityLoad seed c).log = c.log ∧ (identityLoad seed c).dev.boot.slotPin = c.dev.boot.slotPin := by
  generalize h : identityLoad = f
  delta identityLoad at h
  replace h := congrFun (congrFun h seed) c
  generalize f seed c = c' at h ⊢
  extract_lets +onlyGivenNames b rootOk pufOk d at h
  generalize publicKey d = q at h
  obtain ⟨x, y⟩ := q
  dsimp -zeta only at h
  extract_lets +onlyGivenNames sec dev1 c1 cert ok at h
  generalize ofBytes (List.take 8 (toBytesBE 48 sec.deviceId)) = id8 at h
  clear_value sec cert ok
  have hlog := congrArg Ctx.log h
  replace h := congrArg Ctx.dev h
  dsimp only at h
  replace h := congrArg Dev.boot h
  dsimp only at h
  replace h := congrArg BootSt.slotPin h
  dsimp only at h
  exact ⟨hlog.symm, h.symm⟩

theorem selectImageOp_none {c : Ctx} (ho : stageOpen c 2 = true) (hd : chooseDir c = none) : selectImageOp c = bootStop 2 c := by
  simp only [selectImageOp, ho, hd, Bool.not_true, Bool.false_eq_true, if_false]

/-- The slot that stage 2 selects: the directory's FIRST where it passes, else the other. -/
def slotFound (c : Ctx) : Option Nat := [dirField c 36 1 % 2, 1 - dirField c 36 1 % 2].find? (slotPasses c)

/-- Stage 2 from the slot found, `c` with the clear records applied. -/
def slotTaken (c : Ctx) (n : Nat) : Ctx :=
  let c2 := startNumberRise c
  let c3 := idCertCheck (certInstall (imageSlot c2 n) 1 (certInstall (imageSlot c2 n) 0 c2))
  mgmtLoad (imageSlot c3 n) (slotLoad n ((checkSignature c (imageSlot c n)).getD 0) c3)

theorem selectImageOp_refused {c : Ctx} {k : Nat} (ho : stageOpen c 2 = true) (hd : chooseDir c = some k)
    (hf : slotFound (clearRecord (c.updBoot (fun b => { b with dirCopy := k }))) = none) :
    selectImageOp c = bootStop 3 (clearRecord (c.updBoot (fun b => { b with dirCopy := k }))) := by
  simp only [slotFound] at hf
  simp only [selectImageOp, ho, hd, hf, Bool.not_true, Bool.false_eq_true, if_false]

theorem selectImageOp_taken {c : Ctx} {k n : Nat} (ho : stageOpen c 2 = true) (hd : chooseDir c = some k)
    (hf : slotFound (clearRecord (c.updBoot (fun b => { b with dirCopy := k }))) = some n) :
    selectImageOp c = slotTaken (clearRecord (c.updBoot (fun b => { b with dirCopy := k }))) n := by
  simp only [slotFound] at hf
  simp only [selectImageOp, ho, hd, hf, Bool.not_true, Bool.false_eq_true, if_false, slotTaken]

/-! ### Stage 4: LPDDR5X training (R248) -/

/-- Training reaches no higher rate than the one it starts from. -/
theorem rateReach_le (limits : List Nat) (lo r : Nat) : rateReach limits lo r ≤ r := by
  induction r with
  | zero => exact le_rfl
  | succ r ih =>
    unfold rateReach
    split
    · exact le_rfl
    · exact ih.trans r.le_succ

/-- The rate of an image's MEMORY section is a code of three bits. -/
theorem loadMemory_rate_lt (b : Nat) (c : Ctx) : ((loadMemory b c).die 0).rate < 8 := by
  have h : ((loadMemory b c).die 0).rate = _ :=
    forAll_sets (g := fun c => (c.die 0).rate) (p := fun d => 0 = d) (z := bits (c.readNat (sectionAt c b 4 + 8 * 0) 8) 0 3)
      (fun d a => by
        by_cases hd : 0 = d
        · subst hd
          simp
        · simp [hd]) _ c
  rw [h, if_pos ⟨0, by decide, rfl⟩]
  exact Nat.mod_lt _ (by decide)

/-- The dies after training at rate `r`, with the good devices and the channels that trained. -/
def diesTrained (r : Nat) (good chOk : Nat → Bool) (c : Ctx) : Ctx :=
  forAll (List.range 4) (fun d a => a.updDie d (fun x => { x with
    rateReached := r, devices := maskOf 8 (fun k => good (8 * d + k)), chTrained := maskOf 32 (fun k => chOk (32 * d + k))
    trained := (List.range 32).all (fun k => chOk (32 * d + k)) })) c

section
variable (r : Nat) (good chOk : Nat → Bool) (c : Ctx)

theorem diesTrained_keeps {β : Type} {g : Ctx → β} (h : ∀ c d f, g (c.updDie d f) = g c) : g (diesTrained r good chOk c) = g c :=
  forAll_keeps (fun _ _ => h _ _ _) _ c

theorem diesTrained_trained {d : Nat} (hd : d < 4) :
    ((diesTrained r good chOk c).die d).trained = (List.range 32).all (fun k => chOk (32 * d + k)) := by
  have h : ((diesTrained r good chOk c).die d).trained = _ :=
    forAll_sets (g := fun c => (c.die d).trained) (p := fun k => d = k) (z := (List.range 32).all (fun k => chOk (32 * d + k)))
      (fun k a => by
        by_cases hk : d = k
        · subst hk
          simp
        · simp [hk]) _ c
  rw [h, if_pos ⟨d, List.mem_range.mpr hd, rfl⟩]

theorem diesTrained_chTrained {d : Nat} (hd : d < 4) :
    ((diesTrained r good chOk c).die d).chTrained = maskOf 32 (fun k => chOk (32 * d + k)) := by
  have h : ((diesTrained r good chOk c).die d).chTrained = _ :=
    forAll_sets (g := fun c => (c.die d).chTrained) (p := fun k => d = k) (z := maskOf 32 (fun k => chOk (32 * d + k)))
      (fun k a => by
        by_cases hk : d = k
        · subst hk
          simp
        · simp [hk]) _ c
  rw [h, if_pos ⟨d, List.mem_range.mpr hd, rfl⟩]

end

theorem loadMemory_keeps {β : Type} {g : Ctx → β} (h : ∀ c d f, g (c.updDie d f) = g c) (b : Nat) (c : Ctx) : g (loadMemory b c) = g c :=
  forAll_keeps (fun _ _ => h _ _ _) _ c

/-- With every device present and no channel failing below rate 8, all train and LPDDR5X is empty. -/
theorem lpddrTrainingOp_all {c : Ctx} {present failing : List Nat} (ho : stageOpen c 4 = true) (hs : c.dev.boot.sub = 1)
    (hp : ∀ k, k < 32 → present.getD k 0 = 128) (hf : ∀ k, k < 128 → 8 ≤ failing.getD k 0) :
    ∃ r good chOk, (∀ k, k < 128 → chOk k = true) ∧ lpddrTrainingOp present failing c =
      (lpddrZero (diesTrained r good chOk (loadMemory (imageSlot c c.dev.boot.slot) c))).updBoot (fun b => { b with sub := 2 }) := by
  let c1 := loadMemory (imageSlot c c.dev.boot.slot) c
  let good (dv : Nat) : Bool := present.getD dv 0 == 128
  let limits := (List.range 128).map (fun k => if good (k / 4) then failing.getD k 0 else 0)
  let r := rateReach limits (c1.die 0).rateMin (c1.die 0).rate
  let chOk (k : Nat) : Bool := decide (r < limits.getD k 0)
  have hgood : ∀ k, k < 32 → good k = true := fun k hk => by simp only [good, hp k hk, beq_self_eq_true]
  have hr : r < 8 := (rateReach_le ..).trans_lt (loadMemory_rate_lt ..)
  have hch : ∀ k, k < 128 → chOk k = true := fun k hk => by
    have hlim : limits.getD k 0 = failing.getD k 0 := by
      simp only [limits, List.getD_eq_getElem?_getD, List.getElem?_map, List.getElem?_range hk, Option.map_some, Option.getD_some,
        hgood (k / 4) (by omega), if_true]
    simp only [chOk, hlim, decide_eq_true_eq]
    exact hr.trans_le (hf k hk)
  have hdevs : (List.range 32).filter (fun dv => !good dv) = [] := by
    simp only [List.filter_eq_nil_iff, List.mem_range]
    exact fun k hk => by simp [hgood k hk]
  have hchs : (List.range 128).filter (fun k => good (k / 4) && !chOk k) = [] := by
    simp only [List.filter_eq_nil_iff, List.mem_range]
    exact fun k hk => by simp [hch k hk]
  refine ⟨r, good, chOk, hch, ?_⟩
  unfold lpddrTrainingOp
  rw [if_neg (by simp [ho, hs])]
  dsimp only
  rw [if_pos]
  · rfl
  · rw [hdevs, hchs]
    rfl

theorem lpddrZero_byte (c : Ctx) (a : Nat) : (lpddrZero c).byte a = if a < lpSize then 0 else c.byte a := by
  have h : (lpddrZero c).byte a = _ := Ctx.zero_byte ..
  rw [h]
  simp only [Nat.zero_le, Nat.zero_add, true_and]
  rfl

theorem lpddrZero_dev (c : Ctx) : (lpddrZero c).dev = { c.dev with
    poison := c.dev.poison.filter (fun a => decide (lpSize ≤ a)), errs := c.dev.errs.filter (fun p => decide (lpSize ≤ p.1))
    cow := { c.dev.cow with pageGen := [] } } := Ctx.zero_dev ..

theorem lpddrZero_at_die (c : Ctx) (d : Nat) : (lpddrZero c).die d = c.die d := by
  rw [Ctx.die, lpddrZero_dev, Ctx.die]
theorem lpddrZero_boot (c : Ctx) : (lpddrZero c).dev.boot = c.dev.boot := by rw [lpddrZero_dev]
theorem lpddrZero_mem (c : Ctx) : (lpddrZero c).mem = c.mem := Ctx.zero_mem ..

theorem lpddr5xTraining_completes {s : State} {present failing : List Nat} (hpl : present.length = 32) (hfl : failing.length = 128)
    (ho : stageOpen s.ctx 4 = true) (hs : s.dev.boot.sub = 1) (hp : ∀ k, k < 32 → present.getD k 0 = 128)
    (hf : ∀ k, k < 128 → 8 ≤ failing.getD k 0) :
    Completes (.lpddr5xTraining present failing) s fun t => t.dev.boot = { s.dev.boot with sub := 2 } ∧ (∀ a, a < lpSize → t.byte a = 0) ∧
      (∀ a, lpSize ≤ a → t.byte a = s.byte a) ∧ ∀ d, d < 4 → (t.ctx.die d).trained = true ∧ (t.ctx.die d).chTrained = 2 ^ 32 - 1 := by
  obtain ⟨r, good, chOk, hch, hop⟩ := lpddrTrainingOp_all ho hs hp hf
  have hkeep {β : Type} {g : Ctx → β} (h : ∀ c d f, g (c.updDie d f) = g c) :
      g (diesTrained r good chOk (loadMemory (imageSlot s.ctx s.ctx.dev.boot.slot) s.ctx)) = g s.ctx :=
    (diesTrained_keeps r good chOk _ h).trans (loadMemory_keeps h _ s.ctx)
  have hmem := hkeep (g := Ctx.mem) fun _ _ _ => rfl
  have hboot := hkeep (g := fun c => c.dev.boot) fun _ _ _ => rfl
  have hbytes (a : Nat) := hkeep (g := fun c => c.byte a) fun _ _ _ => rfl
  have htr (d : Nat) (hd : d < 4) := diesTrained_trained r good chOk (loadMemory (imageSlot s.ctx s.ctx.dev.boot.slot) s.ctx) hd
  have hct (d : Nat) (hd : d < 4) := diesTrained_chTrained r good chOk (loadMemory (imageSlot s.ctx s.ctx.dev.boot.slot) s.ctx) hd
  generalize diesTrained r good chOk (loadMemory (imageSlot s.ctx s.ctx.dev.boot.slot) s.ctx) = c2 at hop hmem hboot hbytes htr hct
  have hbyte (a : Nat) : (s.run (lpddrTrainingOp present failing)).byte a = if a < lpSize then 0 else s.byte a := by
    rw [State.byte_run' s _ a (by rw [hop, updBoot_mem, lpddrZero_mem, hmem]; rfl), hop, updBoot_byte, lpddrZero_byte, hbytes]
    rfl
  have hdie (d : Nat) : (s.run (lpddrTrainingOp present failing)).ctx.die d = c2.die d := by
    rw [State.run_at_die, hop, updBoot_at_die, lpddrZero_at_die]
  refine .of_run _ (by simp [Instr.wf, hpl, hfl]) rfl ⟨?_, fun a ha => by rw [hbyte, if_pos ha], fun a ha => by rw [hbyte, if_neg (by omega)], ?_⟩
  · rw [State.run_dev, hop, updBoot_boot, lpddrZero_boot, hboot]
    rfl
  · intro d hd
    have hall : ∀ k, k < 32 → chOk (32 * d + k) = true := fun k hk => hch _ (by omega)
    have hmask : maskOf 32 (fun k => chOk (32 * d + k)) = maskOf 32 (fun _ => true) :=
      congrArg List.sum (List.map_congr_left fun k hk => by simp only [hall k (List.mem_range.mp hk)])
    rw [hdie, htr d hd, hct d hd, hmask]
    exact ⟨List.all_eq_true.mpr fun k hk => hall k (List.mem_range.mp hk), by decide⟩

/-! ### The other stages -/

section
variable {c : Ctx}

theorem lockTimeoutOp_stops {pll : Nat} (ho : stageOpen c 3 = true) (hl : (if pll < 4 then (c.die pll).locked else c.dev.stw.locked) = false)
    (ht : c.dev.boot.lockTimeout ≤ c.dev.slow - c.dev.boot.stageAt) : lockTimeoutOp pll c = bootStop 4 c := by
  simp only [lockTimeoutOp, ho, hl, Ctx.since, ht, Bool.not_false, Bool.and_self, decide_true, if_true]

theorem startTestOp_memories {found : List Defect} {bad : List Nat} (ho : stageOpen c 4 = true) (hs : c.dev.boot.sub = 2) :
    startTestOp found bad c =
      (((bad.filter (fun a => decide (a < lpSize))).map wordBase).foldl (fun a l => eccEvent l true (setPoison l a))
        ((found.filter (fun e => e.kind != 3)).foldl (fun a e => testEntry e a) (sramZero c))).updBoot (fun b => { b with sub := 3 }) := by
  rw [startTestOp, if_pos (by simp [ho, hs])]

/-- Start-up is at one stage at a time. -/
theorem stageOpen_unique {m n : Nat} (ho : stageOpen c m = true) (hmn : m ≠ n) : stageOpen c n = false := by
  simp only [stageOpen, Bool.and_eq_true, beq_iff_eq] at ho
  simp only [stageOpen, ho.1.1.1, beq_eq_false_iff_ne.mpr hmn, Bool.false_and]

theorem startTestOp_lanes {found : List Defect} {bad : List Nat} (ho : stageOpen c 5 = true) (hs : c.dev.boot.sub = 1) :
    startTestOp found bad c = linkStage (applyDefects
      ((found.filter (fun e => e.kind == 3 && (usedPorts c).contains e.index && decide (e.sub < 4))).foldl (fun a e => testEntry e a) c)) := by
  rw [startTestOp, if_neg (by simp [stageOpen_unique ho (n := 4) (by decide)]), if_pos (by simp [ho, hs])]

theorem fastPathOp_lost (ho : stageOpen c 4 = true) (hs : c.dev.boot.sub = 0) :
    fastPathOp false c = c.updBoot (fun b => { b with sub := 1 }) := by
  rw [fastPathOp, if_neg (by simp [ho, hs])]
  rfl

theorem fastPathOp_kept {k : Nat} (hc : c.Clean) (ho : stageOpen c 4 = true) (hs : c.dev.boot.sub = 0)
    (hk : [0, 1].find? (copyMatches c) = some k) :
    fastPathOp true c = stageFourEnd k true
      (forAll (List.range 4) (fun d a => a.updDie d (fun x => { x with trained := x.chTrained == 0xFFFFFFFF })) (sramZero c)) := by
  rw [fastPathOp, if_neg (by simp [ho, hs])]
  simp only [if_true, eccRead_clean _ _ hc, hk]

theorem readyAssertOp_asserts (ho : stageOpen c 8 = true) (hr : c.dev.boot.readyEver = false) :
    readyAssertOp c =
      let c1 := applyDefects c
      let c2 := c1.updBoot (fun b => { b with digest := sha384Nat (listEntries c1).flatten, appended := 0, readyEver := true })
      let c3 := forAll (List.range 4) (fun d a => a.updDie d (fun x => { x with epoch := c.dev.epoch })) c2
      autoStart 1 0 (c3.updPins (fun p => { p with ready := true })) := by
  rw [readyAssertOp, if_neg (by simp [ho, hr])]

theorem rootPllLockOp_runs {rails : List RailMeasure} {ucie : List (Nat × Nat)} (ho : stageOpen c 3 = true) :
    rootPllLockOp rails ucie c =
      let c1 := forAll (List.range 4) (fun d a => ucieTrain d (ucie.getD d (0, 0)) a) (clocksStart c)
      let p := sectionAt c (imageSlot c c.dev.boot.slot) 3
      let c2 := forAll [4, 0, 1, 2, 3] (fun r a => railSet p r (rails.getD r { readback := 0, measured := 0, failures := 3 }) a) c1
      if c2.dev.boot.stopped || c2.dev.safe.safe then c2
      else (stageBegin 4 c2).updBoot (fun b => { b with sub := if b.stage4Ever then 0 else 1 }) := by
  rw [rootPllLockOp, if_neg (by simp [ho])]

end

section
variable {s : State} {straps : List Nat} {slot : Nat} (response : Nat)

/-- Stage 1 with STRAP0 at a level in use reads the slot and goes on, with the identity where a directory copy is valid. -/
theorem bootRom_completes (hw : (Instr.bootRom straps slot response).wf = true) (ho : stageOpen s.ctx 1 = true)
    (hs : ¬ 3 ≤ strapLevel (straps.getD 0 0)) :
    Completes (.bootRom straps slot response) s fun t => t.mem = s.mem ∧ t.dev.boot.stage = 2 ∧ t.dev.boot.slotPin = slot ∧
      ∀ k, chooseDir (strapsRead straps slot s.ctx) = some k →
        let c2 := (strapsRead straps slot s.ctx).updBoot (fun b => { b with dirCopy := k })
        Becomes s (stageBegin 2 (identityLoad (seedOf response c2) c2)) t := by
  cases hd : chooseDir (strapsRead straps slot s.ctx) with
  | none =>
    exact (completes_becomes hw rfl (bootRomOp_none straps slot response ho hs hd)).imp fun t ⟨hdev, hmem⟩ =>
      ⟨hmem.mem_eq rfl, by rw [hdev]; rfl, by rw [hdev]; rfl, nofun⟩
  | some k =>
    have hop := bootRomOp_some straps slot response ho hs hd
    obtain ⟨hlog, hpin⟩ := identityLoad_keeps (seedOf response ((strapsRead straps slot s.ctx).updBoot (fun b => { b with dirCopy := k })))
      ((strapsRead straps slot s.ctx).updBoot (fun b => { b with dirCopy := k }))
    have hrest (t : State) (c3 : Ctx) (hb : Becomes s (stageBegin 2 c3) t) (hlog : c3.log = []) (hpin : c3.dev.boot.slotPin = slot) :
        t.mem = s.mem ∧ t.dev.boot.stage = 2 ∧ t.dev.boot.slotPin = slot :=
      ⟨hb.2.mem_eq hlog, by rw [hb.1]; rfl, by rw [hb.1]; exact hpin⟩
    refine (completes_becomes hw rfl hop).imp fun t hb => ?_
    obtain ⟨hmem, hstage, hslot⟩ := hrest t _ hb hlog hpin
    refine ⟨hmem, hstage, hslot, fun j hj => ?_⟩
    cases hj
    exact hb

end

/-- Stage 2 selects a slot, or stops start-up. -/
theorem selectImage_completes {s : State} {k : Nat} (ho : stageOpen s.ctx 2 = true) (hd : chooseDir s.ctx = some k) :
    let c1 := clearRecord (s.ctx.updBoot (fun b => { b with dirCopy := k }))
    (slotFound c1 = none → Completes .selectImage s fun t => Becomes s (bootStop 3 c1) t ∧ t.dev.boot.error = 3) ∧
    Completes .selectImage s (Becomes s ((slotFound c1).elim (bootStop 3 c1) (slotTaken c1))) := by
  intro c1
  cases hf : slotFound c1 with
  | none =>
    have hop := selectImageOp_refused ho hd hf
    rw [Option.elim_none]
    exact ⟨fun _ => (completes_bootStop rfl rfl hop).imp fun _ ⟨hb, _, he⟩ => ⟨hb, he⟩, completes_becomes rfl rfl hop⟩
  | some n =>
    have hop := selectImageOp_taken ho hd hf
    rw [Option.elim_some]
    exact ⟨nofun, completes_becomes rfl rfl hop⟩

section
variable {c : Ctx}

/-- The image is copied to copy 0. -/
def imageCopied (c : Ctx) : Ctx :=
  store (imageCopy 0) (c.read (imageSlot c c.dev.boot.slot) (imgField c (imageSlot c c.dev.boot.slot) 12 4)) c

theorem imageCopyOp_runs (ho : stageOpen c 4 = true) (hs : c.dev.boot.sub = 3) :
    imageCopyOp c =
      if imageOk (imageCopied c) (imageCopy 0) then stageFourEnd 0 false (imageCopied c)
      else stageBegin 2 ((imageCopied c).updBoot (fun x => { x with exclA := x.exclA || x.slot == 0, exclB := x.exclB || x.slot == 1 })) := by
  rw [imageCopyOp, if_neg (by simp [ho, hs])]
  rfl

end

/-- A copy of the image that fails its check excludes the slot it came from. -/
theorem imageCopy_excludes {s : State} (ho : stageOpen s.ctx 4 = true) (hs : s.dev.boot.sub = 3)
    (hbad : imageOk (imageCopied s.ctx) (imageCopy 0) = false) :
    Completes .imageCopy s fun t => t.dev.boot.stage = 2 ∧ (s.dev.boot.slot = 0 → t.dev.boot.exclA = true) ∧
      (s.dev.boot.slot = 1 → t.dev.boot.exclB = true) := by
  have hop := imageCopyOp_runs ho hs
  have hslot : (imageCopied s.ctx).dev.boot.slot = s.dev.boot.slot := congrArg Prod.snd (store_clockSlot ..)
  rw [hbad, if_neg Bool.false_ne_true] at hop
  generalize imageCopied s.ctx = c1 at hop hslot
  refine (completes_becomes rfl rfl hop).imp fun t ⟨hdev, _⟩ => ⟨by rw [hdev]; rfl, fun h => ?_, fun h => ?_⟩
  · rw [hdev]
    show (c1.dev.boot.exclA || c1.dev.boot.slot == 0) = true
    rw [hslot, h, Bool.or_eq_true]
    exact Or.inr rfl
  · rw [hdev]
    show (c1.dev.boot.exclB || c1.dev.boot.slot == 1) = true
    rw [hslot, h, Bool.or_eq_true]
    exact Or.inr rfl

/-! ### The stages together -/

/-- Settles O56: each stage is its meaning's branch; training reaches no higher rate than the image's three bits give, so that with all devices
present and every channel good below rate 8 all of them train. -/
theorem startUpRunsItsStages : Obligations.StartUpRunsItsStages := by
  unfold Obligations.StartUpRunsItsStages
  intro s straps present failing slot response pll rails ucie found bad hstraps hlevels hslot hrails hucie hrates hpl hfl hpll
  have hwBoot : (Instr.bootRom straps slot response).wf = true := by simp [Instr.wf, hstraps, hlevels, hslot]
  have hwPll : (Instr.rootPllLock rails ucie).wf = true := by simp [Instr.wf, hrails, hucie, hrates]
  refine ⟨fun ho => ⟨fun hs => completes_bootStop hwBoot rfl (bootRomOp_reserved straps slot response ho hs),
      fun hs => bootRom_completes response hwBoot ho (by omega)⟩,
    fun ho => ⟨fun hd => (completes_bootStop rfl rfl (selectImageOp_none ho hd)).imp fun _ ⟨hb, _, he⟩ => ⟨hb, he⟩, fun k hd => ?_⟩,
    fun ho => ⟨completes_becomes hwPll rfl (rootPllLockOp_runs ho), fun hl ht =>
      (completes_bootStop (by simp [Instr.wf, hpll]) rfl (lockTimeoutOp_stops ho hl ht)).imp fun _ ⟨hb, _, he⟩ => ⟨hb, he⟩⟩,
    fun ho => ⟨lpddr5xTraining_completes hpl hfl ho, fun hs => completes_becomes rfl rfl (startTestOp_memories ho hs),
      fun hs => ⟨completes_becomes rfl rfl (imageCopyOp_runs ho hs), imageCopy_excludes ho hs⟩,
      fun hs => ⟨completes_dev rfl rfl (fastPathOp_lost ho hs), fun k hc hk =>
        completes_becomes rfl rfl (fastPathOp_kept (State.clean_ctx hc) ho hs hk)⟩⟩,
    fun ho hs => completes_becomes rfl rfl (startTestOp_lanes ho hs),
    fun ho hr => completes_becomes rfl rfl (readyAssertOp_asserts ho hr)⟩
  obtain ⟨hnone, hany⟩ := selectImage_completes ho hd
  refine ⟨hnone, hany.imp fun t ht => ?_⟩
  simp only [slotFound] at ht
  split
  next hf => rwa [hf, Option.elim_none] at ht
  next n hf => rwa [hf, Option.elim_some] at ht

end Sys2Proof.Machine

/-! # Serving timers and moves: proofs -/

namespace Sys2Proof.Machine

/-! ### A NOTE (R484–R489) -/

section
variable {coll source : Nat} {c : Ctx}

/-- A NOTE of a source with no open episode is recorded; while the collectors act its window stands as it was, and in the safe state the fallow
timer is loaded. -/
theorem raise_note (idents : List Nat) (h : (c.coll coll).episodes.find? (fun p => p.1 == source) = none) :
    raise coll source 0 idents c =
      let c1 := recordEvent coll source c
      let c2 := c1.updColl coll (fun y => { y with windows := Tab.set y.windows source (Tab.get (0, 0) (c1.coll coll).windows source) })
      if !c.dev.boot.armed then c1 else if c.dev.safe.safe then c2.updSafe (fun s => { s with since := c.dev.slow }) else c2 := by
  have hold : ((recordEvent coll source c).coll coll).episodes.find? (fun p => p.1 == source) = none := by
    rw [recordEvent, updColl_same]
    exact h
  simp only [raise, raiseN, hold, classify, entryLevel, Option.isNone_none, Bool.and_true, decide_true]
  rfl

/-- It leaves what neither a collector nor the safe state's timer holds. -/
theorem raise_note_keeps {β : Type} {g : Ctx → β} (hc : ∀ c k f, g (c.updColl k f) = g c) (hs : ∀ c f, g (c.updSafe f) = g c)
    (idents : List Nat) (h : (c.coll coll).episodes.find? (fun p => p.1 == source) = none) : g (raise coll source 0 idents c) = g c := by
  have hrec : g (recordEvent coll source c) = g c := hc c coll _
  rw [raise_note idents h]
  dsimp only
  split
  · exact hrec
  · split
    · exact (hs _ _).trans ((hc _ _ _).trans hrec)
    · exact (hc _ _ _).trans hrec

/-- The status bit is set; causes and episodes stay. -/
theorem raise_note_coll (idents : List Nat) (h : (c.coll coll).episodes.find? (fun p => p.1 == source) = none) :
    ((raise coll source 0 idents c).coll coll).status = setBit (c.coll coll).status source ∧
      ((raise coll source 0 idents c).coll coll).cause = (c.coll coll).cause ∧
      ((raise coll source 0 idents c).coll coll).episodes = (c.coll coll).episodes := by
  rw [raise_note idents h]
  dsimp only
  split
  · simp [recordEvent]
  · split <;> simp [recordEvent]

end

/-- Die 0's management source with no open episode notes cause `b`. -/
theorem mgmtEvent_note {c : Ctx} {b : Nat} (hb : b ≠ 35) (h : (c.coll 0).episodes.find? (fun p => p.1 == 42) = none) :
    ((mgmtEvent 0 b c).coll 0).status = setBit (c.coll 0).status 42 ∧ ((mgmtEvent 0 b c).coll 0).cause = setBit (c.coll 0).cause b ∧
      ((mgmtEvent 0 b c).coll 0).episodes = (c.coll 0).episodes ∧ (mgmtEvent 0 b c).log = c.log ∧ (mgmtEvent 0 b c).dev.srv = c.dev.srv := by
  have hopen : ((c.updColl 0 (fun x => { x with cause := setBit x.cause b })).coll 0).episodes.find? (fun p => p.1 == 42) = none := by
    rw [updColl_same]
    exact h
  obtain ⟨hstatus, hcause, hepisodes⟩ := raise_note_coll [] hopen
  have hlog := raise_note_keeps (g := Ctx.log) (fun _ _ _ => rfl) (fun _ _ => rfl) [] hopen
  have hsrv := raise_note_keeps (g := fun c => c.dev.srv) (fun _ _ _ => rfl) (fun _ _ => rfl) [] hopen
  rw [updColl_same] at hstatus hcause hepisodes
  rw [mgmtEvent, if_neg hb]
  exact ⟨hstatus, hcause, hepisodes, hlog, hsrv⟩

/-! ### A step past its worst case, a reclaim past its limit (R372, R400) -/

/-- What a NOTE of die 0's management source with cause `b` leaves. -/
def Noted (b : Nat) (s t : State) : Prop :=
  t.mem = s.mem ∧ (t.ctx.coll 0).status = setBit (s.ctx.coll 0).status 42 ∧ (t.ctx.coll 0).cause = setBit (s.ctx.coll 0).cause b ∧
    (t.ctx.coll 0).episodes = (s.ctx.coll 0).episodes

/-- A command that changes the books of serving and notes a cause. -/
theorem completes_noted {i : Instr} {s : State} {op : Ctx → Ctx} {b : Nat} {f : SrvSt → SrvSt} (hw : i.wf = true)
    (he : exec i s = perform i s op) (hb : b ≠ 35) (h : (s.ctx.coll 0).episodes.find? (fun p => p.1 == 42) = none)
    (hop : op s.ctx = mgmtEvent 0 b (s.ctx.updSrv f)) : Completes i s fun t => Noted b s t ∧ t.dev.srv = f s.dev.srv := by
  obtain ⟨hstatus, hcause, hepisodes, hlog, hsrv⟩ := mgmtEvent_note (c := s.ctx.updSrv f) hb h
  refine .of_run op hw he ⟨⟨State.run_mem_of_log s op (by rw [hop]; exact hlog), ?_, ?_, ?_⟩, by rw [State.run_dev, hop]; exact hsrv⟩
  all_goals rw [State.run_at_coll, hop]
  · exact hstatus
  · exact hcause
  · exact hepisodes

section
variable {s : State} (h : (s.ctx.coll 0).episodes.find? (fun p => p.1 == 42) = none)
include h

theorem srvOverrun_noted {p : StepPlan} (hp : s.dev.srv.plan = some p) (ho : p.overran = false) (ht : p.worst < s.dev.slow - p.since) :
    Completes .srvOverrun s fun t => Noted 32 s t ∧ t.dev.srv = { s.dev.srv with overrun := true, plan := some { p with overran := true } } := by
  have hop : srvOverrunOp s.ctx = mgmtEvent 0 32 (s.ctx.updSrv (fun x => { x with overrun := true, plan := some { p with overran := true } })) := by
    have hp' : s.ctx.srv.plan = some p := hp
    have ht' : p.worst < s.ctx.since p.since := ht
    simp only [srvOverrunOp, hp', ho, ht', Bool.not_false, decide_true, Bool.and_self, if_true]
  exact completes_noted rfl rfl (by decide) h hop

theorem reclaimLate_noted {v lim : Nat} (hr : (variantOf s.ctx v).reclaim = some (lim, false)) (hseq : seqRuns s.ctx = true)
    (ht : lim ≤ s.dev.slow) : Completes (.reclaimLate (.variant v)) s fun t => Noted 33 s t ∧ t.dev.srv.reclaimLate = true ∧
      Tab.get {} t.dev.srv.variants v = { variantOf s.ctx v with reclaim := some (lim, true) } := by
  have hop : reclaimLateOp (.variant v) s.ctx = mgmtEvent 0 33 (s.ctx.updSrv (fun x => { x with
      reclaimLate := true, variants := Tab.upd {} x.variants v (fun y => { y with
        quota := (variantOf s.ctx v).quota, overQuota := (variantOf s.ctx v).overQuota, reclaim := some (lim, true) }) })) := by
    have ht' : lim ≤ s.ctx.dev.slow := ht
    simp only [reclaimLateOp, holderReclaim, hr, hseq, ht', decide_true, Bool.and_self, if_true, setHolder, holderQuota, holderOver]
    rfl
  refine (completes_noted rfl rfl (by decide) h hop).imp fun t ⟨hn, hs⟩ => ⟨hn, by rw [hs], ?_⟩
  rw [hs, Tab.upd, Tab.get_set_same]
  rfl

end

/-! ### Pauses and times to live (R274, R387, R388) -/

section
variable {c : Ctx} {id : Nat} {r : Req}

theorem pauseIdleOp_pauses (hr : c.req? id = some r) (hseq : seqRuns c = true) (hst : r.state = 3) (hca : r.cause = 2)
    (ht : (classOf c r.cls).idle ≤ c.dev.slow - r.since) : pauseIdleOp id c = schedule (pauseNow r false c) := by
  simp only [pauseIdleOp, hr, hseq, hst, hca, Ctx.since, ht, beq_self_eq_true, decide_true, Bool.and_self, if_true]

/-- What follows when the time of a paused cache in T1 is over. -/
def ttlT1 (r : Req) (c : Ctx) : Ctx :=
  if (classOf c r.cls).ttl2 = 0 then finalize r 7 0x11 c
  else if t2Room c r.blocks then startMove r.id 2 c else finalize r 7 0x12 c

theorem ttlExpiryOp_t1 (hr : c.req? id = some r) (hseq : seqRuns c = true) (hst : r.state = 4) (hm : r.moving = none) (htier : r.tier = 1)
    (ht : (classOf c r.cls).ttl1 ≤ c.dev.slow - r.since) : ttlExpiryOp id c = schedule (ttlT1 r c) := by
  by_cases h2 : (classOf c r.cls).ttl2 = 0 <;>
    simp [ttlExpiryOp, hr, hseq, hst, hm, htier, ttlT1, Ctx.since, Nat.not_lt.mpr ht, h2]

theorem ttlExpiryOp_t2 (hr : c.req? id = some r) (hseq : seqRuns c = true) (hst : r.state = 4) (hm : r.moving = none) (htier : r.tier = 2)
    (ht : (classOf c r.cls).ttl2 ≤ c.dev.slow - r.since) : ttlExpiryOp id c = schedule (finalize r 7 0x11 c) := by
  simp [ttlExpiryOp, hr, hseq, hst, hm, htier, Ctx.since, Nat.not_lt.mpr ht]

end

/-! ### The end of a move (R273–R275, R386) -/

/-- The blocks of a move are read. -/
def blocksRead (src : List Nat) (c : Ctx) : Ctx := src.foldl (fun a x => eccRead x c.srv.blockBytes a) c

theorem blocksRead_slow (src : List Nat) (c : Ctx) : (blocksRead src c).dev.slow = c.dev.slow := by
  have h (n : Nat) (a : Ctx) : (src.foldl (fun a x => eccRead x n a) a).clockSlot = a.clockSlot := by
    induction src generalizing a with
    | nil => rfl
    | cons x src ih => exact (ih _).trans (eccRead_clockSlot x n a)
  exact congrArg Prod.fst (h _ c)

section
variable {c : Ctx} {id : Nat} {r : Req} {m : MoveEnd} (hr : c.req? id = some r) (hseq : seqRuns c = true) (hturn : moveTurn c r = true)
include hr hseq hturn

/-- A request not in `SHIP` has its move answered by the tier it goes to. -/
theorem tierMoveCompleteOp_fromT2 (hh : r.hand ≠ 4) (hm : r.moving = some 0) (hfresh : freshPlaces c r 0 m.dst = true) (htier : r.tier = 2)
    (hlen : m.data.length = r.blocks) (hall : m.data.all (fun b => b.length == c.srv.blockBytes) = true) :
    tierMoveCompleteOp id m c = schedule
      (if m.data.map crc32c = r.crcs
        then arriveT0 { r with addrs := m.dst } ((m.dst.zip m.data).foldl (fun a p => store p.1 p.2 a) c)
        else finalize r 8 0x20 c) := by
  have hany : m.data.any (fun b => b.length != c.srv.blockBytes) = false := by
    rw [List.all_eq_true] at hall
    exact List.any_eq_false.mpr fun b hb => by simp [beq_iff_eq.mp (hall b hb)]
  by_cases hcrc : m.data.map crc32c = r.crcs <;>
    simp [tierMoveCompleteOp, hr, hseq, hturn, hh, hm, hfresh, htier, hlen, hany, hcrc]

theorem tierMoveCompleteOp_fromT1 (hh : r.hand ≠ 4) (hm : r.moving = some 0) (hfresh : freshPlaces c r 0 m.dst = true) (htier : r.tier ≠ 2)
    (hsrc : sourcePlaces c r 1 m.src = true) :
    tierMoveCompleteOp id m c = schedule (arriveT0 { r with addrs := m.dst } (copyBlocks c.srv.blockBytes m.src m.dst c)) := by
  simp only [tierMoveCompleteOp, hr, hseq, hturn, hh, hm, hfresh, htier, hsrc, Bool.not_true, Bool.or_self, Bool.false_eq_true, if_false, if_true]

theorem tierMoveCompleteOp_toT1 (hh : r.hand ≠ 4) (hm : r.moving = some 1) (hfits : fitsT1 c r = true) (hsrc : sourcePlaces c r 0 m.src = true)
    (hfresh : freshPlaces c r 1 m.dst = true) :
    tierMoveCompleteOp id m c = schedule (arriveTier { r with addrs := m.dst } 1 (copyBlocks c.srv.blockBytes m.src m.dst c)) := by
  simp only [tierMoveCompleteOp, hr, hseq, hturn, hh, hm, hfits, hsrc, hfresh, Bool.not_true, Bool.or_self, Bool.and_self, Bool.false_eq_true,
    if_false, if_true]

theorem tierMoveCompleteOp_toT2 (hh : r.hand ≠ 4) (hm : r.moving = some 2) (hsrc : sourcePlaces c r r.tier m.src = true) :
    tierMoveCompleteOp id m c = schedule
      (let c1 := blocksRead m.src c
       let blocks := blockData c1 m.src
       if m.src.any (fun x => poisonAt c1 x c.srv.blockBytes) then finalize r 8 0x21 c1
       else arriveTier { r with addrs := [], crcs := blocks.map crc32c } 2 (sendBlocks r.id (t2Pkg c1) (r.t2.map (t2Addr c1)) blocks c1)) := by
  simp only [tierMoveCompleteOp, hr, hseq, hturn, hh, hm, hsrc, Bool.not_true, Bool.or_self, Bool.false_eq_true, if_false, remoteBlocks]
  exact (apply_ite schedule _ _ _).symm

/-- The cache of a request in `SHIP` has left by `now`: TRANSFER follows. -/
def shipped (r : Req) (now : Nat) (dst src : List Nat) (c : Ctx) : Ctx :=
  actionEnd (((sendBlocks r.id (some r.decodePkg) dst (blockData c src) c).updReq r.id (fun _ => { r with hand := 5, handAt := now })).send
    (.transfer r.decodePkg
      { req := r.id, emitted := r.emitted, turnEmitted := r.turnEmitted, length := r.length, dCur := r.dCur, zeroStreak := r.zeroStreak,
        fullStreak := r.fullStreak, seed := r.seed, dest := r.dest, destPkg := r.destPkg }))

theorem tierMoveCompleteOp_ship (hh : r.hand = 4) (hsrc : sourcePlaces c r 0 m.src = true)
    (hdst : placesApart c.srv.blockBytes r.blocks m.dst = true) :
    tierMoveCompleteOp id m c =
      let c1 := blocksRead m.src c
      if m.src.any (fun x => poisonAt c1 x c.srv.blockBytes) then schedule (finalize r 8 0x21 c1) else shipped r c.dev.slow m.dst m.src c1 := by
  simp only [tierMoveCompleteOp, hr, hseq, hturn, hh, hsrc, hdst, Bool.not_true, Bool.or_self, Bool.and_self, Bool.false_eq_true, if_false,
    if_true]
  rw [← blocksRead_slow m.src c]
  rfl

end

theorem t2FreeRequestOp_frees {c : Ctx} {owner block : Nat} (h : refusesFrom c owner = false) : t2FreeRequestOp owner block c =
    quotaCheck (c.updSrv (fun s => { s with t2Held := s.t2Held.filter (fun p => !(p.1 == owner && p.2 == block)) })) := by
  rw [t2FreeRequestOp, if_neg (by simp [h])]

theorem t2FreeRequestOp_refuses {c : Ctx} {owner block : Nat} (h : refusesFrom c owner = true) :
    t2FreeRequestOp owner block c = c.send (.refused owner) := by
  rw [t2FreeRequestOp, if_pos h]

theorem State.run_eq {s : State} {op : Ctx → Ctx} {c : Ctx} (h : op s.ctx = c) :
    s.run op = { s with mem := applyLog s.mem c.log, dev := c.dev } := by
  subst h
  rfl

/-- A command that changes the books of serving and checks the quota. -/
theorem completes_quotaCheck {i : Instr} {s : State} {op : Ctx → Ctx} {f : SrvSt → SrvSt} (hw : i.wf = true) (he : exec i s = perform i s op)
    (hop : op s.ctx = quotaCheck (s.ctx.updSrv f)) : Completes i s fun t => t.mem = s.mem ∧ t.dev.srv = f s.dev.srv ∧
      t.dev = { s.dev with srv := t.dev.srv, job := t.dev.job } := by
  unfold quotaCheck at hop
  generalize (fun j : JobSt => ({ j with overQuota := j.running && decide (j.quota < jobUse (s.ctx.updSrv f)) } : JobSt)) = g at hop
  have hdev : (s.run op).dev = { s.dev with srv := f s.dev.srv, job := g s.dev.job } := by rw [State.run_dev, hop]; rfl
  exact .of_run op hw he ⟨State.run_mem_of_log s op (by rw [hop]; rfl), by rw [hdev], by rw [hdev]⟩

section
variable {s : State} {id : Nat} {r : Req} (hid : id < 2 ^ 32) (hr : s.ctx.req? id = some r) (hseq : seqRuns s.ctx = true)
include hid hr hseq

/-- The timers of a paused request. -/
theorem pauseTimers_complete :
    (r.state = 3 → r.cause = 2 → (classOf s.ctx r.cls).idle ≤ s.dev.slow - r.since →
      Completes (.pauseIdle id) s fun t => AfterSequencer s (pauseNow r false s.ctx) t) ∧
    (r.state = 4 → r.moving = none → r.tier = 1 → (classOf s.ctx r.cls).ttl1 ≤ s.dev.slow - r.since →
      Completes (.ttlExpiry id) s fun t => AfterSequencer s (ttlT1 r s.ctx) t) ∧
    (r.state = 4 → r.moving = none → r.tier = 2 → (classOf s.ctx r.cls).ttl2 ≤ s.dev.slow - r.since →
      Completes (.ttlExpiry id) s fun t => AfterSequencer s (finalize r 7 0x11 s.ctx) t) :=
  have hwPause : (Instr.pauseIdle id).wf = true := by simpa [Instr.wf] using hid
  have hwTtl : (Instr.ttlExpiry id).wf = true := by simpa [Instr.wf] using hid
  ⟨fun hst hca ht => completes_becomes hwPause rfl (pauseIdleOp_pauses hr hseq hst hca ht),
    fun hst hm htier ht => completes_becomes hwTtl rfl (ttlExpiryOp_t1 hr hseq hst hm htier ht),
    fun hst hm htier ht => completes_becomes hwTtl rfl (ttlExpiryOp_t2 hr hseq hst hm htier ht)⟩

variable {src dst : List Nat} {data : List (List Byte)} (hplaces : (src ++ dst).all (fun a => a < 2 ^ 48) = true)
  (hturn : moveTurn s.ctx r = true)
include hplaces hturn

/-- The move of a request in `SHIP`. -/
theorem ship_completes (hh : r.hand = 4) (hsrc : sourcePlaces s.ctx r 0 src = true)
    (hdst : placesApart s.dev.srv.blockBytes r.blocks dst = true) :
    Completes (.tierMoveComplete id { src := src, dst := dst, data := data }) s fun t =>
      if src.any (fun x => poisonAt (blocksRead src s.ctx) x s.dev.srv.blockBytes) then AfterSequencer s (finalize r 8 0x21 (blocksRead src s.ctx)) t
      else Becomes s (shipped r s.dev.slow dst src (blocksRead src s.ctx)) t := by
  have hw : (Instr.tierMoveComplete id { src := src, dst := dst, data := data }).wf = true := by
    simp only [Instr.wf, hplaces, decide_eq_true hid, Bool.and_self]
  have hop := tierMoveCompleteOp_ship (m := { src := src, dst := dst, data := data }) hr hseq hturn hh hsrc hdst
  refine (completes_becomes hw rfl hop).imp fun t ht => ?_
  have ht : Becomes s (if src.any (fun x => poisonAt (blocksRead src s.ctx) x s.dev.srv.blockBytes) then
      schedule (finalize r 8 0x21 (blocksRead src s.ctx)) else shipped r s.dev.slow dst src (blocksRead src s.ctx)) t := ht
  split
  next hp => rwa [if_pos hp] at ht
  next hp => rwa [if_neg hp] at ht

/-- A move within the package, or to and from T2. -/
theorem move_completes (hh : r.hand ≠ 4) :
    let done (c : Ctx) : Prop := Completes (.tierMoveComplete id { src := src, dst := dst, data := data }) s fun t => AfterSequencer s c t
    let n := s.dev.srv.blockBytes
    (r.moving = some 0 → freshPlaces s.ctx r 0 dst = true →
      (r.tier = 2 → data.length = r.blocks → data.all (fun b => b.length == n) = true →
        done (if data.map crc32c = r.crcs
          then arriveT0 { r with addrs := dst } ((dst.zip data).foldl (fun a p => store p.1 p.2 a) s.ctx)
          else finalize r 8 0x20 s.ctx)) ∧
      (r.tier ≠ 2 → sourcePlaces s.ctx r 1 src = true → done (arriveT0 { r with addrs := dst } (copyBlocks n src dst s.ctx)))) ∧
    (r.moving = some 1 → fitsT1 s.ctx r = true → sourcePlaces s.ctx r 0 src = true → freshPlaces s.ctx r 1 dst = true →
      done (arriveTier { r with addrs := dst } 1 (copyBlocks n src dst s.ctx))) ∧
    (r.moving = some 2 → sourcePlaces s.ctx r r.tier src = true →
      let c1 := blocksRead src s.ctx
      let blocks := blockData c1 src
      done (if src.any (fun x => poisonAt c1 x n) then finalize r 8 0x21 c1
        else arriveTier { r with addrs := [], crcs := blocks.map crc32c } 2
          (sendBlocks r.id (t2Pkg c1) (r.t2.map (t2Addr c1)) blocks c1))) := by
  intro done n
  have hw : (Instr.tierMoveComplete id { src := src, dst := dst, data := data }).wf = true := by
    simp only [Instr.wf, hplaces, decide_eq_true hid, Bool.and_self]
  have hdone {c : Ctx} (hop : tierMoveCompleteOp id { src := src, dst := dst, data := data } s.ctx = schedule c) : done c :=
    completes_becomes hw rfl hop
  exact ⟨fun hm hfresh => ⟨fun htier hlen hall => hdone (tierMoveCompleteOp_fromT2 hr hseq hturn hh hm hfresh htier hlen hall),
      fun htier hsrc => hdone (tierMoveCompleteOp_fromT1 hr hseq hturn hh hm hfresh htier hsrc)⟩,
    fun hm hfits hsrc hfresh => hdone (tierMoveCompleteOp_toT1 hr hseq hturn hh hm hfits hsrc hfresh),
    fun hm hsrc => hdone (tierMoveCompleteOp_toT2 hr hseq hturn hh hm hsrc)⟩

end

/-- Settles O37: a NOTE reaches the collector alone; every other command's meaning is the branch its state selects, and reading the blocks of a
move, errors and all, does not set the clock. -/
theorem servingTimersAndMovesTakeEffect : Obligations.ServingTimersAndMovesTakeEffect := by
  unfold Obligations.ServingTimersAndMovesTakeEffect
  refine ⟨fun s p v lim h => ⟨fun hp ho ht => srvOverrun_noted h hp ho ht, fun hr hseq ht => reclaimLate_noted h hr hseq ht⟩, ?_⟩
  intro s id owner block src dst data r hid hplaces howner hr hseq
  have hw : (Instr.t2FreeRequest owner block).wf = true := by simpa [Instr.wf] using howner
  obtain ⟨hpause, httl1, httl2⟩ := pauseTimers_complete hid hr hseq
  exact ⟨hpause, httl1, httl2, fun hh hturn => move_completes hid hr hseq hplaces hturn hh,
    fun hh hturn hsrc hdst => ship_completes hid hr hseq hplaces hturn hh hsrc hdst,
    fun hf => completes_quotaCheck hw rfl (t2FreeRequestOp_frees hf),
    fun hf => .of_run _ hw rfl (State.run_eq (t2FreeRequestOp_refuses hf))⟩

end Sys2Proof.Machine

/-! # The stash allocator: proofs -/

namespace Sys2Proof.Machine

/-! ### A claim (R304, R305, R308) -/

/-- A claim of `n` pages fits the unit's region: nothing stands in the spill slice, and the frames reach no further than the region. -/
abbrev UnitSt.regionTakes (x : UnitSt) (n : Nat) : Prop := x.stash.spillTop = 0 ∧ x.stash.unitTop + n ≤ 16 * x.region.stashSize

/-- A claim of core `core` that exhausts its unit's allocator freezes the core and ends its job. -/
def stashExhausted (core : Nat) (c : Ctx) : Ctx :=
  endCause 0x10 ((c.updUnit (unitOfCore core) (fun x => { x with stash := { x.stash with exhausted := true } })).updCore core
    (fun k => { k with frozen := true }))

/-- Its unit then raises the STASH event, in whose episode a master froze. -/
def stashRaised (core : Nat) (c : Ctx) : Ctx :=
  markFroze (dieOfUnit (unitOfCore core)) (clusterOf (unitOfCore core) % 16) (unitEvent (unitOfCore core) 6 (stashExhausted core c))

section
variable {core v : Nat} {c : Ctx} {x : UnitSt} (hx : c.unit (unitOfCore core) = x)
include hx

theorem stashClaim_unitRegion (hn : v % 2 ^ 20 ≠ 0) (hl : x.stash.frames.length ≠ 1024) (hfit : x.regionTakes (v % 2 ^ 20)) :
    stashClaim core v c = c.updUnit (unitOfCore core) (fun y => { y with stash := { x.stash with
      frames := (0, v % 2 ^ 20) :: x.stash.frames
      unitTop := x.stash.unitTop + v % 2 ^ 20
      grants := Tab.set x.stash.grants (core % 4) (0, x.stash.unitTop) } }) := by
  simp only [stashClaim, hx, if_neg hn, if_neg hl, Bool.and_eq_true, decide_eq_true_eq, if_pos hfit]
  rfl

theorem stashClaim_spill (hn : v % 2 ^ 20 ≠ 0) (hl : x.stash.frames.length ≠ 1024) (hfull : ¬ x.regionTakes (v % 2 ^ 20))
    (hfit : x.stash.spillTop + v % 2 ^ 20 ≤ 16 * x.stash.spillSize) :
    stashClaim core v c = c.updUnit (unitOfCore core) (fun y => { y with stash := { x.stash with
      frames := (1, v % 2 ^ 20) :: x.stash.frames
      spillTop := x.stash.spillTop + v % 2 ^ 20
      grants := Tab.set x.stash.grants (core % 4) (1, x.stash.spillTop) } }) := by
  simp only [stashClaim, hx, if_neg hn, if_neg hl, Bool.and_eq_true, decide_eq_true_eq, if_neg hfull, if_pos hfit]
  rfl

theorem stashClaim_exhausts (hn : v % 2 ^ 20 ≠ 0) (hfull : x.stash.frames.length = 1024 ∨
    ¬ x.regionTakes (v % 2 ^ 20) ∧ 16 * x.stash.spillSize < x.stash.spillTop + v % 2 ^ 20) :
    stashClaim core v c = stashRaised core c := by
  subst hx
  by_cases hl : (c.unit (unitOfCore core)).stash.frames.length = 1024
  · simp only [stashClaim, if_neg hn, if_pos hl]
    rfl
  · obtain ⟨hunit, hspill⟩ := hfull.resolve_left hl
    simp only [stashClaim, if_neg hn, if_neg hl, Bool.and_eq_true, decide_eq_true_eq, if_neg hunit, if_neg (Nat.not_le.mpr hspill)]
    rfl

/-! ### A release (R306) -/

theorem stashRelease_pops {tier n : Nat} {rest : List (Nat × Nat)} (h1 : v % 2 = 1) (hf : x.stash.frames = (tier, n) :: rest) :
    stashRelease core v c = c.updUnit (unitOfCore core) (fun y => { y with stash := { x.stash with
      frames := rest
      unitTop := if tier = 0 then x.stash.unitTop - n else x.stash.unitTop
      spillTop := if tier = 1 then x.stash.spillTop - n else x.stash.spillTop } }) := by
  simp only [stashRelease, h1, hx, hf, Nat.one_ne_zero, if_false]

theorem stashRelease_empty (h1 : v % 2 = 1) (hf : x.stash.frames = []) :
    stashRelease core v c = violateCore core (unitBlock (unitOfCore core) + 0x584) (c.answer core { ok := false, value := 0 }) := by
  simp only [stashRelease, h1, hx, hf, Nat.one_ne_zero, if_false]

end

section
variable {core : Nat} {c : Ctx}

theorem stashClaim_zero {v : Nat} (h0 : v % 2 ^ 20 = 0) :
    stashClaim core v c = violateCore core (unitBlock (unitOfCore core) + 0x580) (c.answer core { ok := false, value := 0 }) := by
  rw [stashClaim, if_pos h0]

theorem stashRelease_even {v : Nat} (h0 : v % 2 = 0) : stashRelease core v c = c := by
  rw [stashRelease, if_pos h0]

theorem umStashClaimOp_runs (hr : c.coreRuns core = true) (v : Nat) : umStashClaimOp core v c = stashClaim core v (c.answer core {}) := by
  simp [umStashClaimOp, hr]

theorem umStashReleaseOp_runs (hr : c.coreRuns core = true) (v : Nat) :
    umStashReleaseOp core v c = stashRelease core v (c.answer core {}) := by
  simp [umStashReleaseOp, hr]

/-! ### The events the allocator raises -/

/-- Before the collectors are armed an event is only recorded (R510). -/
theorem raise_unarmed (ha : c.dev.boot.armed = false) (coll source cls : Nat) (idents : List Nat) :
    raise coll source cls idents c = recordEvent coll source c := by
  simp [raise, raiseN, ha]

theorem unitEvent_unarmed_keeps {β : Type} {g : Ctx → β} (hc : ∀ c k f, g (c.updColl k f) = g c) (ha : c.dev.boot.armed = false)
    (u cause : Nat) : g (unitEvent u cause c) = g c := by
  have hcause : (unitCause u cause c).dev.boot.armed = false := ha
  rw [unitEvent, raise_unarmed hcause, recordEvent, hc]
  simp only [unitCause, hc]

theorem endCause_job (code : Nat) (c : Ctx) : (endCause code c).dev.job =
    if c.dev.job.running && !c.dev.job.ending then { c.dev.job with ending := true, endCode := code, endedAt := c.dev.slow } else c.dev.job := by
  unfold endCause
  split <;> rfl

/-- A refused access freezes its core. -/
theorem violateCore_frozen (core a : Nat) (c : Ctx) : ((violateCore core a c).core core).frozen = true := by
  rw [violateCore, freezeControl, endCause_keeps (g := fun c => c.core core) fun _ _ => rfl, updCore_same]

@[simp] theorem stashExhausted_log : (stashExhausted core c).log = c.log :=
  endCause_keeps (g := Ctx.log) (fun _ _ => rfl) _ _

@[simp] theorem stashExhausted_boot : (stashExhausted core c).dev.boot = c.dev.boot :=
  endCause_keeps (g := fun c => c.dev.boot) (fun _ _ => rfl) _ _

@[simp] theorem stashExhausted_unit : (stashExhausted core c).unit (unitOfCore core) =
    { c.unit (unitOfCore core) with stash := { (c.unit (unitOfCore core)).stash with exhausted := true } } := by
  rw [stashExhausted, endCause_keeps (g := fun c => c.unit (unitOfCore core)) fun _ _ => rfl, updCore_at_unit, updUnit_same]

@[simp] theorem stashExhausted_core : (stashExhausted core c).core core = { c.core core with frozen := true } := by
  rw [stashExhausted, endCause_keeps (g := fun c => c.core core) fun _ _ => rfl, updCore_same, updUnit_at_core]

@[simp] theorem stashExhausted_job : (stashExhausted core c).dev.job = (endCause 0x10 c).dev.job := by
  rw [stashExhausted, endCause_job, endCause_job]
  rfl

theorem stashRaised_unarmed_keeps {β : Type} {g : Ctx → β} (hc : ∀ c k f, g (c.updColl k f) = g c) (ha : c.dev.boot.armed = false) :
    g (stashRaised core c) = g (stashExhausted core c) := by
  have hx : (stashExhausted core c).dev.boot.armed = false := by rwa [stashExhausted_boot]
  rw [stashRaised, markFroze, hc, unitEvent_unarmed_keeps hc hx]

end

/-! ### The commands -/

section
variable {i : Instr} {s : State} {op : Ctx → Ctx} {core : Nat} (hw : i.wf = true) (he : exec i s = perform i s op)
include hw he

/-- A command that answers its core and changes one unit. -/
theorem completes_answer_unit {u : Nat} {a : Answer} {f : UnitSt → UnitSt} (hop : op s.ctx = (s.ctx.answer core a).updUnit u f) :
    Completes i s fun t => (t.mem = s.mem ∧ (∀ w, w ≠ u → t.ctx.unit w = s.ctx.unit w) ∧
      t.dev = { s.dev with units := t.dev.units, answers := t.dev.answers }) ∧ t.ctx.unit u = f (s.ctx.unit u) := by
  refine .of_run op hw he ⟨⟨State.run_mem_of_log s op (by rw [hop]; rfl), fun w hne => ?_, ?_⟩, ?_⟩
  · rw [State.run_at_unit, hop, updUnit_other _ f hne, answer_at_unit]
  · rw [State.run_dev, hop]; rfl
  · rw [State.run_at_unit, hop, updUnit_same, answer_at_unit]

/-- A command whose meaning is a core's refused access. -/
theorem completes_violateCore {a : Nat} {c : Ctx} (hop : op s.ctx = violateCore core a c) :
    Completes i s fun t => Becomes s (violateCore core a c) t ∧ (t.ctx.core core).frozen = true :=
  .of_run op hw he ⟨.of_eq hop, by rw [State.run_at_core, hop, violateCore_frozen]⟩

/-- A claim that exhausts the allocator; before the collectors are armed its unit, its core and its job show no more than that. -/
theorem completes_stashRaised {a : Answer} (hop : op s.ctx = stashRaised core (s.ctx.answer core a)) :
    Completes i s fun t => Becomes s (stashRaised core (s.ctx.answer core a)) t ∧
      (s.dev.boot.armed = false → t.mem = s.mem ∧
        t.ctx.unit (unitOfCore core) =
          { s.ctx.unit (unitOfCore core) with stash := { (s.ctx.unit (unitOfCore core)).stash with exhausted := true } } ∧
        t.ctx.core core = { s.ctx.core core with frozen := true } ∧ t.dev.job = (endCause 0x10 s.ctx).dev.job) := by
  refine .of_run op hw he ⟨.of_eq hop, fun ha => ?_⟩
  have hkeeps {β : Type} {g : Ctx → β} (hc : ∀ c k f, g (c.updColl k f) = g c) :
      g (op s.ctx) = g (stashExhausted core (s.ctx.answer core a)) := by rw [hop, stashRaised_unarmed_keeps hc ha]
  refine ⟨State.run_mem_of_log s op ((hkeeps (g := Ctx.log) fun _ _ _ => rfl).trans stashExhausted_log), ?_, ?_, ?_⟩
  · rw [State.run_at_unit, hkeeps (g := fun c => c.unit (unitOfCore core)) fun _ _ _ => rfl, stashExhausted_unit, answer_at_unit]
  · rw [State.run_at_core, hkeeps (g := fun c => c.core core) fun _ _ _ => rfl, stashExhausted_core, answer_at_core]
  · rw [State.run_dev, hkeeps (g := fun c => c.dev.job) fun _ _ _ => rfl, stashExhausted_job, endCause_job, endCause_job]
    rfl

end

/-- Settles O11: a claim takes the branch its size and the two tops select, a release the branch of its bit and the frames; an exhausting
claim's event is only recorded before the collectors are armed. -/
theorem stashClaimsStackAndReleasesPop : Obligations.StashClaimsStackAndReleasesPop := by
  unfold Obligations.StashClaimsStackAndReleasesPop
  intro s core v hcore hv hr
  have hwClaim : (Instr.umStashClaim core v).wf = true := by simpa [Instr.wf] using ⟨hcore, hv⟩
  have hwRelease : (Instr.umStashRelease core v).wf = true := by simpa [Instr.wf] using ⟨hcore, hv⟩
  have hclaim := umStashClaimOp_runs hr v
  have hrelease := umStashReleaseOp_runs hr v
  refine ⟨fun hn hl => ⟨fun hfit => ?unitRegion, fun hfull hfit => ?spill⟩, fun hn hfull => ?exhausts, fun tier pages rest h1 hf => ?pops,
    fun h0 => ?even, fun h0 => ?zero, fun h1 hf => ?empty⟩
  case unitRegion => exact completes_answer_unit hwClaim rfl (hclaim.trans (stashClaim_unitRegion rfl hn hl hfit))
  case spill => exact completes_answer_unit hwClaim rfl (hclaim.trans (stashClaim_spill rfl hn hl hfull hfit))
  case exhausts => exact completes_stashRaised hwClaim rfl (hclaim.trans (stashClaim_exhausts rfl hn hfull))
  case pops => exact completes_answer_unit hwRelease rfl (hrelease.trans (stashRelease_pops rfl h1 hf))
  case even =>
    exact (completes_becomes hwRelease rfl (hrelease.trans (stashRelease_even h0))).imp fun t ⟨hdev, hmem⟩ => ⟨hmem, by rw [hdev]; rfl⟩
  case zero => exact completes_violateCore hwClaim rfl (hclaim.trans (stashClaim_zero h0))
  case empty => exact completes_violateCore hwRelease rfl (hrelease.trans (stashRelease_empty rfl h1 hf))

end Sys2Proof.Machine

/-! # Gradient reduction over the furrows: proofs -/

namespace Sys2Proof.Machine

/-! ### Changes of one die's furrow engine, and messages sent -/

/-- A change of one channel, as a change of its die's engine. -/
def FurSt.updChan (k : Nat) (f : FurChan → FurChan) (x : FurSt) : FurSt := { x with chans := Tab.upd {} x.chans k f }

/-- Messages sent one after another. -/
def Ctx.sends (c : Ctx) (l : List Msg) : Ctx := { c with dev := { c.dev with outbox := c.dev.outbox ++ l } }

theorem updChan_eq (c : Ctx) (d k : Nat) (f : FurChan → FurChan) : c.updChan d k f = c.updFur d (FurSt.updChan k f) := rfl

@[simp] theorem updFur_same (c : Ctx) (d : Nat) (f : FurSt → FurSt) : (c.updFur d f).fur d = f (c.fur d) := by
  simp [Ctx.updFur, Ctx.fur]

@[simp] theorem updFur_other (c : Ctx) {d e : Nat} (f : FurSt → FurSt) (h : e ≠ d) : (c.updFur d f).fur e = c.fur e := by
  simp [Ctx.updFur, Ctx.fur, h]

theorem updFur_updFur (c : Ctx) (d : Nat) (f g : FurSt → FurSt) : (c.updFur d f).updFur d g = c.updFur d (fun x => g (f x)) := by
  simp [Ctx.updFur, Ctx.fur]

theorem FurSt.updChan_updChan (k : Nat) (f g : FurChan → FurChan) (x : FurSt) :
    (x.updChan k f).updChan k g = x.updChan k (fun y => g (f y)) := by
  simp [FurSt.updChan, Tab.upd]

theorem updFur_write (c : Ctx) (d : Nat) (f : FurSt → FurSt) (a : Nat) (l : List Byte) : (c.updFur d f).write a l = (c.write a l).updFur d f := by
  have h := write_withDev c (c.updFur d f).dev a l
  have hdev : ((c.write a l).updFur d f).dev = (c.updFur d f).dev := by simp only [Ctx.updFur, Ctx.fur, Ctx.write_dev]
  exact h.trans (congrArg (c.write a l).withDev hdev.symm)

theorem sends_nil (c : Ctx) : c.sends [] = c := by simp [Ctx.sends]

theorem sends_sends (c : Ctx) (l m : List Msg) : (c.sends l).sends m = c.sends (l ++ m) := by simp [Ctx.sends]

theorem updFur_sends (c : Ctx) (d : Nat) (f : FurSt → FurSt) (l : List Msg) : (c.updFur d f).sends l = (c.sends l).updFur d f := rfl

/-- One message for each element of a list, none of which depends on those sent before it. -/
theorem foldl_send {α : Type} {m : Ctx → α → Msg} (hm : ∀ c l x, m (Ctx.sends c l) x = m c x) (xs : List α) (c : Ctx) :
    xs.foldl (fun a x => a.send (m a x)) c = c.sends (xs.map (m c)) := by
  induction xs generalizing c with
  | nil => exact (sends_nil c).symm
  | cons x xs ih =>
    have hsent : c.send (m c x) = c.sends [m c x] := rfl
    rw [List.foldl_cons, ih, hsent, sends_sends, funext (hm c [m c x])]
    rfl

/-! ### States in which only a furrow engine changed -/

section
variable {s : State} {op : Ctx → Ctx} {b : Ctx} {msgs : List Msg} {d k : Nat}

/-- A meaning that writes as `b`, then sends messages and changes the engine of die `d`. -/
theorem run_updFur {f : FurSt → FurSt} (hop : op s.ctx = (b.sends msgs).updFur d f) (hdev : b.dev = s.dev) :
    Wrote s b (s.run op) ∧ OnlyDie d s (s.run op) ∧ (s.run op).dev.outbox = s.dev.outbox ++ msgs ∧
      (s.run op).ctx.fur d = f (s.ctx.fur d) := by
  have hfur (e : Nat) : (b.sends msgs).fur e = s.ctx.fur e := by rw [Ctx.fur, Ctx.sends, hdev]; rfl
  have hd : (s.run op).dev = ((b.sends msgs).updFur d f).dev := by rw [State.run_dev, hop]
  have hat (e : Nat) : (s.run op).ctx.fur e = ((b.sends msgs).updFur d f).fur e := by rw [Ctx.fur, State.ctx_dev, hd]; rfl
  refine ⟨.of_log (by rw [hop]; rfl), ⟨?_, fun e he => ?_⟩, ?_, ?_⟩
  · rw [hd, ← hdev]; rfl
  · rw [hat, updFur_other _ f he, hfur]
  · rw [hd, ← hdev]; rfl
  · rw [hat, updFur_same, hfur]

/-- The channels of an engine of which one changed. -/
theorem chan_of_chans {t : State} {g : FurChan → FurChan} (h : (t.ctx.fur d).chans = Tab.upd {} (s.ctx.fur d).chans k g) :
    t.ctx.chan d k = g (s.ctx.chan d k) ∧ ∀ j, j ≠ k → t.ctx.chan d j = s.ctx.chan d j := by
  refine ⟨?_, fun j hj => ?_⟩
  · rw [Ctx.chan, h]; exact Tab.get_set_same ..
  · rw [Ctx.chan, h]; exact Tab.get_set_ne _ _ _ hj

/-- A meaning that writes as `b`, then sends messages and changes one channel. -/
theorem run_updChan {g : FurChan → FurChan} (hop : op s.ctx = (b.sends msgs).updFur d (FurSt.updChan k g)) (hdev : b.dev = s.dev) :
    Wrote s b (s.run op) ∧ OnlyChannel d k s (s.run op) ∧ (s.run op).dev.outbox = s.dev.outbox ++ msgs ∧
      (s.run op).ctx.chan d k = g (s.ctx.chan d k) := by
  obtain ⟨hwrote, honly, hout, hfur⟩ := run_updFur hop hdev
  obtain ⟨hsame, hothers⟩ := chan_of_chans (congrArg FurSt.chans hfur)
  exact ⟨hwrote, ⟨honly, by rw [hfur]; rfl, hothers⟩, hout, hsame⟩

/-- The same, where the rotation over the modules of a crossing moves on as well. -/
theorem run_updChanRot {g : FurChan → FurChan} {r : Nat → Nat}
    (hop : op s.ctx = (b.sends msgs).updFur d (fun x => { x.updChan k g with rot := r x.rot })) (hdev : b.dev = s.dev) :
    Wrote s b (s.run op) ∧ OnlyChannelRot d k s (s.run op) ∧ (s.run op).dev.outbox = s.dev.outbox ++ msgs ∧
      (s.run op).ctx.chan d k = g (s.ctx.chan d k) ∧ ((s.run op).ctx.fur d).rot = r (s.ctx.fur d).rot := by
  obtain ⟨hwrote, honly, hout, hfur⟩ := run_updFur hop hdev
  obtain ⟨hsame, hothers⟩ := chan_of_chans (congrArg FurSt.chans hfur)
  exact ⟨hwrote, ⟨honly, by rw [hfur]; rfl, hothers⟩, hout, hsame, by rw [hfur]⟩

end

/-! ### Hops and words (R329, R333) -/

/-- The hop of level 0 over the module whose turn it is at rotation `r` (R53, R329). -/
def crossingHop (d r : Nat) : FurHop :=
  let next := (d + 1) % 4
  .crossing (4 * (if next < d then next else next - 1) + r % 4) next

theorem hopOf_zero (c : Ctx) (d k i : Nat) : hopOf c d k i 0 = crossingHop d (c.fur d).rot := rfl

theorem crossingHop_mod (d r : Nat) : crossingHop d (r % 4) = crossingHop d r := by simp only [crossingHop, Nat.mod_mod]

/-- A change of an engine that leaves its group table and its rotation leaves its hops. -/
theorem hopOf_updFur {c : Ctx} {d : Nat} {f : FurSt → FurSt} (hg : (f (c.fur d)).groupBase = (c.fur d).groupBase)
    (hr : (f (c.fur d)).rot = (c.fur d).rot) (k i l : Nat) : hopOf (c.updFur d f) d k i l = hopOf c d k i l := by
  simp only [hopOf, groupEntry, updFur_same, hg, hr]
  rfl

theorem ringLevels_updFur {c : Ctx} {d : Nat} {f : FurSt → FurSt} (hg : (f (c.fur d)).groupBase = (c.fur d).groupBase) (i : Nat) :
    ringLevels (c.updFur d f) d i = ringLevels c d i := by
  simp only [ringLevels, groupEntry, updFur_same, hg]
  rfl

theorem sendAbort_eq (d k i : Nat) (c : Ctx) :
    sendAbort d k i c = c.sends ((ringLevels c d i).map fun l => .peerAbort d k (hopOf c d k i l)) :=
  foldl_send (m := fun c l => Msg.peerAbort d k (hopOf c d k i l)) (fun _ _ _ => rfl) _ c

/-- A word on a crossing turns the rotation by the modules it takes. -/
theorem sendWord_crossing {w : FurWord} (h : w.level = 0) (d k : Nat) (D : Desc) (c : Ctx) :
    sendWord d k D w c = (c.sends [.furWord d k (crossingHop d (c.fur d).rot) w]).updFur d
      (fun x => { x with rot := (x.rot + crossingWords D w) % 4 }) := by
  simp only [sendWord, h, if_true, hopOf_zero]
  rfl

theorem sendWord_link {w : FurWord} (h : w.level ≠ 0) (d k : Nat) (D : Desc) (c : Ctx) :
    sendWord d k D w c = c.sends [.furWord d k (hopOf c d k (uGroup D) w.level) w] := by
  simp only [sendWord, if_neg h]
  rfl

/-! ### The end of a descriptor (R338, R362) -/

/-- A channel whose descriptor ended with status `st`. -/
def FurChan.ended (D : Desc) (st : Nat) (x : FurChan) : FurChan :=
  let next := if furHalts st then (if x.state = 4 then 4 else 3) else if x.state = 2 then 1 else x.state
  { x with
    pc := x.pc + 1
    run := none
    state := if next = 1 && decide (x.len ≤ x.pc + 1) then 0 else next
    haltStatus := if furHalts st then st else x.haltStatus
    haltTag := if furHalts st then (if hOpcode D == 0x43 then 0 else hTag D) else x.haltTag }

/-- Without a record and a signal, the end is a change of the channel alone. -/
theorem furEnd_quiet {D : Desc} (hcpl : hCpl D = false) (hsig : hSig D = false) (d k iter st : Nat) (n : FurCounts) (v : Bool) (c : Ctx) :
    furEnd d k D iter st n v c = c.updFur d (FurSt.updChan k (FurChan.ended D st)) := by
  simp only [furEnd, hcpl, hsig, Bool.and_false, Bool.false_and, Bool.false_eq_true, if_false]
  rfl

/-- A channel halted by status `st`. -/
theorem ended_halted {D : Desc} {st : Nat} (hh : furHalts st = true) (ho : hOpcode D ≠ 0x43) (x : FurChan) :
    x.ended D st = { x with
      pc := x.pc + 1, run := none, state := if x.state = 4 then 4 else 3, haltStatus := st, haltTag := hTag D } := by
  have hnext : (if x.state = 4 then 4 else 3) ≠ 1 := by split <;> decide
  simp only [FurChan.ended, hh, beq_eq_false_iff_ne.mpr ho, if_true, hnext, decide_false, Bool.false_and, Bool.false_eq_true, if_false]

/-- A channel whose descriptor completed. -/
theorem ended_completed (D : Desc) {x : FurChan} (h : x.state = 1 ∨ x.state = 2) :
    x.ended D 0 = { x with pc := x.pc + 1, run := none, state := if x.len ≤ x.pc + 1 then 0 else 1 } := by
  have hnext : (if x.state = 2 then 1 else x.state) = 1 := by obtain h | h := h <;> simp [h]
  have hh : furHalts 0 = false := rfl
  simp only [FurChan.ended, hh, Bool.false_eq_true, if_false, hnext, decide_true, Bool.true_and, decide_eq_true_eq]

end Sys2Proof.Machine

namespace Sys2Proof.Machine

/-! ### Reductions that stop (R327, R363, R364) -/

/-- What an abort leaves where no record and no signal is due. -/
theorem sendAbort_furEnd {D : Desc} (hcpl : hCpl D = false) (hsig : hSig D = false) (d k i iter st : Nat) (n : FurCounts) (v : Bool) (c : Ctx) :
    sendAbort d k i (furEnd d k D iter st n v c) = (c.sends ((ringLevels c d i).map fun l => .peerAbort d k (hopOf c d k i l))).updFur d
      (FurSt.updChan k (FurChan.ended D st)) := by
  rw [sendAbort_eq, furEnd_quiet hcpl hsig, updFur_sends, ringLevels_updFur rfl]
  simp only [hopOf_updFur (f := FurSt.updChan k (FurChan.ended D st)) (c := c) (d := d) rfl rfl]

/-- The channel stopped with status `st`: it is halted, and a peer abort left on every ring of its group. -/
def ReductionStopped (d k : Nat) (D : Desc) (st : Nat) (s t : State) : Prop :=
  t.mem = s.mem ∧ OnlyChannel d k s t ∧
    t.dev.outbox = s.dev.outbox ++ (ringLevels s.ctx d (uGroup D)).map (fun l => Msg.peerAbort d k (hopOf s.ctx d k (uGroup D) l)) ∧
    t.ctx.chan d k = { s.ctx.chan d k with
      pc := (s.ctx.chan d k).pc + 1, run := none, state := if (s.ctx.chan d k).state = 4 then 4 else 3, haltStatus := st, haltTag := hTag D }

theorem run_stops {s : State} {d k : Nat} {op : Ctx → Ctx} {D : Desc} {iter st : Nat}
    (hop : op s.ctx = sendAbort d k (uGroup D) (furEnd d k D iter st noCounts false s.ctx)) (hh : furHalts st = true) (ho : hOpcode D ≠ 0x43)
    (hcpl : hCpl D = false) (hsig : hSig D = false) : ReductionStopped d k D st s (s.run op) := by
  obtain ⟨hwrote, honly, hout, hchan⟩ := run_updChan (hop.trans (sendAbort_furEnd hcpl hsig ..)) rfl
  exact ⟨hwrote.mem_eq rfl, honly, hout, hchan.trans (ended_halted hh ho _)⟩

theorem furPeerAbortOp_live {c : Ctx} {d : Nat} (hlive : furLive c d = true) (k : Nat) : furPeerAbortOp d k c = furAbortRun d k 0x44 c := by
  simp only [furPeerAbortOp, hlive, if_true]

section
variable {s : State} {d k : Nat} {r : FurRun} (hrun : (s.ctx.chan d k).run = some r) (hlive : furLive s.ctx d = true)
include hrun

theorem furAbortRun_some (st : Nat) : furAbortRun d k st s.ctx =
    sendAbort d k (uGroup r.desc) (furEnd d k r.desc r.iter st noCounts false s.ctx) := by
  simp only [furAbortRun, hrun]

/-- A command that ends the reduction with a halting status. -/
theorem completes_stops {i : Instr} {op : Ctx → Ctx} {st : Nat} (hw : i.wf = true) (he : exec i s = perform i s op)
    (hop : op s.ctx = furAbortRun d k st s.ctx) (hh : furHalts st = true) (ho : hOpcode r.desc ≠ 0x43) :
    Completes i s fun t => Becomes s (sendAbort d k (uGroup r.desc) (furEnd d k r.desc r.iter st noCounts false s.ctx)) t ∧
      (hCpl r.desc = false → hSig r.desc = false → ReductionStopped d k r.desc st s t) :=
  have hop' := hop.trans (furAbortRun_some hrun st)
  .of_run op hw he ⟨.of_eq hop', run_stops hop' hh ho⟩

include hlive

theorem furHeaderOp_misfit {h : FurHeader} (hf : headerFits r.desc (geoOf s.ctx d r.desc) h = false) :
    furHeaderOp d k h s.ctx = furAbortRun d k 0x41 s.ctx := by
  simp only [furHeaderOp, hrun, hlive, hf, Bool.not_true, Bool.not_false, Bool.false_eq_true, if_false, if_true]

theorem furHeaderOp_stale {h : FurHeader} (hf : headerFits r.desc (geoOf s.ctx d r.desc) h = true) (hep : h.epoch ≠ s.dev.epoch) :
    furHeaderOp d k h s.ctx = furAbortRun d k 0x42 s.ctx := by
  simp only [furHeaderOp, hrun, hlive, hf, State.ctx_dev, hep, ne_eq, not_false_eq_true, Bool.not_true, Bool.false_eq_true, if_false, if_true]

/-- A run that has noted the header of level `l`. -/
def FurRun.noted (l now : Nat) (r : FurRun) : FurRun :=
  { r with headers := if r.headers.contains l then r.headers else r.headers ++ [l], since := now }

theorem furHeaderOp_fits {h : FurHeader} (hf : headerFits r.desc (geoOf s.ctx d r.desc) h = true) (hep : h.epoch = s.dev.epoch) :
    furHeaderOp d k h s.ctx = (s.ctx.sends []).updFur d
      (FurSt.updChan k fun x => { x with run := x.run.map (FurRun.noted h.level s.dev.slow) }) := by
  simp only [furHeaderOp, hrun, hlive, hf, State.ctx_dev, hep, ne_eq, not_true_eq_false, Bool.not_true, Bool.false_eq_true, if_false, sends_nil]
  rfl

theorem furTimeoutOp_late (ht : (s.ctx.fur d).timeout ≤ s.dev.slow - r.since) : furTimeoutOp d k s.ctx =
    (lateTrays s.ctx d r).foldl (fun a t => sendNotice t 3 a) (furAbortRun d k 0x43 s.ctx) := by
  have hlate : decide ((s.ctx.fur d).timeout ≤ s.ctx.since r.since) = true := decide_eq_true ht
  simp only [furTimeoutOp, hrun, hlive, hlate, Bool.and_self, if_true]

theorem furHeader_notes {h : FurHeader} (hw : chanOk d k = true) (hf : headerFits r.desc (geoOf s.ctx d r.desc) h = true)
    (hep : h.epoch = s.dev.epoch) : Completes (.furHeader d k h) s fun t => t.mem = s.mem ∧ OnlyChannel d k s t ∧ t.dev.outbox = s.dev.outbox ∧
      t.ctx.chan d k = { s.ctx.chan d k with run := some (r.noted h.level s.dev.slow) } := by
  obtain ⟨hwrote, honly, hout, hchan⟩ := run_updChan (furHeaderOp_fits hrun hlive hf hep) rfl
  exact .of_run _ hw rfl ⟨hwrote.mem_eq rfl, honly, hout.trans (List.append_nil _), by rw [hchan, hrun]; rfl⟩

theorem furTimeout_stops (hw : chanOk d k = true) (ho : hOpcode r.desc ≠ 0x43) (ht : (s.ctx.fur d).timeout ≤ s.dev.slow - r.since) :
    Completes (.furTimeout d k) s fun t => Becomes s ((lateTrays s.ctx d r).foldl (fun a t => sendNotice t 3 a)
        (sendAbort d k (uGroup r.desc) (furEnd d k r.desc r.iter 0x43 noCounts false s.ctx))) t ∧
      (lateTrays s.ctx d r = [] → hCpl r.desc = false → hSig r.desc = false → ReductionStopped d k r.desc 0x43 s t) := by
  have hop := furTimeoutOp_late (k := k) hrun hlive ht
  rw [furAbortRun_some hrun] at hop
  refine .of_run _ hw rfl ⟨.of_eq hop, fun hnone => run_stops (iter := r.iter) ?_ rfl ho⟩
  rw [hop, hnone]
  rfl

end

/-! ### A channel disabled (R364, R419) -/

/-- Its drain starts while a job runs. -/
theorem disableChan_eq {c : Ctx} {d k : Nat} (h : (c.chan d k).state = 1 ∨ (c.chan d k).state = 2) : disableChan d k c =
    if c.dev.job.running then disableFn (.furrow d k) (c.updChan d k fun x => { x with state := 4 })
    else c.updChan d k fun x => { x with state := 4 } := by
  have hst : (decide ((c.chan d k).state = 1) || decide ((c.chan d k).state = 2)) = true := by simpa using h
  simp only [disableChan, hst, if_true]

/-- Disabling a channel leaves every reading that neither its state nor the job's drains enter. -/
theorem disableChan_keeps {β : Type} {g : Ctx → β} (hj : ∀ c f, g (c.updJob f) = g c) {c : Ctx} {d k : Nat}
    (h : (c.chan d k).state = 1 ∨ (c.chan d k).state = 2) : g (disableChan d k c) = g (c.updChan d k fun x => { x with state := 4 }) := by
  rw [disableChan_eq h]
  split
  · exact disableFn_keeps hj _ _
  · rfl

theorem furChannelDisable_disables {s : State} {d k : Nat} (hw : chanOk d k = true)
    (h : (s.ctx.chan d k).state = 1 ∨ (s.ctx.chan d k).state = 2) : Completes (.furChannelDisable d k) s fun t => t.mem = s.mem ∧
      t.ctx.chan d k = { s.ctx.chan d k with state := 4 } ∧ t.dev = { s.dev with furrows := t.dev.furrows, job := t.dev.job } ∧
      (∀ j, j ≠ k → t.ctx.chan d j = s.ctx.chan d j) ∧ (s.dev.job.running = false → t.dev.job = s.dev.job) ∧
      (s.dev.job.running = true → isDisabled s.ctx (.furrow d k) = false → t.dev.job = { s.dev.job with
        drains := s.dev.job.drains ++ [{ fn := .furrow d k, since := s.dev.slow, limit := s.dev.job.drainLimit }] }) := by
  have hkeeps {β : Type} {g : Ctx → β} (hj : ∀ c f, g (c.updJob f) = g c) := disableChan_keeps (g := g) hj h
  have hchans : ((s.run (disableChan d k)).ctx.fur d).chans = Tab.upd {} (s.ctx.fur d).chans k (fun x => { x with state := 4 }) :=
    (hkeeps (g := fun c => (c.fur d).chans) fun _ _ => rfl).trans (congrArg FurSt.chans (updFur_same ..))
  obtain ⟨hsame, hothers⟩ := chan_of_chans hchans
  refine .of_run (disableChan d k) hw rfl ⟨State.run_mem_of_log s _ (hkeeps (g := Ctx.log) fun _ _ => rfl), hsame, ?rest, hothers,
    fun hr => ?idle, fun hr hd => ?drains⟩
  case rest =>
    have hdev := hkeeps (g := fun c => ({ c.dev with furrows := [], job := {} } : Dev)) fun _ _ => rfl
    exact congrArg (fun x : Dev => { x with furrows := (s.run (disableChan d k)).dev.furrows, job := (s.run (disableChan d k)).dev.job }) hdev
  case idle => rw [State.run_dev, disableChan_eq h, State.ctx_dev, hr]; rfl
  case drains =>
    have hnot : isDisabled (s.ctx.updChan d k fun x => { x with state := 4 }) (.furrow d k) = false := hd
    rw [State.run_dev, disableChan_eq h, State.ctx_dev, hr, if_pos rfl, disableFn, hnot]
    rfl

/-- Settles O41: each of these ends is the reduction's abort with its status; a header that fits and a channel disabled change the channel. -/
theorem furReductionsStopWithTheirStatus : Obligations.FurReductionsStopWithTheirStatus := by
  unfold Obligations.FurReductionsStopWithTheirStatus
  intro s d k h hw
  refine ⟨fun r hrun hlive ho => ⟨fun hf hep => ?notes, fun hf => ?misfit, fun hf hep => ?stale, ?abort, fun ht => ?late⟩, fun hst => ?disables⟩
  case notes => exact furHeader_notes hrun hlive hw hf hep
  case misfit => exact completes_stops (i := .furHeader d k h) hrun hw rfl (furHeaderOp_misfit hrun hlive hf) rfl ho
  case stale => exact completes_stops (i := .furHeader d k h) hrun hw rfl (furHeaderOp_stale hrun hlive hf hep) rfl ho
  case abort => exact completes_stops (i := .furPeerAbort d k) hrun hw rfl (furPeerAbortOp_live hlive k) rfl ho
  case late => exact furTimeout_stops hrun hlive hw ho ht
  case disables => exact furChannelDisable_disables hw hst

end Sys2Proof.Machine

namespace Sys2Proof.Machine

/-! ### A word is added and travels on (R332, R333) -/

theorem updRun_eq (d k : Nat) (f : FurRun → FurRun) (c : Ctx) :
    updRun d k f c = c.updFur d (FurSt.updChan k fun x => { x with run := x.run.map f }) := rfl

theorem updRun_updRun (d k : Nat) (f g : FurRun → FurRun) (c : Ctx) : updRun d k g (updRun d k f c) = updRun d k (fun r => g (f r)) c := by
  simp only [updRun_eq, updFur_updFur, FurSt.updChan_updChan, Option.map_map]
  rfl

/-- A run that has taken a word. -/
def FurRun.took (w : FurWord) (now : Nat) (r : FurRun) : FurRun := { r with taken := (w.level, w.gather, w.first) :: r.taken, since := now }

/-- A run that has taken a word and added its own part to it. -/
def FurRun.added (w : FurWord) (now : Nat) (r : FurRun) : FurRun :=
  { r.took w now with sums := r.sums.filter (fun s => !(s.level == w.level && s.first == w.first)) }

theorem find?_unreached {c : Ctx} {l : List (Bool × Nat × Nat)} (h : ∀ p ∈ l, furReach c p.1 p.2.1 p.2.2 = true) :
    l.find? (fun s => !furReach c s.1 s.2.1 s.2.2) = none := by
  simpa [List.find?_eq_none] using h

section
variable {s : State} {d k : Nat} {w : FurWord} {r : FurRun} (hrun : (s.ctx.chan d k).run = some r) (hlive : furLive s.ctx d = true)
  (ht : wordTaken s.ctx r (geoOf s.ctx d r.desc) w = true)
  (hreach : ∀ p ∈ wordSpans s.ctx r.desc (geoOf s.ctx d r.desc) w, furReach s.ctx p.1 p.2.1 p.2.2 = true)
include hrun hlive ht hreach

theorem headlandAddOp_adds (hg : w.gather = false) (hl : w.level = 0)
    (hpos : (geoOf s.ctx d r.desc).pos 0 ≠ (geoOf s.ctx d r.desc).ownerPos ((geoOf s.ctx d r.desc).ownerOf w.first) 0) :
    headlandAddOp d k w s.ctx =
      sendWord d k r.desc (addWord r.desc w (contributionWord s.ctx r.desc (geoOf s.ctx d r.desc) 0 w.first))
        (updRun d k (FurRun.added w s.dev.slow) s.ctx) := by
  have hhere : landsHere (geoOf s.ctx d r.desc) w = false := by simp [landsHere, hg, hl, hpos]
  obtain ⟨level, first, elems, poison, gather, bad⟩ := w
  obtain rfl : gather = false := hg
  obtain rfl : level = 0 := hl
  simp only [headlandAddOp, hrun, hlive, ht, find?_unreached hreach, hpos, hhere, Bool.not_true, Bool.or_self, Bool.false_eq_true, if_false,
    if_true, updRun_updRun]
  rfl

theorem headlandAdd_adds (hw : (Instr.headlandAdd d k w).wf = true) (hg : w.gather = false) (hl : w.level = 0)
    (hpos : (geoOf s.ctx d r.desc).pos 0 ≠ (geoOf s.ctx d r.desc).ownerPos ((geoOf s.ctx d r.desc).ownerOf w.first) 0) :
    let sum := addWord r.desc w (contributionWord s.ctx r.desc (geoOf s.ctx d r.desc) 0 w.first)
    Completes (.headlandAdd d k w) s fun t => t.mem = s.mem ∧ OnlyChannelRot d k s t ∧
      t.dev.outbox = s.dev.outbox ++ [Msg.furWord d k (hopOf s.ctx d k (uGroup r.desc) 0) sum] ∧
      (t.ctx.fur d).rot = ((s.ctx.fur d).rot + crossingWords r.desc sum) % 4 ∧
      t.ctx.chan d k = { s.ctx.chan d k with run := some (r.added w s.dev.slow) } := by
  intro sum
  have hop : headlandAddOp d k w s.ctx = (s.ctx.sends [.furWord d k (hopOf s.ctx d k (uGroup r.desc) 0) sum]).updFur d
      (fun x => { x.updChan k (fun y => { y with run := y.run.map (FurRun.added w s.dev.slow) }) with
        rot := (x.rot + crossingWords r.desc sum) % 4 }) := by
    rw [headlandAddOp_adds hrun hlive ht hreach hg hl hpos, sendWord_crossing (w := sum) hl, updRun_eq, updFur_sends, updFur_updFur, updFur_same]
    rfl
  obtain ⟨hwrote, honly, hout, hchan, hrot⟩ := run_updChanRot (r := fun n => (n + crossingWords r.desc sum) % 4) hop rfl
  exact .of_run _ hw rfl ⟨hwrote.mem_eq rfl, honly, hout, hrot, by rw [hchan, hrun]; rfl⟩

end

/-! ### A finished word lands (R341–R343) -/

/-- Words travel finished round the rings of levels 1 to 3 alone. -/
theorem expected_gather_level {c : Ctx} {D : Desc} {g : FurGeo} {l e : Nat} (h : (l, true, e) ∈ expected c D g) : l ≠ 0 := by
  rw [expected, List.mem_append] at h
  obtain hsum | hgather := h
  · split at hsum <;> simp at hsum
  · split at hgather
    · rintro rfl
      simp at hgather
    · simp at hgather

/-- A word passed on round the rings is a message for each of them. -/
theorem gatherOut_sends (d k : Nat) (D : Desc) (g : FurGeo) (w : FurWord) (top : Nat) (c : Ctx) :
    ∃ msgs, gatherOut d k D g w top c = c.sends msgs := by
  have hall : ∀ l ∈ [3, 2, 1].filter (fun l => l < top && g.cnt l != 1), l ≠ 0 := by
    intro l hl
    have hmem := List.mem_of_mem_filter hl
    rintro rfl
    simp at hmem
  unfold gatherOut
  generalize [3, 2, 1].filter (fun l => l < top && g.cnt l != 1) = ls at hall
  induction ls generalizing c with
  | nil => exact ⟨[], (sends_nil c).symm⟩
  | cons l ls ih =>
    rw [List.foldl_cons, sendWord_link (w := { w with level := l, gather := true }) (hall l List.mem_cons_self)]
    obtain ⟨msgs, hms⟩ := ih (c.sends [_]) fun m hm => hall m (List.mem_cons_of_mem l hm)
    exact ⟨_, hms.trans (sends_sends ..)⟩

/-- A word without poison is written alone, memory being without errors. -/
theorem writeResult_clean {D : Desc} {g : FurGeo} {w : FurWord} (codes : List Nat) {c : Ctx} (hc : c.Clean) (hscale : uScale D = false)
    (hp : w.poison = false) (hshape : wordShape D g w = true) :
    writeResult D g w codes c = c.write (dstAddr D g w.first) (codes.flatMap (toBytes (dstWidth D))) := by
  have hbad : uFormat D = 9 → w.bad = [] := by
    intro h9
    simp only [wordShape, hscale, h9, hp, Bool.false_eq_true, if_false, Bool.and_eq_true, beq_iff_eq] at hshape
    obtain ⟨⟨-, hbad⟩, -⟩ := hshape
    simpa using hbad
  by_cases h9 : uFormat D = 9
  · simp [writeResult, hscale, h9, hbad h9, store_clean _ _ hc]
  · simp [writeResult, hscale, h9, hp, store_clean _ _ hc]

theorem landing_free {D : Desc} {g : FurGeo} {first : Nat} {c : Ctx} (h : firstProtected c (resultSpan D g first).1 (resultSpan D g first).2 = none)
    (go : Ctx → Ctx) : landing D g first go c = go c := by
  simp only [landing, h, ite_self]

/-- A word of results that lands: it is written, and a run that took it notes its exponents. -/
theorem landWord_clean {d k : Nat} {D : Desc} {g : FurGeo} {w : FurWord} (codes : List Nat) {c : Ctx} (hc : c.Clean) (hscale : uScale D = false)
    (hp : w.poison = false) (hshape : wordShape D g w = true) (now : Nat) :
    ∃ f : FurRun → FurRun, (∀ r, (f r).taken = (r.took w now).taken) ∧ landWord d k D g w codes (updRun d k (FurRun.took w now) c) =
      updRun d k f (c.write (dstAddr D g w.first) (codes.flatMap (toBytes (dstWidth D)))) := by
  have hc' : (updRun d k (FurRun.took w now) c).Clean := hc
  rw [landWord, writeResult_clean codes hc' hscale hp hshape, updRun_eq d k (FurRun.took w now), updFur_write, ← updRun_eq, updRun_updRun]
  refine ⟨_, ?_, rfl⟩
  exact fun _ => rfl

section
variable {s : State} {d k : Nat} {w : FurWord} {r : FurRun} (hrun : (s.ctx.chan d k).run = some r) (hlive : furLive s.ctx d = true)
  (ht : wordTaken s.ctx r (geoOf s.ctx d r.desc) w = true)
  (hreach : ∀ p ∈ wordSpans s.ctx r.desc (geoOf s.ctx d r.desc) w, furReach s.ctx p.1 p.2.1 p.2.2 = true)
include hrun hlive ht hreach

theorem headlandAddOp_lands (hg : w.gather = true) (hp : w.poison = false) (hscale : uScale r.desc = false) (hc : Clean s)
    (hfree : firstProtected s.ctx (resultSpan r.desc (geoOf s.ctx d r.desc) w.first).1 (resultSpan r.desc (geoOf s.ctx d r.desc) w.first).2 = none) :
    ∃ msgs, ∃ f : FurRun → FurRun, (∀ r, (f r).taken = (r.took w s.dev.slow).taken) ∧ headlandAddOp d k w s.ctx =
      ((s.ctx.write (dstAddr r.desc (geoOf s.ctx d r.desc) w.first) (w.elems.flatMap (toBytes (dstWidth r.desc)))).sends msgs).updFur d
        (FurSt.updChan k fun x => { x with run := x.run.map f }) := by
  obtain ⟨⟨-, hexp⟩, hshape⟩ := by simpa only [wordTaken, Bool.and_eq_true] using ht
  have hlevel : w.level ≠ 0 := expected_gather_level (hg ▸ List.contains_iff_mem.mp hexp)
  obtain ⟨f, hf, hland⟩ := landWord_clean (d := d) (k := k) w.elems (State.clean_ctx hc) hscale hp hshape s.dev.slow
  have hop : headlandAddOp d k w s.ctx = gatherOut d k r.desc (geoOf s.ctx d r.desc) w w.level
      (let a := landWord d k r.desc (geoOf s.ctx d r.desc) w w.elems (updRun d k (FurRun.took w s.dev.slow) s.ctx)
       if ((geoOf s.ctx d r.desc).pos w.level + 1) % (geoOf s.ctx d r.desc).cnt w.level =
          (geoOf s.ctx d r.desc).ownerPos ((geoOf s.ctx d r.desc).ownerOf w.first) w.level then a else sendWord d k r.desc w a) := by
    obtain ⟨level, first, elems, poison, gather, bad⟩ := w
    obtain rfl : gather = true := hg
    simp only [headlandAddOp, hrun, hlive, ht, find?_unreached hreach, landing_free hfree, Bool.not_true, Bool.or_self, Bool.false_eq_true,
      if_false, if_true]
    rfl
  rw [hop, hland]
  dsimp only
  split
  · obtain ⟨msgs, hms⟩ := gatherOut_sends d k r.desc (geoOf s.ctx d r.desc) w w.level (updRun d k f _)
    exact ⟨msgs, f, hf, hms⟩
  · rw [sendWord_link hlevel]
    obtain ⟨msgs, hms⟩ := gatherOut_sends d k r.desc (geoOf s.ctx d r.desc) w w.level (Ctx.sends (updRun d k f _) [_])
    exact ⟨_, f, hf, hms.trans (sends_sends ..)⟩

theorem headlandAdd_lands (hw : (Instr.headlandAdd d k w).wf = true) (hg : w.gather = true) (hp : w.poison = false)
    (hscale : uScale r.desc = false) (hc : Clean s)
    (hfree : firstProtected s.ctx (resultSpan r.desc (geoOf s.ctx d r.desc) w.first).1 (resultSpan r.desc (geoOf s.ctx d r.desc) w.first).2 = none) :
    let a := dstAddr r.desc (geoOf s.ctx d r.desc) w.first
    let data := w.elems.flatMap (toBytes (dstWidth r.desc))
    Completes (.headlandAdd d k w) s fun t => t.bytes a data.length = data ∧ KeepsMemoryBut a data.length s t ∧ OnlyChannel d k s t ∧
      (t.ctx.chan d k).run.map (fun q => q.taken) = some (r.took w s.dev.slow).taken := by
  intro a data
  obtain ⟨msgs, f, hf, hop⟩ := headlandAddOp_lands hrun hlive ht hreach hg hp hscale hc hfree
  obtain ⟨hwrote, honly, -, hchan⟩ := run_updChan hop (Ctx.write_dev ..)
  refine .of_run _ hw rfl ⟨hwrote.bytes_write, hwrote.keepsMemoryBut, honly, ?_⟩
  rw [hchan, hrun]
  exact congrArg some (hf r)

end

end Sys2Proof.Machine

namespace Sys2Proof.Machine

/-! ### The exponents of a reduction (R347, R348, R352) -/

theorem writeExps_furrows (D : Desc) (exps : Tab Nat) (bad : List Nat) {c : Ctx} (hc : c.Clean) :
    (writeExps D exps bad c).dev.furrows = c.dev.furrows := by
  have hstores (l : Tab Nat) (f : Nat × Nat → List Byte) : (l.foldl (fun a p => store (uAux D + p.1) (f p) a) c).dev = c.dev :=
    (WritesOnly.foldl fun p _ => WritesOnly.store (P := fun _ => True) (uAux D + p.1) (f p) fun _ _ _ => trivial).dev hc
  have hpoison (l : Tab Nat) (b : Ctx) :
      (l.foldl (fun a p => forAll (wordsOf (uAux D + p.1) 1) setPoison a) b).dev.furrows = b.dev.furrows := by
    induction l generalizing b with
    | nil => rfl
    | cons p l ih =>
      rw [List.foldl_cons, ih]
      refine forAll_keeps (g := fun c => c.dev.furrows) (fun base a => ?_) _ b
      unfold setPoison
      split <;> rfl
  rw [writeExps, hpoison, hstores]

/-! ### The counts are exchanged (R353) -/

/-- The dies' channels `k` know the counts agreed on. -/
def countsAgreed (k : Nat) (n : FurCounts) (c : Ctx) : Ctx := forAll [0, 1, 2, 3] (fun e a => updRun e k (fun q => { q with agreed := some n }) a) c

/-- The step latch of die `d` is set where `lit` (R354). -/
def latched (lit : Bool) (d : Nat) (c : Ctx) : Ctx := if lit then c.updFur d (fun f => { f with latch := true }) else c

theorem latched_keeps {β : Type} {g : Ctx → β} {d : Nat} (h : ∀ c, g (c.updFur d (fun f => { f with latch := true })) = g c) (lit : Bool)
    (c : Ctx) : g (latched lit d c) = g c := by
  unfold latched
  split
  · exact h c
  · rfl

theorem latched_latch (lit : Bool) (d : Nat) (c : Ctx) : ((latched lit d c).fur d).latch = ((c.fur d).latch || lit) := by
  cases lit
  · exact (Bool.or_false _).symm
  · rw [latched, if_pos rfl, updFur_same, Bool.or_true]

theorem latched_chans (lit : Bool) (d : Nat) (c : Ctx) : ((latched lit d c).fur d).chans = (c.fur d).chans :=
  latched_keeps (g := fun c => (c.fur d).chans) (fun c => by rw [updFur_same]) lit c

/-- The exchange changes of an engine at most the runs of channel `k`. -/
theorem countsAgreed_keeps {β : Type} {g : FurSt → β} {k : Nat}
    (h : ∀ (x : FurSt) f, g (x.updChan k fun y => { y with run := y.run.map f }) = g x) (n : FurCounts) (d : Nat) (c : Ctx) :
    g ((countsAgreed k n c).fur d) = g (c.fur d) := by
  refine forAll_keeps (g := fun c => g (c.fur d)) (fun e a => ?_) _ c
  rw [updRun_eq]
  by_cases hde : d = e
  · subst hde
    rw [updFur_same, h]
  · rw [updFur_other _ _ hde]

/-- The channel of an exchange ends as it would have without it: the end forgets its run. -/
theorem ended_agreed (D : Desc) (st : Nat) (lit : Bool) (k : Nat) (n : FurCounts) (d : Nat) (c : Ctx) :
    ((latched lit d (countsAgreed k n c)).chan d k).ended D st = (c.chan d k).ended D st := by
  have hagreed := countsAgreed_keeps (g := fun x => ((Tab.get {} x.chans k : FurChan).ended D st)) (k := k)
    (fun x f => by rw [FurSt.updChan, Tab.upd, Tab.get_set_same]; rfl) n d c
  rw [Ctx.chan, latched_chans]
  exact hagreed

section
variable {s : State} {d k : Nat} {r : FurRun} {others n : FurCounts} (hrun : (s.ctx.chan d k).run = some r) (hlive : furLive s.ctx d = true)
  (hn : agreedCounts s.ctx d k r others = some n) (hreach : r.exps.all (fun p => furReach s.ctx true (uAux r.desc + p.1) 1) = true)
  (hfree : r.exps.find? (fun p => (firstProtected s.ctx (uAux r.desc + p.1) 1).isSome) = none)
include hrun hlive hn hreach hfree

theorem furSummaryExchangeOp_exchanges :
    let c0 := writeExps r.desc r.exps r.badExps s.ctx
    furSummaryExchangeOp d k others s.ctx = furEnd d k r.desc r.iter 0 n false
      (latched (uGrad r.desc && (n.nan != 0 || n.poisonWords != 0)) d (countsAgreed k n (c0.sends
        ((usedLevels r.desc (geoOf s.ctx d r.desc)).map fun l => Msg.furCounts d k (hopOf c0 d k (uGroup r.desc) l) r.counts)))) := by
  intro c0
  have hreached : r.exps.find? (fun p => !furReach s.ctx true (uAux r.desc + p.1) 1) = none := by
    simpa [List.find?_eq_none] using hreach
  simp only [furSummaryExchangeOp, hrun, hlive, hn, hreached, hfree, Bool.not_true, Bool.false_eq_true, if_false]
  rw [foldl_send (m := fun a l => Msg.furCounts d k (hopOf a d k (uGroup r.desc) l) r.counts) fun _ _ _ => rfl]
  rfl

theorem furSummaryExchange_completes (hw : chanOk d k = true) :
    let lit := uGrad r.desc && (n.nan != 0 || n.poisonWords != 0)
    let c0 := writeExps r.desc r.exps r.badExps s.ctx
    let sent := (usedLevels r.desc (geoOf s.ctx d r.desc)).map fun l => Msg.furCounts d k (hopOf c0 d k (uGroup r.desc) l) r.counts
    Completes (.furSummaryExchange d k others) s fun t =>
      Becomes s (furEnd d k r.desc r.iter 0 n false (latched lit d (countsAgreed k n (c0.sends sent)))) t ∧
      (hCpl r.desc = false → hSig r.desc = false → (s.ctx.chan d k).state = 2 → Clean s →
        Wrote s c0 t ∧ t.dev = { c0.dev with furrows := t.dev.furrows, outbox := c0.dev.outbox ++ sent } ∧
        (t.ctx.fur d).latch = ((s.ctx.fur d).latch || lit) ∧ (∀ j, j ≠ k → t.ctx.chan d j = s.ctx.chan d j) ∧
        t.ctx.chan d k = { s.ctx.chan d k with
          pc := (s.ctx.chan d k).pc + 1, run := none, state := if (s.ctx.chan d k).len ≤ (s.ctx.chan d k).pc + 1 then 0 else 1 }) := by
  intro lit c0 sent
  have hop : furSummaryExchangeOp d k others s.ctx = furEnd d k r.desc r.iter 0 n false (latched lit d (countsAgreed k n (c0.sends sent))) :=
    furSummaryExchangeOp_exchanges hrun hlive hn hreach hfree
  refine .of_run _ hw rfl ⟨.of_eq hop, fun hcpl hsig hst hc => ?_⟩
  rw [furEnd_quiet hcpl hsig] at hop
  have hfurrows : (c0.sends sent).dev.furrows = s.dev.furrows := writeExps_furrows r.desc r.exps r.badExps (State.clean_ctx hc)
  have hfur : (c0.sends sent).fur d = s.ctx.fur d := by rw [Ctx.fur, hfurrows]; rfl
  have hkeeps {β : Type} {g : Ctx → β} (h : ∀ c e f, g (c.updFur e f) = g c) : g (furSummaryExchangeOp d k others s.ctx) = g (c0.sends sent) := by
    rw [hop, h, latched_keeps fun c => h c _ _, countsAgreed]
    exact forAll_keeps (fun e a => by rw [updRun_eq, h]) _ _
  have hat : (s.run (furSummaryExchangeOp d k others)).ctx.fur d =
      ((latched lit d (countsAgreed k n (c0.sends sent))).fur d).updChan k (FurChan.ended r.desc 0) :=
    (congrArg (fun c => Ctx.fur c d) hop).trans (updFur_same ..)
  refine ⟨.of_log (hkeeps (g := Ctx.log) fun _ _ _ => rfl), ?dev, ?latch, fun j hj => ?others, ?own⟩
  case dev =>
    have hdev := hkeeps (g := fun c => ({ c.dev with furrows := [] } : Dev)) fun _ _ _ => rfl
    exact congrArg (fun x : Dev => { x with furrows := (s.run (furSummaryExchangeOp d k others)).dev.furrows }) hdev
  case latch =>
    have hlatch := countsAgreed_keeps (g := FurSt.latch) (k := k) (fun _ _ => rfl) n d (c0.sends sent)
    rw [hat]
    exact (latched_latch ..).trans (by rw [hlatch, hfur])
  case others =>
    have hagreed := countsAgreed_keeps (g := fun x => (Tab.get {} x.chans j : FurChan)) (k := k) (fun _ _ => Tab.get_set_ne _ _ _ hj) n d
      (c0.sends sent)
    rw [Ctx.chan, hat]
    exact (Tab.get_set_ne _ _ _ hj).trans (by rw [latched_chans, hagreed, hfur]; rfl)
  case own =>
    rw [Ctx.chan, hat, ← ended_completed r.desc (.inr hst)]
    exact (Tab.get_set_same ..).trans ((ended_agreed ..).trans (by rw [Ctx.chan, hfur]; rfl))

end

/-- Settles O40: an addition is one message and a change of the channel, a landing one write more; the end of the exchange is the
descriptor's end, which forgets the run. -/
theorem furWordsAddTravelAndLand : Obligations.FurWordsAddTravelAndLand := by
  unfold Obligations.FurWordsAddTravelAndLand
  intro s d k w others r hk hl hrun hlive
  have hw : (Instr.headlandAdd d k w).wf = true := by simpa [Instr.wf, hk] using hl
  refine ⟨fun ht hreach hg hl0 hpos => ?adds, fun ht hreach hg hp hscale hc hfree => ?lands, fun n hn hreach hfree => ?exchanges⟩
  case adds =>
    exact (headlandAdd_adds hrun hlive ht hreach hw hg hl0 hpos).imp fun t ⟨hmem, honly, hout, hrot, hchan⟩ =>
      ⟨hmem, honly, hout, rfl, rfl, hrot, hchan⟩
  case lands => exact headlandAdd_lands hrun hlive ht hreach hw hg hp hscale hc hfree
  case exchanges => exact furSummaryExchange_completes hrun hlive hn hreach hfree hk

end Sys2Proof.Machine

namespace Sys2Proof.Machine

/-! ### A channel takes its descriptor (R325, R337) -/

/-- The descriptor that a channel may take stands at its PC, and nothing runs on the channel. -/
theorem nextDesc_some {c : Ctx} {d k : Nat} {D : Desc} (h : nextDesc c d k = some D) :
    D = BitVec.ofNat 512 (c.readNat ((c.chan d k).base + 64 * (c.chan d k).pc) 64) ∧ (c.chan d k).run = none := by
  obtain ⟨hmay, hD⟩ := Option.ite_none_right_eq_some.mp h
  simp only [Bool.and_eq_true] at hmay
  obtain ⟨⟨⟨-, hrun⟩, -⟩, -⟩ := hmay
  exact ⟨(Option.some.inj hD).symm, Option.isNone_iff_eq_none.mp hrun⟩

/-- On a WAITING channel the descriptor has its effect once its trigger is met; FUR_LOOP has none. -/
theorem furTake_takes {op d k : Nat} {D : Desc} {c : Ctx} (hn : nextDesc c d k = some D) (hst : (c.chan d k).state = 1) (hc : c.Clean)
    (ho : hOpcode D = op) (ht : op = 0x43 ∨ trigger D (c.chan d k).iter ≤ evtWord c (notifyUnit d D) (uWaitEvt D))
    (act : Desc → Nat → Ctx → Ctx) : furTake op d k act c = act D (c.chan d k).iter c := by
  obtain ⟨hD, -⟩ := nextDesc_some hn
  have hmet : (decide (op ≠ 0x43) && decide (evtWord c (notifyUnit d D) (uWaitEvt D) < trigger D (c.chan d k).iter)) = false := by
    obtain rfl | ht := ht
    · rfl
    · rw [decide_eq_false (Nat.not_lt.mpr ht), Bool.and_false]
  have hwaiting : (decide ((c.chan d k).state = 3) || decide ((c.chan d k).state = 4)) = false := by rw [hst]; rfl
  simp only [furTake, hn, eccRead_clean _ _ hc, poisonAt_clean _ _ hc, ← hD, ho, hmet, hwaiting, beq_self_eq_true, Bool.true_or, Bool.not_true,
    Bool.false_eq_true, if_false]

theorem stick_fst (top n k : Nat) : (stick top n k).1 = min top (n + k) := by
  unfold stick
  split <;> simp only <;> omega

theorem stick_snd (top n k : Nat) : (stick top n k).2 = decide (top < n + k) := by
  unfold stick
  split <;> simp_all

/-! ### FUR_LOOP (R325) -/

/-- A channel back at entry 0, ITER one on. -/
def FurChan.looped (x : FurChan) : FurChan :=
  { x with pc := 0, iter := min 0x7FFFFFFF (x.iter + 1), iterSticky := x.iterSticky || decide (0x7FFFFFFF ≤ x.iter) }

theorem loopAct_eq (d k : Nat) (c : Ctx) : loopAct d k c = c.updFur d (FurSt.updChan k FurChan.looped) := by
  have hlooped : (fun x : FurChan => { x with
      pc := 0, iter := (stick 0x7FFFFFFF x.iter 1).1, iterSticky := x.iterSticky || (stick 0x7FFFFFFF x.iter 1).2 }) = FurChan.looped := by
    funext x
    rw [stick_fst, stick_snd, FurChan.looped]
    simp only [Nat.lt_succ_iff]
  rw [← hlooped]
  rfl

theorem furLoop_loops {s : State} {d k : Nat} {D : Desc} (hw : chanOk d k = true) (hn : nextDesc s.ctx d k = some D)
    (hst : (s.ctx.chan d k).state = 1) (hc : Clean s) (ho : hOpcode D = 0x43) :
    Completes (.furLoop d k) s fun t => t.mem = s.mem ∧ OnlyChannel d k s t ∧ t.dev.outbox = s.dev.outbox ∧
      t.ctx.chan d k = (s.ctx.chan d k).looped := by
  have hop : furTake 0x43 d k (fun _ _ => loopAct d k) s.ctx = (s.ctx.sends []).updFur d (FurSt.updChan k FurChan.looped) := by
    rw [furTake_takes hn hst (State.clean_ctx hc) ho (.inl rfl), loopAct_eq, sends_nil]
  obtain ⟨hwrote, honly, hout, hchan⟩ := run_updChan hop rfl
  exact .of_run _ hw rfl ⟨hwrote.mem_eq rfl, honly, hout.trans (List.append_nil _), hchan⟩

/-! ### FUR_COMMIT (R354, R462) -/

section
variable {c : Ctx} {d k iter : Nat} {D : Desc}

theorem commitAct_checked (hok : commitOk D = true) (hcond : furReach c true (umBase (notifyUnit d D) + uCondOff D) 1 = true)
    (hcpl : hCpl D = true → furReach c true (umBase (notifyUnit d D) + uCplOff D) 64 = true) :
    commitAct d k D iter c =
      if atSheafPoint c d then c.updFur d (fun x => { x with held := some (k, iter) }) else commitDo d k D iter c := by
  have hrecord : (hCpl D && !furReach c true (umBase (notifyUnit d D) + uCplOff D) 64) = false := by
    cases h : hCpl D with
    | false => rfl
    | true => rw [hcpl h]; rfl
  simp only [commitAct, hok, hcond, hrecord, Bool.not_true, Bool.false_eq_true, if_false]

/-- An engine whose verdict `v` is committed. -/
def FurSt.committed (v : Bool) (x : FurSt) : FurSt :=
  { x with
    latch := false
    held := none
    commits := x.commits + 1
    skipCount := if v && !x.nanPolicy then (stick 65535 x.skipCount 1).1 else x.skipCount
    skipSticky := if v && !x.nanPolicy then x.skipSticky || (stick 65535 x.skipCount 1).2 else x.skipSticky }

/-- A step skipped counts; one whose NaN ends the job does not. -/
theorem committed_skipCount {x : FurSt} (h : (x.latch && x.nanPolicy) = false) :
    (x.committed x.latch).skipCount = if x.latch then min 65535 (x.skipCount + 1) else x.skipCount := by
  rw [FurSt.committed, stick_fst]
  cases hl : x.latch with
  | false => rfl
  | true =>
    rw [hl, Bool.true_and] at h
    simp only [h, Bool.not_false, Bool.and_self]

/-- On a die other than 0, without a record, a signal or an end of the job, a commit writes the verdict and changes its engine. -/
theorem commitDo_quiet (hc : c.Clean) (hd : d ≠ 0) (hend : ((c.fur d).latch && (c.fur d).nanPolicy) = false) (hcpl : hCpl D = false)
    (hsig : hSig D = false) : commitDo d k D iter c =
      ((c.write (umBase (notifyUnit d D) + uCondOff D) [BitVec.ofNat 8 (b2n (c.fur d).latch)]).sends []).updFur d
        (fun x => (x.committed (c.fur d).latch).updChan k (FurChan.ended D 0)) := by
  simp only [commitDo, store_clean _ _ hc, furEnd_quiet hcpl hsig, hend, hd, decide_false, Bool.false_and, Bool.false_eq_true, if_false,
    updFur_updFur, sends_nil]
  rfl

end

section
variable {s : State} {d k : Nat} {D : Desc} (hw : chanOk d k = true) (hn : nextDesc s.ctx d k = some D) (hst : (s.ctx.chan d k).state = 1)
  (hc : Clean s) (ho : hOpcode D = 0x42) (ht : trigger D (s.ctx.chan d k).iter ≤ evtWord s.ctx (notifyUnit d D) (uWaitEvt D))
  (hok : commitOk D = true) (hcond : furReach s.ctx true (umBase (notifyUnit d D) + uCondOff D) 1 = true)
  (hrec : hCpl D = true → furReach s.ctx true (umBase (notifyUnit d D) + uCplOff D) 64 = true)
include hn hst hc ho ht hok hcond hrec

theorem furTake_commit : furTake 0x42 d k (commitAct d k) s.ctx =
    if atSheafPoint s.ctx d then s.ctx.updFur d (fun x => { x with held := some (k, (s.ctx.chan d k).iter) })
    else commitDo d k D (s.ctx.chan d k).iter s.ctx := by
  rw [furTake_takes hn hst (State.clean_ctx hc) ho (.inr ht), commitAct_checked hok hcond hrec]

include hw

theorem furCommit_held (hpoint : atSheafPoint s.ctx d = true) : Completes (.furCommit d k) s fun t => t.mem = s.mem ∧ OnlyDie d s t ∧
    t.dev.outbox = s.dev.outbox ∧ t.ctx.fur d = { s.ctx.fur d with held := some (k, (s.ctx.chan d k).iter) } := by
  have hop : furTake 0x42 d k (commitAct d k) s.ctx =
      (s.ctx.sends []).updFur d (fun x => { x with held := some (k, (s.ctx.chan d k).iter) }) := by
    rw [furTake_commit hn hst hc ho ht hok hcond hrec, if_pos hpoint, sends_nil]
  obtain ⟨hwrote, honly, hout, hfur⟩ := run_updFur hop rfl
  exact .of_run _ hw rfl ⟨hwrote.mem_eq rfl, honly, hout.trans (List.append_nil _), hfur⟩

theorem furCommit_does (hpoint : atSheafPoint s.ctx d = false) :
    Completes (.furCommit d k) s (Becomes s (commitDo d k D (s.ctx.chan d k).iter s.ctx)) :=
  completes_becomes hw rfl (by rw [furTake_commit hn hst hc ho ht hok hcond hrec, hpoint, if_neg Bool.false_ne_true])

theorem furCommit_writes (hpoint : atSheafPoint s.ctx d = false) (hd : d ≠ 0)
    (hend : ((s.ctx.fur d).latch && (s.ctx.fur d).nanPolicy) = false) (hcpl : hCpl D = false) (hsig : hSig D = false) :
    let v := umBase (notifyUnit d D) + uCondOff D
    let f := s.ctx.fur d
    let x := s.ctx.chan d k
    Completes (.furCommit d k) s fun t => t.byte v = BitVec.ofNat 8 (b2n f.latch) ∧ KeepsMemoryBut v 1 s t ∧ OnlyDie d s t ∧
      t.dev.outbox = s.dev.outbox ∧ (t.ctx.fur d).latch = false ∧ (t.ctx.fur d).held = none ∧
      (t.ctx.fur d).skipCount = (if f.latch then min 65535 (f.skipCount + 1) else f.skipCount) ∧
      (∀ j, j ≠ k → t.ctx.chan d j = s.ctx.chan d j) ∧
      t.ctx.chan d k = { x with pc := x.pc + 1, state := if x.len ≤ x.pc + 1 then 0 else 1 } := by
  intro v f x
  have hop : furTake 0x42 d k (commitAct d k) s.ctx = ((s.ctx.write v [BitVec.ofNat 8 (b2n f.latch)]).sends []).updFur d
      (fun y => (y.committed f.latch).updChan k (FurChan.ended D 0)) := by
    rw [furTake_commit hn hst hc ho ht hok hcond hrec, hpoint, if_neg Bool.false_ne_true, commitDo_quiet (State.clean_ctx hc) hd hend hcpl hsig]
  obtain ⟨hwrote, honly, hout, hfur⟩ := run_updFur hop (Ctx.write_dev ..)
  obtain ⟨hsame, hothers⟩ := chan_of_chans (k := k) (g := FurChan.ended D 0) (congrArg FurSt.chans hfur)
  obtain ⟨-, hidle⟩ := nextDesc_some hn
  refine .of_run _ hw rfl ⟨?_, hwrote.keepsMemoryBut, honly, hout.trans (List.append_nil _), by rw [hfur]; rfl, by rw [hfur]; rfl, ?_, hothers, ?_⟩
  · have hbytes := hwrote.bytes_write
    simpa [State.bytes] using hbytes
  · rw [hfur]; exact committed_skipCount hend
  · rw [hsame, ended_completed D (.inl hst), ← hidle]

end

/-! ### The first words leave (R329, R332) -/

/-- The rotation after words have taken their modules. -/
def turned (D : Desc) (r : Nat) (ws : List FurWord) : Nat := ws.foldl (fun r w => (r + crossingWords D w) % 4) r

/-- The messages of words that leave over a crossing, from rotation `r` on. -/
def wordsOut (d k : Nat) (D : Desc) : Nat → List FurWord → List Msg
  | _, [] => []
  | r, w :: ws => .furWord d k (crossingHop d r) w :: wordsOut d k D ((r + crossingWords D w) % 4) ws

theorem foldl_sendWord {ws : List FurWord} (hl : ∀ w ∈ ws, w.level = 0) (d k : Nat) (D : Desc) (c : Ctx) (f : FurSt → FurSt) :
    ws.foldl (fun a w => sendWord d k D w a) (c.updFur d f) = (c.sends (wordsOut d k D (f (c.fur d)).rot ws)).updFur d
      (fun x => { f x with rot := turned D (f x).rot ws }) := by
  induction ws generalizing c f with
  | nil => rw [wordsOut, sends_nil]; rfl
  | cons w ws ih =>
    rw [List.foldl_cons, sendWord_crossing (hl w List.mem_cons_self), updFur_sends, updFur_updFur, updFur_same,
      ih fun v hv => hl v (List.mem_cons_of_mem w hv), sends_sends]
    rfl

/-- Words of a format but SPARSE take one module each. -/
theorem crossingWords_dense {D : Desc} (h : uFormat D ≠ 9) (w : FurWord) : crossingWords D w = 1 := by
  rw [crossingWords, decide_eq_false h]; rfl

theorem turned_dense {D : Desc} (h : uFormat D ≠ 9) (r : Nat) (ws : List FurWord) : turned D r ws % 4 = (r + ws.length) % 4 := by
  induction ws generalizing r with
  | nil => rfl
  | cons w ws ih =>
    have hrest := ih ((r + 1) % 4)
    rw [turned, List.foldl_cons, crossingWords_dense h, List.length_cons]
    rw [turned] at hrest
    omega

theorem wordsOut_dense {D : Desc} (h : uFormat D ≠ 9) (d k r : Nat) (word : Nat → FurWord) (es : List Nat) :
    wordsOut d k D r (es.map word) = (List.range es.length).map (fun i => Msg.furWord d k (crossingHop d (r + i)) (word (es.getD i 0))) := by
  induction es generalizing r with
  | nil => rfl
  | cons e es ih =>
    have hturn (i : Nat) : crossingHop d ((r + 1) % 4 + i) = crossingHop d (r + (i + 1)) := by
      rw [← crossingHop_mod d (_ + i), ← crossingHop_mod d (r + _)]
      congr 1
      omega
    rw [List.map_cons, wordsOut, crossingWords_dense h, ih, List.length_cons, List.range_succ_eq_map, List.map_cons, List.map_map]
    simp only [hturn]
    rfl

theorem contributionWord_level (c : Ctx) (D : Desc) (g : FurGeo) (l e : Nat) : (contributionWord c D g l e).level = l := by
  simp only [contributionWord]
  split <;> rfl

/-- Messages sent and changes of engines leave what this die contributes: its sources, and their poison. -/
theorem contributionWord_sends (c : Ctx) (l : List Msg) : contributionWord (c.sends l) = contributionWord c := rfl
theorem contributionWord_updFur (c : Ctx) (d : Nat) (f : FurSt → FurSt) : contributionWord (c.updFur d f) = contributionWord c := rfl

theorem contributionWord_sendWord (d k : Nat) (D : Desc) (w : FurWord) (c : Ctx) :
    contributionWord (sendWord d k D w c) = contributionWord c := by
  by_cases h : w.level = 0
  · rw [sendWord_crossing h, contributionWord_updFur, contributionWord_sends]
  · rw [sendWord_link h, contributionWord_sends]

theorem foldl_contribution {d k : Nat} {D : Desc} {g : FurGeo} {c b : Ctx} (h : contributionWord b = contributionWord c) (es : List Nat) :
    es.foldl (fun a e => sendWord d k D (contributionWord a D g 0 e) a) b =
      es.foldl (fun a e => sendWord d k D (contributionWord c D g 0 e) a) b := by
  induction es generalizing b with
  | nil => rw [List.foldl_nil, List.foldl_nil]
  | cons e es ih =>
    have hsent : contributionWord (sendWord d k D (contributionWord c D g 0 e) b) = contributionWord c := (contributionWord_sendWord ..).trans h
    rw [List.foldl_cons, List.foldl_cons, h, ih hsent]

/-- The elements at which the words that this die begins start (R332). -/
def firstElems (c : Ctx) (d : Nat) (D : Desc) (g : FurGeo) : List Nat :=
  (ownersAt g 0 0 (fun b => d == (b + 1) % 4)).flatMap (wordsOfOwner c D g)

theorem firstWords_sums {D : Desc} {d : Nat} {g : FurGeo} {c b : Ctx} (h : sums? D = true) (hword : contributionWord b = contributionWord c)
    (helems : firstElems b d D g = firstElems c d D g) (k : Nat) :
    firstWords d k D g b = (firstElems c d D g).foldl (fun a e => sendWord d k D (contributionWord c D g 0 e) a) b := by
  rw [firstWords, if_pos h, ← helems]
  exact foldl_contribution hword _

/-! ### FUR_REDUCE and FUR_SCALE start (R327, R340, R347) -/

/-- A channel on which a reduction starts. -/
def FurChan.starts (D : Desc) (iter now : Nat) (x : FurChan) : FurChan :=
  { x with state := 2, run := some { desc := D, iter := iter, since := now } }

/-- The headers a reduction sends to its rings. -/
def headersOut (c : Ctx) (d k : Nat) (D : Desc) : List Msg :=
  (usedLevels D (geoOf c d D)).map (fun l => Msg.furHeader d k (hopOf c d k (uGroup D) l) (headerOf c D (geoOf c d D) l))

/-- A summing reduction's words land later, with the travelling sums. -/
theorem ownLanding_sums {D : Desc} (h : sums? D = true) (g : FurGeo) (go : Ctx → Ctx) (c : Ctx) : ownLanding D g go c = go c := by
  simp only [ownLanding, h, if_true]

section
variable {c : Ctx} {d k iter : Nat} {D : Desc} (hc : c.Clean) (hcond : uCondEn D = false) (hgroup : groupOk c d (uGroup D) = true)
  (hport : portGone c d (uGroup D) = false) (hok : reduceOk D = true) (hlist : furReach c false (listSpan D).1 (listSpan D).2 = true)
  (hlists : listsOk c D = true) (hspans : ∀ p ∈ furSpans c d D (geoOf c d D), furReach c p.1 p.2.1 p.2.2 = true) (hsums : sums? D = true)
include hc hcond hgroup hport hok hlist hlists hspans hsums

theorem reduceAct_starts : reduceAct d k D iter c =
    (firstElems c d D (geoOf c d D)).foldl (fun a e => sendWord d k D (contributionWord c D (geoOf c d D) 0 e) a)
      ((c.sends (headersOut c d k D)).updFur d (FurSt.updChan k (FurChan.starts D iter c.dev.slow))) := by
  have hread (l : List (Bool × Nat × Nat)) : l.foldl (fun a s => eccRead s.2.1 s.2.2 a) c = c := by
    rw [← List.foldl_map (f := fun s : Bool × Nat × Nat => s.2) (g := fun a p => eccRead p.1 p.2 a)]
    exact foldl_eccRead_clean _ hc
  have hheaders : (usedLevels D (geoOf c d D)).foldl
      (fun a l => a.send (.furHeader d k (hopOf a d k (uGroup D) l) (headerOf a D (geoOf c d D) l)))
      (c.updFur d (FurSt.updChan k (FurChan.starts D iter c.dev.slow))) =
      (c.sends (headersOut c d k D)).updFur d (FurSt.updChan k (FurChan.starts D iter c.dev.slow)) := by
    rw [foldl_send (m := fun a l => Msg.furHeader d k (hopOf a d k (uGroup D) l) (headerOf a D (geoOf c d D) l)) fun _ _ _ => rfl]
    simp only [hopOf_updFur (f := FurSt.updChan k (FurChan.starts D iter c.dev.slow)) (c := c) (d := d) rfl rfl]
    rfl
  simp only [reduceAct, hcond, hgroup, hport, hok, hlist, eccRead_clean _ _ hc, hlists, find?_unreached hspans, ownLanding_sums hsums, hread,
    Bool.false_and, Bool.not_true, Bool.false_eq_true, if_false]
  exact (congrArg (firstWords d k D _) hheaders).trans (firstWords_sums hsums
    ((contributionWord_updFur ..).trans (contributionWord_sends ..)) rfl k)

/-- The start in one: messages, and a change of the channel and of the rotation. -/
theorem reduceAct_sends :
    let ws := (firstElems c d D (geoOf c d D)).map (contributionWord c D (geoOf c d D) 0)
    reduceAct d k D iter c = (c.sends (headersOut c d k D ++ wordsOut d k D (c.fur d).rot ws)).updFur d
      (fun x => { x.updChan k (FurChan.starts D iter c.dev.slow) with rot := turned D x.rot ws }) := by
  intro ws
  have hl : ∀ w ∈ ws, w.level = 0 := by
    intro w hw
    obtain ⟨e, -, rfl⟩ := List.mem_map.mp hw
    exact contributionWord_level ..
  rw [reduceAct_starts hc hcond hgroup hport hok hlist hlists hspans hsums, ← List.foldl_map (g := fun a w => sendWord d k D w a),
    foldl_sendWord hl, sends_sends]
  rfl

end

/-- A reduction's start on a channel, by the instruction of either opcode. -/
theorem completes_reduceStart {s : State} {d k op : Nat} {D : Desc} {i : Instr} (hw : i.wf = true)
    (he : exec i s = perform i s (furTake op d k (reduceAct d k))) (hn : nextDesc s.ctx d k = some D) (hst : (s.ctx.chan d k).state = 1)
    (hc : Clean s) (ho : hOpcode D = op) (ht : trigger D (s.ctx.chan d k).iter ≤ evtWord s.ctx (notifyUnit d D) (uWaitEvt D))
    (hcond : uCondEn D = false) (hgroup : groupOk s.ctx d (uGroup D) = true) (hport : portGone s.ctx d (uGroup D) = false)
    (hok : reduceOk D = true) (hlist : furReach s.ctx false (listSpan D).1 (listSpan D).2 = true) (hlists : listsOk s.ctx D = true)
    (hspans : ∀ p ∈ furSpans s.ctx d D (geoOf s.ctx d D), furReach s.ctx p.1 p.2.1 p.2.2 = true) (hsums : sums? D = true) :
    let words := firstElems s.ctx d D (geoOf s.ctx d D)
    let word := contributionWord s.ctx D (geoOf s.ctx d D) 0
    let starts := FurChan.starts D (s.ctx.chan d k).iter s.dev.slow
    Completes i s fun t => t.mem = s.mem ∧ OnlyChannelRot d k s t ∧
      t.dev = (words.foldl (fun a e => sendWord d k D (word e) a)
        ((s.ctx.sends (headersOut s.ctx d k D)).updFur d (FurSt.updChan k starts))).dev ∧
      t.ctx.chan d k = starts (s.ctx.chan d k) ∧
      (uFormat D ≠ 9 → (t.ctx.fur d).rot % 4 = ((s.ctx.fur d).rot + words.length) % 4 ∧
        t.dev.outbox = s.dev.outbox ++ headersOut s.ctx d k D ++ (List.range words.length).map (fun i =>
          Msg.furWord d k (crossingHop d ((s.ctx.fur d).rot + i)) (word (words.getD i 0)))) := by
  intro words word starts
  have htake := furTake_takes hn hst (State.clean_ctx hc) ho (.inr ht) (reduceAct d k)
  have hop := htake.trans (reduceAct_sends (State.clean_ctx hc) hcond hgroup hport hok hlist hlists hspans hsums)
  obtain ⟨hwrote, honly, hout, hchan, hrot⟩ := run_updChanRot (r := fun n => turned D n (words.map word)) hop rfl
  refine .of_run _ hw he ⟨hwrote.mem_eq rfl, honly, ?_, hchan, fun hdense => ⟨?_, ?_⟩⟩
  · rw [State.run_dev, htake, reduceAct_starts (State.clean_ctx hc) hcond hgroup hport hok hlist hlists hspans hsums]
    rfl
  · rw [hrot, turned_dense hdense, List.length_map]
  · rw [hout, wordsOut_dense hdense, List.append_assoc]

/-- Settles O39: each descriptor's effect is one change of its channel and engine, with a commit's verdict written and a reduction's headers
and first words sent. -/
theorem furChannelTakesItsDescriptor : Obligations.FurChannelTakesItsDescriptor := by
  unfold Obligations.FurChannelTakesItsDescriptor
  intro s d k D hw hn hst hc
  refine ⟨fun ho => ?loops, fun ht => ⟨fun ho hok hcond hrec => ⟨fun hpoint => ?held, fun hpoint => ?does,
    fun hpoint hd hend hcpl hsig => ?writes⟩, fun i hi ho hcond hgroup hport hok hlist hlists hspans hsums => ?starts⟩⟩
  case loops => exact furLoop_loops hw hn hst hc ho
  case held => exact furCommit_held hw hn hst hc ho ht hok hcond hrec hpoint
  case does => exact furCommit_does hw hn hst hc ho ht hok hcond hrec hpoint
  case writes => exact furCommit_writes hw hn hst hc ho ht hok hcond hrec hpoint hd hend hcpl hsig
  case starts =>
    obtain rfl | rfl : i = (0x40, .furReduce d k) ∨ i = (0x41, .furScale d k) := by simpa using hi
    · exact completes_reduceStart (i := .furReduce d k) hw rfl hn hst hc ho ht hcond hgroup hport hok hlist hlists hspans hsums
    · exact completes_reduceStart (i := .furScale d k) hw rfl hn hst hc ho ht hcond hgroup hport hok hlist hlists hspans hsums

end Sys2Proof.Machine

/-! # Serving records, steps and hand-off: proofs -/

namespace Sys2Proof.Machine

/-! ### A record is taken (R375) -/

/-- Taking a record moves a pair's HEAD and the round robin, no other field. -/
theorem recordTaken_keeps {β : Type} {g : Ctx → β} (hp : ∀ c q f, g (c.updPair q f) = g c)
    (hs : ∀ c n, g (c.updSrv (fun v => { v with turn := n })) = g c) (s : State) (src : Source) : g (recordTaken s src) = g s.ctx := by
  cases src with
  | pair q => exact (hs _ q).trans (hp ..)
  | frontEnd pkg => exact hs _ _

@[simp] theorem recordTaken_job (s : State) (src : Source) : (recordTaken s src).dev.job = s.dev.job :=
  recordTaken_keeps (g := fun c => c.dev.job) (fun _ _ _ => rfl) (fun _ _ => rfl) s src
@[simp] theorem recordTaken_slow (s : State) (src : Source) : (recordTaken s src).dev.slow = s.dev.slow :=
  recordTaken_keeps (g := fun c => c.dev.slow) (fun _ _ _ => rfl) (fun _ _ => rfl) s src
@[simp] theorem recordTaken_ledger (s : State) (src : Source) : (recordTaken s src).srv.ledger = s.dev.srv.ledger :=
  recordTaken_keeps (g := fun c => c.srv.ledger) (fun _ _ _ => rfl) (fun _ _ => rfl) s src
@[simp] theorem recordTaken_quotaAdjust (s : State) (src : Source) : (recordTaken s src).srv.quotaAdjust = s.dev.srv.quotaAdjust :=
  recordTaken_keeps (g := fun c => c.srv.quotaAdjust) (fun _ _ _ => rfl) (fun _ _ => rfl) s src
@[simp] theorem recordTaken_reclaimLimit (s : State) (src : Source) : (recordTaken s src).srv.reclaimLimit = s.dev.srv.reclaimLimit :=
  recordTaken_keeps (g := fun c => c.srv.reclaimLimit) (fun _ _ _ => rfl) (fun _ _ => rfl) s src

/-- A record that is ready, of an opcode the command takes, is taken and acted on. -/
theorem takeRecord_ready {s : State} {src : Source} {d : Desc} {mine : Nat → Bool} (hr : RecordReady s src d) (hm : mine (rOpcode d) = true)
    (act : Ctx → Ctx) : takeRecord mine src d act s.ctx = act (recordTaken s src) := by
  obtain ⟨hseq, -, hturn, hpair⟩ := hr
  cases src with
  | pair q =>
    obtain ⟨hready, hrec⟩ := hpair q rfl
    have hturn : sourceTurn s.ctx q = true := hturn
    simp only [takeRecord, hseq, hm, hready, hrec, hturn, Bool.not_true, Bool.or_self, Bool.false_eq_true, beq_self_eq_true, Bool.and_self,
      if_false, if_true]
    rfl
  | frontEnd pkg =>
    simp only [takeRecord, hseq, hm, hturn, Bool.not_true, Bool.or_self, Bool.false_eq_true, if_false, if_true]
    rfl

/-- A command that takes a ready record and ends its action with the sequencer's work. -/
theorem completes_record {i : Instr} {s : State} {src : Source} {d : Desc} {mine : Nat → Bool} {act : Ctx → Ctx} {c : Ctx}
    (hr : RecordReady s src d) (hw : i.wf = src.wf) (he : exec i s = perform i s (takeRecord mine src d act)) (hm : mine (rOpcode d) = true)
    (hact : act (recordTaken s src) = schedule c) : Completes i s fun t => AfterSequencer s c t :=
  have ⟨_, hsrc, _⟩ := hr
  completes_becomes (hw.trans hsrc) he ((takeRecord_ready hr hm act).trans hact)

/-! ### SUBMIT (R376, R380) -/

/-- Status 0 stands behind all the refusals. -/
theorem submitStatus_eq_zero_iff (c : Ctx) (d : Desc) : submitStatus c d = 0 ↔
    submitOk c d = true ∧ c.req? (rId d) = none ∧ (variantOf c (sVariant d)).valid = true ∧ submitDisabled c d = false ∧
      sPromptLen d + 1 ≤ sMaxLen d ∧ sMaxLen d ≤ c.srv.maxLenLimit ∧ admits c false [] [] (requestOf c d 0) = true ∧
      c.srv.reqs.length < 32768 := by
  have hrefusal {p : Prop} [Decidable p] {n m : Nat} : (if p then n + 1 else m) = 0 ↔ ¬ p ∧ m = 0 := by split <;> simp [*]
  simp only [submitStatus, hrefusal, Bool.not_eq_true', Bool.not_eq_false, Bool.not_eq_true, Bool.or_eq_true, decide_eq_true_eq,
    Option.isSome_eq_false_iff, Option.isNone_iff_eq_none, not_or, Nat.not_lt, Nat.not_le, and_true, and_assoc]

section
variable {c : Ctx} {src : Source} {d : Desc} (hend : c.dev.job.ending = false)
include hend

theorem submitAct_joins (ho : rOpcode d = 1) (h : submitStatus c d = 0) : submitAct src d c = schedule (reply src (rId d) 1 0
    (c.updSrv (fun v => { v with stamp := v.stamp + 1, reqs := v.reqs ++ [requestOf c d v.stamp] }))) := by
  simp only [submitAct, hend, h, answerRecord, ho, Bool.false_eq_true, if_false, if_true]
  rfl

theorem submitAct_refuses (ho : rOpcode d = 1) (h : submitStatus c d ≠ 0) :
    submitAct src d c = schedule (reply src (rId d) 1 (submitStatus c d) c) := by
  simp only [submitAct, hend, h, answerRecord, ho, Bool.false_eq_true, if_false]

/-! ### CANCEL (R396) -/

theorem cancelAct_ends {r : Req} (ho : rOpcode d = 2) (hz : (zeroBytes d 1 3 && zeroBytes d 8 63) = true) (hr : c.req? (rId d) = some r) :
    cancelAct src d c = schedule (reply src (rId d) 2 0x10
      (finalize r 6 0x10 (if r.state = 3 && r.cause = 3 then c.send (.abandon r.decodePkg r.id) else c))) := by
  simp only [cancelAct, hend, hz, hr, answerRecord, ho, Bool.not_true, Bool.false_eq_true, if_false]

theorem cancelAct_forwards {pkg : Nat} (hz : (zeroBytes d 1 3 && zeroBytes d 8 63) = true) (hr : c.req? (rId d) = none)
    (hf : (c.srv.ledger.filter (fun e => e.id == rId d)).reverse.findSome? (fun e => e.forward) = some pkg) :
    cancelAct src d c = schedule (c.send (.cancel pkg (rId d))) := by
  simp only [cancelAct, hend, hz, hr, hf, Bool.not_true, Bool.false_eq_true, if_false]

/-- The ledger entries of a request of which none was forwarded name its end, if they are any. -/
theorem cancelAct_tells (ho : rOpcode d = 2) (hz : (zeroBytes d 1 3 && zeroBytes d 8 63) = true) (hr : c.req? (rId d) = none)
    (hf : (c.srv.ledger.filter (fun e => e.id == rId d)).all (fun e => e.forward.isNone) = true) :
    let mine := c.srv.ledger.filter (fun e => e.id == rId d)
    cancelAct src d c = schedule (reply src (rId d) 2
      (if mine = [] then 0x13 else if mine.any (fun e => e.state == 5) then 0x11 else 0x12) c) := by
  intro mine
  have hnone : mine.reverse.findSome? (fun e => e.forward) = none :=
    List.findSome?_eq_none_iff.mpr fun e he => Option.isNone_iff_eq_none.mp (List.all_eq_true.mp hf e (List.mem_reverse.mp he))
  simp only [cancelAct, hend, hz, hr, show (c.srv.ledger.filter (fun e => e.id == rId d)) = mine from rfl, hnone, answerRecord, ho,
    Bool.not_true, Bool.false_eq_true, if_false]
  cases mine <;> rfl

/-! ### INPUT and END (R379) -/

section
variable {r : Req} (hr : c.req? (rId d) = some r)
include hr

/-- An INPUT that fits waits behind those a paused conversation holds, or begins the next turn of one that waits in T0. -/
theorem inputAct_takes (ho : rOpcode d = 3)
    (hz : (zeroBytes d 1 3 && zeroBytes d 8 15 && zeroBytes d 22 23 && zeroBytes d 28 63 && promptOk c (fld d 16 0 48) (fld d 24 0 32)) = true)
    (ht : takesInput r = true) (hl : r.length + r.promptLeft + (r.inputs.map (fun p => p.2)).sum + fld d 24 0 32 ≤ r.maxLen) :
    inputAct src d c = schedule (reply src (rId d) 3 0 (c.updReq r.id (fun x =>
      if r.state = 4 then { x with inputs := x.inputs ++ [(fld d 16 0 48, fld d 24 0 32)], runnable := true }
      else { x with state := 1, promptAddr := fld d 16 0 48, promptLeft := fld d 24 0 32, turnEmitted := 0, turnOver := false }))) := by
  simp only [inputAct, hend, hz, hr, ht, Nat.not_lt.mpr hl, answerRecord, ho, Bool.not_true, Bool.false_eq_true, if_false]
  split <;> rfl

theorem endAct_completes (ho : rOpcode d = 4) (hz : (zeroBytes d 1 3 && zeroBytes d 8 63) = true) (hwait : waits r = true) (hst : r.state = 3) :
    endAct src d c = schedule (reply src (rId d) 4 0 (finalize r 5 4 c)) := by
  simp only [endAct, hend, hz, hr, hwait, hst, answerRecord, ho, Bool.not_true, Bool.false_eq_true, beq_self_eq_true, Bool.and_self, if_false,
    if_true]

end

/-! ### QUOTA and VARIANT_DISABLE (R398–R401) -/

/-- The holder a QUOTA names. -/
def quotaHolder (d : Desc) : Holder := if fld d 1 0 8 = 0 then .variant (fld d 2 0 16) else .tenant (fld d 2 0 16)

/-- A quota within the image's value is set; a use beyond it is reclaimed. -/
theorem quotaAct_sets (ho : rOpcode d = 5) (hk : fld d 1 0 8 ≤ 1) (hix : fld d 2 0 16 < (if fld d 1 0 8 = 0 then 1024 else 256))
    (hz : (zeroBytes d 4 7 && zeroBytes d 12 63) = true) (ha : c.srv.quotaAdjust = true) (hi : fld d 8 0 32 ≤ holderImage c (quotaHolder d)) :
    let h := quotaHolder d
    let n := fld d 8 0 32
    quotaAct src d c = schedule (reply src (rId d) 5 0x14
      (if n < holderUse c (ofHolder h) then reclaim h (setHolder h n true (some (c.dev.slow + c.srv.reclaimLimit, false)) c)
        else setHolder h n false none c)) := by
  intro h n
  have hok : (decide (fld d 1 0 8 ≤ 1) && decide (fld d 2 0 16 < (if fld d 1 0 8 = 0 then 1024 else 256)) && zeroBytes d 4 7 &&
      zeroBytes d 12 63) = true := by
    rw [Bool.and_assoc, hz, decide_eq_true hk, decide_eq_true hix, Bool.and_self, Bool.and_self]
  have hwithin : (!c.srv.quotaAdjust || decide (holderImage c h < n)) = false := by
    rw [ha, decide_eq_false (Nat.not_lt.mpr hi)]
    rfl
  simp only [quotaAct, hend, hok, show (if fld d 1 0 8 = 0 then Holder.variant (fld d 2 0 16) else .tenant (fld d 2 0 16)) = h from rfl,
    show fld d 8 0 32 = n from rfl, hwithin, answerRecord, ho, Bool.not_true, Bool.false_eq_true, if_false]
  split <;> rfl

theorem variantDisableAct_drains (ho : rOpcode d = 6) (hk : fld d 1 0 8 = 0) (hix : fld d 2 0 16 < 1024) (hz : zeroBytes d 4 63 = true)
    (hv : (variantOf c (fld d 2 0 16)).valid = true) :
    variantDisableAct src d c = schedule (reply src (rId d) 6 0 (disableFn (.variant (fld d 2 0 16)) c)) := by
  simp only [variantDisableAct, hend, hk, hix, hz, hv, answerRecord, ho, beq_self_eq_true, decide_true, Bool.and_self, Bool.not_true,
    Bool.false_eq_true, if_false]

end

/-! ### The records' commands -/

/-- Settles O31: the statuses are asked in order, and each answer is one branch of SUBMIT's meaning on the context with the record taken. -/
theorem submitJoinsOrIsRefusedInOrder : Obligations.SubmitJoinsOrIsRefusedInOrder := by
  unfold Obligations.SubmitJoinsOrIsRefusedInOrder
  intro s src d hr ho hend c
  have hend : c.dev.job.ending = false := by rwa [recordTaken_job]
  exact ⟨submitStatus_eq_zero_iff c d, fun h => completes_record hr rfl rfl (by rw [ho]; rfl) (submitAct_joins hend ho h),
    fun h => completes_record hr rfl rfl (by rw [ho]; rfl) (submitAct_refuses hend ho h)⟩

/-- Settles O32: the branches of CANCEL's meaning; a ledger without a forwarding entry of the request passes nothing on. -/
theorem cancelEndsTheRequest : Obligations.CancelEndsTheRequest := by
  unfold Obligations.CancelEndsTheRequest
  intro s src d hr ho hend hz c
  have hend : c.dev.job.ending = false := by rwa [recordTaken_job]
  have hdone {c1 : Ctx} (hact : cancelAct src d c = schedule c1) : Completes (.cancel src d) s fun t => AfterSequencer s c1 t :=
    completes_record hr rfl rfl (by rw [ho]; rfl) hact
  have hledger : c.srv.ledger = s.dev.srv.ledger := recordTaken_ledger s src
  refine ⟨fun r hreq => hdone (cancelAct_ends hend ho hz hreq), fun hreq => ?_⟩
  rw [← hledger]
  exact ⟨fun pkg hf => hdone (cancelAct_forwards hend hz hreq hf), fun hf => hdone (cancelAct_tells hend ho hz hreq hf)⟩

/-- Settles O33: the conversation's state selects the branch. -/
theorem conversationsTakeInputAndEnd : Obligations.ConversationsTakeInputAndEnd := by
  unfold Obligations.ConversationsTakeInputAndEnd
  intro s src d r hr hend hreq c a n
  have hend : c.dev.job.ending = false := by rwa [recordTaken_job]
  refine ⟨fun ho hz ht hl => ?input, fun ho hz hwait hst => ?ends⟩
  case input =>
    have hact := inputAct_takes (src := src) hend hreq ho hz ht hl
    have hdone := completes_record (i := .input src d) hr rfl rfl (by rw [ho]; rfl) hact
    exact ⟨fun hst => by simpa only [if_pos hst] using hdone, fun hst => by simpa only [if_neg hst] using hdone⟩
  case ends => exact completes_record hr rfl rfl (by rw [ho]; rfl) (endAct_completes hend hreq ho hz hwait hst)

/-- Settles O34: the holder's use selects QUOTA's branch; VARIANT_DISABLE's checks all pass. -/
theorem quotaAndVariantDisableTakeEffect : Obligations.QuotaAndVariantDisableTakeEffect := by
  unfold Obligations.QuotaAndVariantDisableTakeEffect
  intro s src d hr hend c ix h n
  have hend : c.dev.job.ending = false := by rwa [recordTaken_job]
  refine ⟨fun ho hk hix hz ha hi => ?quota, fun ho hk hix hz hv => ?disable⟩
  case quota =>
    have hact := quotaAct_sets (src := src) hend ho hk hix hz ((recordTaken_quotaAdjust s src).trans ha) hi
    have hdone := completes_record (i := .quota src d) hr rfl rfl (by rw [ho]; rfl) hact
    rw [recordTaken_slow, recordTaken_reclaimLimit] at hdone
    refine ⟨fun hu => ?_, fun hu => ?_⟩
    · rwa [if_neg (show ¬ fld d 8 0 32 < holderUse c (ofHolder (quotaHolder d)) from Nat.not_lt.mpr hu)] at hdone
    · rwa [if_pos (show fld d 8 0 32 < holderUse c (ofHolder (quotaHolder d)) from hu)] at hdone
  case disable => exact completes_record hr rfl rfl (by rw [ho]; rfl) (variantDisableAct_drains hend ho hk hix hz hv)

end Sys2Proof.Machine

namespace Sys2Proof.Machine

/-! ### BUILD_STEP (R384) -/

/-- The decode entries of the step, taken in scan order; a package of the PREFILL role has none (R368). -/
def stepDecodes (c : Ctx) : Building := (if c.srv.role = 1 then [] else [0, 1, 2, 3].flatMap (scanOrder c)).foldl (takeDecode c) {}

/-- Its chunks behind them, and the worst case of both. -/
def stepChunks (c : Ctx) : List (Nat × Nat) × Nat :=
  takeChunks c ((deadlineOf c (admittedSet c)).getD 0)
    (sortBy (fun r => r.cls) (sortBy (fun r => r.admittedAt)
      (c.srv.reqs.filter (fun r => r.state == 1 && r.admitted && !r.pauseDue && chunkRole c r))))
    (stepDecodes c).variants (decodePart c (stepDecodes c))

/-- Requests without room at their destination are blocked. -/
def blockRequests (ids : List Nat) (c : Ctx) : Ctx := ids.foldl (fun a id => a.updReq id (fun r => { r with state := 3, cause := 1 })) c

/-- What the sequencer's books do not hold: the log of writes and the other devices. -/
def Ctx.besideSrv (c : Ctx) : List Wr × Dev := (c.log, { c.dev with srv := {} })

@[simp] theorem updSrv_besideSrv (c : Ctx) (f : SrvSt → SrvSt) : (c.updSrv f).besideSrv = c.besideSrv := rfl

theorem blockRequests_besideSrv (ids : List Nat) (c : Ctx) : (blockRequests ids c).besideSrv = c.besideSrv :=
  forAll_keeps (f := fun id a => a.updReq id (fun r => { r with state := 3, cause := 1 })) (fun _ a => updSrv_besideSrv a _) ids c

/-- The books with a step in flight: its requests are stamped, and each class's rotation point is its last one. -/
def SrvSt.startStep (rotation : Tab Nat) (p : StepPlan) (v : SrvSt) : SrvSt :=
  { v with
    stamp := v.stamp + 1
    plan := some p
    rotation := rotation.foldl (fun t x => Tab.set t x.1 x.2) v.rotation
    reqs := v.reqs.map (fun r =>
      if p.decodes.any (fun e => e.1 == r.id) || p.chunks.any (fun e => e.1 == r.id) then { r with steppedAt := v.stamp } else r) }

/-- With an entry or a chunk to run, the step is in flight. -/
theorem buildStepOp_builds {c : Ctx} (hseq : seqRuns c = true) (hend : c.dev.job.ending = false) (hplan : c.srv.plan = none) :
    let c0 := unblock c
    let b := stepDecodes c0
    let w := stepChunks c0
    (b.decodes ≠ [] ∨ w.1 ≠ []) →
    buildStepOp c = (blockRequests b.blocked c0).updSrv
      (SrvSt.startStep b.rotation { decodes := b.decodes, chunks := w.1, worst := w.2, since := (blockRequests b.blocked c0).dev.slow }) := by
  intro c0 b w hwork
  have hsome : (b.decodes.isEmpty && w.1.isEmpty) = false := by
    simpa only [Bool.and_eq_false_iff, List.isEmpty_eq_false_iff] using hwork
  have hgo : (!seqRuns c || c.dev.job.ending || c.srv.plan.isSome) = false := by rw [hseq, hend, hplan]; rfl
  rw [buildStepOp, hgo, if_neg Bool.false_ne_true]
  dsimp only
  rw [← stepDecodes, ← stepChunks, ← blockRequests, if_neg (Bool.eq_false_iff.mp hsome)]
  generalize blockRequests (stepDecodes (unblock c)).blocked (unblock c) = c1
  rfl

/-- A command that changes the sequencer's books alone. -/
theorem completes_besideSrv {i : Instr} {s : State} {op : Ctx → Ctx} (hw : i.wf = true) (he : exec i s = perform i s op)
    (h : (op s.ctx).besideSrv = s.ctx.besideSrv) :
    Completes i s fun t => t.mem = s.mem ∧ t.dev = { s.dev with srv := t.dev.srv } ∧ t.dev.srv = (op s.ctx).dev.srv := by
  obtain ⟨hlog, hdev⟩ := Prod.mk.inj h
  exact .of_run op hw he ⟨State.run_mem_of_log s op hlog, congrArg (fun x => { x with srv := (op s.ctx).dev.srv }) hdev, rfl⟩

/-- Settles O35: blocking requests and starting the step change the sequencer's books alone. -/
theorem buildStepTakesReadyRequestsInOrder : Obligations.BuildStepTakesReadyRequestsInOrder := by
  unfold Obligations.BuildStepTakesReadyRequestsInOrder
  intro s hseq hend hplan c0 b prefill w hwork
  have hop := buildStepOp_builds (c := s.ctx) hseq hend hplan hwork
  have hbeside : (blockRequests (stepDecodes c0).blocked c0).besideSrv = s.ctx.besideSrv :=
    (blockRequests_besideSrv _ c0).trans (updSrv_besideSrv s.ctx _)
  have hslow : (blockRequests (stepDecodes c0).blocked c0).dev.slow = s.dev.slow := congrArg (fun x => x.2.slow) hbeside
  refine (completes_besideSrv rfl rfl (by rw [hop, updSrv_besideSrv, hbeside])).imp fun t ⟨hmem, hdev, hsrv⟩ => ⟨hmem, hdev, ?_⟩
  rw [hsrv, hop, hslow]
  rfl

/-! ### STEP_COMMIT (R385, R402) -/

/-- Disabling variants keeps what no drain changes. -/
theorem weightsPoisoned_keeps {β : Type} {g : Ctx → β} (hj : ∀ c f, g (c.updJob f) = g c) (l : List Nat) (c : Ctx) :
    g (weightsPoisoned l c) = g c := by
  have hone (v : Nat) (a : Ctx) : g (if (variantOf a v).valid then disableFn (.variant v) a else a) = g a := by
    split
    · exact disableFn_keeps hj _ a
    · rfl
  exact forAll_keeps (f := fun v a => if (variantOf a v).valid then disableFn (.variant v) a else a) hone l c

section
variable {c : Ctx} {p : StepPlan} {results : List StepResult} {weights : List Nat} (hp : c.srv.plan = some p) (hseq : seqRuns c = true)
include hp hseq

theorem stepCommitOp_commits (hl : p.lost = false) (hok : resultsOk c p results = true) :
    stepCommitOp results { reqs := [], weights := weights } c = flushBatch false (stateEntries p (consider (planOver
      (stepRise (p.chunks.foldl (commitChunk results) (p.decodes.foldl (commitDecode results) (weightsPoisoned weights c))))))) := by
  simp only [stepCommitOp, hp, hseq, hl, hok, List.isEmpty_nil, Bool.not_true, Bool.or_self, Bool.false_eq_true, if_false]

/-- The request that failed is looked for with the variants disabled already, which leaves the books of the requests. -/
theorem stepCommitOp_fails {id : Nat} {r : Req} (hr : c.req? id = some r) (hin : inPlan c r.id = true) :
    stepCommitOp results { reqs := [(id, 0x20)], weights := weights } c = schedule (planOver
      ((finalize r 8 0x20 (weightsPoisoned weights c)).updJob (fun j => { j with flown := j.flown + (c.dev.slow - p.since) }))) := by
  have hr' : (weightsPoisoned weights c).req? id = some r :=
    (weightsPoisoned_keeps (g := fun a => a.req? id) (fun _ _ => rfl) weights c).trans hr
  have hin' : inPlan (weightsPoisoned weights c) r.id = true :=
    (weightsPoisoned_keeps (g := fun a => inPlan a r.id) (fun _ _ => rfl) weights c).trans hin
  simp only [stepCommitOp, hp, hseq, List.isEmpty_cons, List.foldl_cons, List.foldl_nil, hr', hin', Bool.not_true, Bool.not_false, Bool.or_true,
    Bool.false_eq_true, if_false, if_true]
  rfl

end

/-- Settles O36: the two branches of STEP_COMMIT. -/
theorem stepCommitsWholeOrFailsItsRequests : Obligations.StepCommitsWholeOrFailsItsRequests := by
  unfold Obligations.StepCommitsWholeOrFailsItsRequests
  intro s p results weights hp hseq hwf c0
  exact ⟨fun hl hok => completes_becomes hwf rfl (stepCommitOp_commits (c := s.ctx) hp hseq hl hok),
    fun _ _ hr hin => completes_becomes hwf rfl (stepCommitOp_fails (c := s.ctx) hp hseq hr hin)⟩

end Sys2Proof.Machine

namespace Sys2Proof.Machine

/-! ### The hand-off on the prefill package (R386, Table 10-9) -/

section
variable {c : Ctx} {id : Nat} {r : Req} (hr : c.req? id = some r) (hseq : seqRuns c = true)
include hr hseq

theorem grantOp_grants (hh : r.hand = 1) : grantOp id c = schedule (c.updReq r.id (fun _ => { r with hand := 2 })) := by
  simp only [grantOp, hr, hseq, hh, beq_self_eq_true, Bool.and_self, if_true]
  rfl

theorem deferOp_defers (hh : r.hand = 1) :
    deferOp id c = actionEnd (c.updReq r.id (fun _ => { r with hand := 3, handAt := c.dev.slow })) := by
  simp only [deferOp, hr, hseq, hh, beq_self_eq_true, Bool.and_self, if_true]
  rfl

theorem retryCyclesOp_retries (hh : r.hand = 3) (ht : c.srv.retryCycles ≤ c.dev.slow - r.handAt) :
    retryCyclesOp id c = schedule (c.updReq r.id (fun _ => { r with hand := 0 })) := by
  simp only [retryCyclesOp, hr, hseq, hh, Ctx.since, ht, beq_self_eq_true, decide_true, Bool.and_self, if_true]
  rfl

theorem transferAcknowledgeOp_forwards (hh : r.hand = 5) : transferAcknowledgeOp id c =
    schedule (dropReq r (ledgerAdd { id := r.id, state := r.state, forward := some r.decodePkg } c)) := by
  simp only [transferAcknowledgeOp, hr, hseq, hh, beq_self_eq_true, Bool.and_self, if_true]

/-! ### The hand-off on the decode package (R386, R396) -/

/-- A request that another package hands over, its cache about to move from T1 into T0. -/
def Req.transferred (x : Transfer) (now : Nat) (r : Req) : Req :=
  { r with
    emitted := x.emitted, turnEmitted := x.turnEmitted, length := x.length, dCur := x.dCur, zeroStreak := x.zeroStreak,
    fullStreak := x.fullStreak, seed := x.seed, dest := x.dest, destPkg := x.destPkg, hand := 7, tier := 1, since := now, state := 3, cause := 0 }

theorem transferOp_refuses {x : Transfer} (hx : x.req = id) (hh : r.hand = 6) (hf : refusesFrom c r.handPkg = true) :
    transferOp x c = c.send (.refused r.handPkg) := by
  simp only [transferOp, hx, hr, hseq, hh, hf, ne_eq, not_true_eq_false, decide_false, Bool.not_true, Bool.or_self, Bool.false_eq_true, if_false,
    if_true]

theorem transferOp_takes {x : Transfer} (hx : x.req = id) (hh : r.hand = 6) (ha : r.admitted = true) (hf : refusesFrom c r.handPkg = false) :
    transferOp x c = schedule (quotaCheck (startMove r.id 0
      ((c.send (.transferAck r.handPkg r.id)).updReq r.id (fun _ => r.transferred x c.dev.slow)))) := by
  have hgo : (!seqRuns c || decide (r.hand ≠ 6)) = false := by rw [hseq, hh]; rfl
  rw [transferOp, hx, hr]
  dsimp only
  rw [hgo, hf, if_neg Bool.false_ne_true, if_neg Bool.false_ne_true, if_pos ha]
  rfl

theorem handoffTimeoutOp_frees (hh : r.hand = 6) (ht : c.srv.handoffTimeout ≤ c.dev.slow - r.handAt) :
    handoffTimeoutOp id c = schedule (dropReq r c) := by
  simp only [handoffTimeoutOp, hr, hseq, hh, Ctx.since, ht, beq_self_eq_true, decide_true, Bool.and_self, if_true]

theorem abandonOp_frees (hh : r.hand = 6) : abandonOp id c = schedule (dropReq r c) := by
  simp only [abandonOp, hr, hseq, hh, beq_self_eq_true, Bool.true_or, Bool.and_self, if_true]

end

/-- The queued record of a RESERVE. -/
def queuedRecord (pkg : Nat) (m : Reserve) (c : Ctx) : Req :=
  { id := m.req, cls := m.cls, converse := m.converse, spec := m.spec, sample := m.sample, variant := m.variant, tenant := m.tenant,
    dest := m.dest, destPkg := m.destPkg, maxNew := m.maxNew, maxLen := m.maxLen, stops := m.stops, dCur := c.srv.dMax,
    admitted := true, admittedAt := c.srv.stamp, acceptedAt := c.srv.stamp, hand := 6, handAt := c.dev.slow, handPkg := pkg }

section
variable {c : Ctx} {pkg : Nat} {m : Reserve} (hseq : seqRuns c = true)
include hseq

theorem reserveOp_refuses (hf : refusesFrom c pkg = true) : reserveOp pkg m c = c.send (.refused pkg) := by
  simp only [reserveOp, hseq, hf, Bool.not_true, Bool.false_eq_true, if_false, if_true]

theorem reserveOp_grants (hf : refusesFrom c pkg = false) (hend : c.dev.job.ending = false) (hid : c.req? m.req = none)
    (hv : (variantOf c m.variant).valid = true) (hd : isDisabled c (.variant m.variant) = false) (hn : c.srv.reqs.length < 32768)
    (ha : admits c true c.srv.leaving (admittedSet c) (queuedRecord pkg m c) = true) :
    reserveOp pkg m c = schedule
      ((c.updSrv (fun v => { v with stamp := v.stamp + 1, reqs := v.reqs ++ [queuedRecord pkg m c] })).send (.grant pkg m.req)) := by
  unfold queuedRecord at ha
  simp only [reserveOp, Ctx.stamp, hseq, hf, hend, hid, hv, hd, ha, decide_eq_false (Nat.not_le.mpr hn), Option.isSome_none, Bool.not_true,
    Bool.or_self, Bool.false_eq_true, if_false]
  rfl

theorem reserveOp_defers (hf : refusesFrom c pkg = false) (ha : admits c true c.srv.leaving (admittedSet c) (queuedRecord pkg m c) = false) :
    reserveOp pkg m c = schedule (c.send (.defer pkg m.req)) := by
  unfold queuedRecord at ha
  simp only [reserveOp, Ctx.stamp, hseq, hf, ha, Bool.not_true, Bool.not_false, Bool.or_true, Bool.false_eq_true, if_false, if_true]

end

/-- A command whose meaning answers with a refusal sends it and changes nothing else. -/
theorem completes_refused {i : Instr} {s : State} {op : Ctx → Ctx} {pkg : Nat} (hw : i.wf = true) (he : exec i s = perform i s op)
    (hop : op s.ctx = s.ctx.send (.refused pkg)) :
    Completes i s fun t => t = { s with dev := { s.dev with outbox := s.dev.outbox ++ [.refused pkg] } } :=
  .of_run op hw he (State.run_eq hop)

/-- Request 7 of a hand-off with package 9, at the step `hand` of it. -/
def handingOver (hand : Nat) : Req := { id := 7, decodePkg := 9, handPkg := 9, admitted := true, maxLen := 16, isLocal := false, hand := hand }

/-- A SERVE job with this one request, and `blocks` blocks of T0; it refuses the packages `frozen`. -/
def handoffState (hand blocks : Nat) (frozen : List Nat) : State :=
  { mem := [], pending := []
    dev := { job := { running := true, released := true, kind := 2 }
             frozenRemotes := frozen
             srv := { t0Blocks := blocks, classes := [{ deadline := 1000 }], variants := [(0, { valid := true, quota := 8 })],
                      tenants := [(0, { quota := 8 })], reqs := [handingOver hand] } } }

/-- A RESERVE of request 8, one block long. -/
def handoffReserve : Reserve :=
  { req := 8, cls := 0, variant := 0, tenant := 0, spec := false, converse := false, sample := false, stops := [], maxLen := 16, maxNew := 1,
    dest := 8, destPkg := 5 }

/-- Each hypothesis of the hand-off's statement has a state that meets it: every step of the hand-off, both answers to a RESERVE, and a refusal. -/
theorem handoff_hypotheses_met :
    (∀ hand ∈ [1, 3, 5, 6], let s := handoffState hand 2 []
      s.ctx.req? 7 = some (handingOver hand) ∧ (handingOver hand).hand = hand ∧ (handingOver hand).admitted = true ∧ seqRuns s.ctx = true ∧
      s.dev.srv.retryCycles ≤ s.dev.slow - (handingOver hand).handAt ∧ s.dev.srv.handoffTimeout ≤ s.dev.slow - (handingOver hand).handAt ∧
      refusesFrom s.ctx (handingOver hand).handPkg = false) ∧
    (let s := handoffState 6 2 []
     s.dev.job.ending = false ∧ s.ctx.req? handoffReserve.req = none ∧ (variantOf s.ctx 0).valid = true ∧ isDisabled s.ctx (.variant 0) = false ∧
     s.dev.srv.reqs.length < 32768 ∧ admits s.ctx true s.dev.srv.leaving (admittedSet s.ctx) (queuedRecord 9 handoffReserve s.ctx) = true) ∧
    (let s := handoffState 6 1 []
     refusesFrom s.ctx 9 = false ∧ admits s.ctx true s.dev.srv.leaving (admittedSet s.ctx) (queuedRecord 9 handoffReserve s.ctx) = false) ∧
    refusesFrom (handoffState 6 2 [9]).ctx 9 = true := by
  decide +kernel

/-- Settles O38: each message's meaning is the branch that the request's place in the hand-off selects. -/
theorem handoffOnBothPackages : Obligations.HandoffOnBothPackages := by
  unfold Obligations.HandoffOnBothPackages
  refine ⟨fun s id r hid hr hseq => ?prefill, fun s pkg m x id r hpkg hid hseq => ⟨?reserve, fun hr hh => ?owner⟩⟩
  case prefill =>
    have hw : decide (id < 2 ^ 32) = true := decide_eq_true hid
    exact ⟨fun hh => completes_becomes hw rfl (grantOp_grants hr hseq hh), fun hh => completes_becomes hw rfl (deferOp_defers hr hseq hh),
      fun hh ht => completes_becomes hw rfl (retryCyclesOp_retries hr hseq hh ht),
      fun hh => completes_becomes hw rfl (transferAcknowledgeOp_forwards hr hseq hh)⟩
  case reserve =>
    have hw : (Instr.reserve pkg m).wf = true := decide_eq_true hpkg
    exact ⟨fun hf => completes_refused hw rfl (reserveOp_refuses hseq hf),
      fun hr hh hx hf => completes_refused rfl rfl (transferOp_refuses hr hseq hx hh hf),
      fun hf hend hnew hv hd hn ha => completes_becomes hw rfl (reserveOp_grants hseq hf hend hnew hv hd hn ha),
      fun hf ha => completes_becomes hw rfl (reserveOp_defers hseq hf ha)⟩
  case owner =>
    have hw : decide (id < 2 ^ 32) = true := decide_eq_true hid
    exact ⟨fun hx ha hf => completes_becomes rfl rfl (transferOp_takes hr hseq hx hh ha hf),
      fun ht => completes_becomes hw rfl (handoffTimeoutOp_frees hr hseq hh ht), completes_becomes hw rfl (abandonOp_frees hr hseq hh)⟩

end Sys2Proof.Machine

/-! # Jobs: proofs

The job mailbox, and the release, the limits and the end of a job. Both obligations are assembled from equations that say which branch of a
command's meaning its hypotheses select, and from lemmas on what the shared operations keep. States that meet the hypotheses stand in
`wit_mailbox` and `wit_jobs`. -/

namespace Sys2Proof.Machine

/-! ### Interrupts in the steward's block (Table 17-10) -/

theorem irqRaise_stw (b : Nat) (c : Ctx) : (irqRaise b c).dev.stw = { c.dev.stw with irq := c.dev.stw.irq ||| 2 ^ b } := by
  unfold irqRaise
  dsimp only
  split
  · refine (forAll_keeps (g := fun c : Ctx => c.dev.stw) (fun _ _ => ?_) _ _).trans ?_ <;> rfl
  · rfl

theorem msix_stw (fn v : Nat) (c : Ctx) : (msix fn v c).dev.stw = c.dev.stw :=
  msix_keeps (g := fun c => c.dev.stw) (fun _ _ => rfl) fn v c

/-- ALERT_N at most adds pending bits in STW_IRQ. -/
theorem updAlert_stw (c : Ctx) : ∃ m, (updAlert c).dev.stw = { c.dev.stw with irq := c.dev.stw.irq ||| m } := by
  unfold updAlert
  dsimp only
  split
  · exact ⟨2 ^ 10, by rw [msix_stw, irqRaise_stw]; rfl⟩
  · exact ⟨0, by rw [Nat.or_zero]; rfl⟩

/-! ### The reply to a mailbox command (R564) -/

/-- The reply to the mailbox command `v` with `code` stands in the steward's block, which is free for the next. -/
def MboxAnswered (s : State) (v code : Nat) (t : State) : Prop :=
  t.dev.stw.replyCode = code ∧ t.dev.stw.replyOp = v % 256 ∧ t.dev.stw.busy = false ∧ t.dev.stw.mboxPending = none ∧
  t.dev.stw.irq = s.dev.stw.irq ||| 2 ^ 8

/-- Memory and all devices but the job block, the steward's block, the cores and the messages sent are as before. -/
def MboxQuiet (s t : State) : Prop :=
  t.mem = s.mem ∧ t.dev = { s.dev with job := t.dev.job, stw := t.dev.stw, cores := t.dev.cores, outbox := t.dev.outbox }

/-- What an interrupt of the steward leaves alone: the log, and the devices but its block, the cores and the messages sent. -/
def Ctx.besideSteward (c : Ctx) : List Wr × Dev := (c.log, { c.dev with stw := {}, cores := [], outbox := [] })

theorem mboxReply_besideSteward (op code : Nat) (c : Ctx) : (mboxReply op code c).besideSteward = c.besideSteward := by
  rw [mboxReply, msix_keeps (g := Ctx.besideSteward) fun _ _ => rfl,
    irqRaise_keeps (g := Ctx.besideSteward) (fun _ _ => rfl) fun _ _ _ => rfl]
  rfl

theorem mboxReply_stw (op code : Nat) (c : Ctx) : (mboxReply op code c).dev.stw =
    { c.dev.stw with
      replyCode := code, replyOp := op, busy := false, mboxPending := none
      cmdLost := if c.dev.stw.lostBefore then false else c.dev.stw.cmdLost
      lostBefore := false, irq := c.dev.stw.irq ||| 2 ^ 8 } := by
  rw [mboxReply, msix_stw, irqRaise_stw]
  rfl

/-- A command that answers the mailbox and changes the job block is quiet beside them. -/
theorem completes_mboxReply {i : Instr} {s : State} {op : Ctx → Ctx} {v code : Nat} {f : JobSt → JobSt} (hw : i.wf = true)
    (he : exec i s = perform i s op) (hop : op s.ctx = mboxReply (v % 256) code (s.ctx.updJob f)) :
    Completes i s fun t => MboxAnswered s v code t ∧ MboxQuiet s t ∧ t.dev.job = f s.dev.job := by
  obtain ⟨hlog, hdev⟩ := Prod.mk.inj (mboxReply_besideSteward (v % 256) code (s.ctx.updJob f))
  have hstw := mboxReply_stw (v % 256) code (s.ctx.updJob f)
  rw [← hop] at hlog hdev hstw
  have hjob : (op s.ctx).dev.job = f s.dev.job := congrArg Dev.job hdev
  refine .of_run op hw he ⟨?answered, ⟨State.run_mem_of_log s op hlog, ?devices⟩, hjob⟩
  case answered => simp only [MboxAnswered, State.run_dev, hstw, updJob_stw, State.ctx_dev, and_self]
  case devices =>
    rw [State.run_dev, hjob]
    exact congrArg (fun x => { x with stw := (op s.ctx).dev.stw, cores := (op s.ctx).dev.cores, outbox := (op s.ctx).dev.outbox }) hdev

theorem startJob_accepted {request : Bool} {i : Nat} {c : Ctx} (h : startRefusal request i c = 0) :
    startJob request i c = (0, startAccept i c) := by
  rw [startJob, if_pos h]

theorem startJob_refused {request : Bool} {i : Nat} {c : Ctx} (h : startRefusal request i c ≠ 0) :
    startJob request i c = (startRefusal request i c, c.updJob (fun j => { j with refusal := startRefusal request i c })) := by
  rw [startJob, if_neg h]

/-- The first end cause of a running job is taken. -/
theorem endCause_live {c : Ctx} (h : (c.dev.job.running && !c.dev.job.ending) = true) (code : Nat) :
    endCause code c = c.updJob (fun j => { j with ending := true, endCode := code, endedAt := c.dev.slow }) := by
  rw [endCause, if_pos h]

/-! ### The mailbox commands (R406–R408, R418, R424)

The command `v` waits in the mailbox, and the controller is at work. -/

section
variable {c : Ctx} {v : Nat} (hv : c.dev.stw.mboxPending = some v) (hctl : ctlRuns c = true)
include hv hctl

/-- The controller takes the waiting command of its kind, acts and replies. -/
theorem mboxTake_eq {k : Nat} (hk : mboxKind v = k) (act : Nat → Ctx → Nat × Ctx) :
    mboxTake k act c = mboxReply (v % 256) (act v c).1 (act v c).2 := by
  simp only [mboxTake, hv, hctl, hk, beq_self_eq_true, Bool.and_self, if_true]

theorem mboxStartOp_accepts (hk : mboxKind v = 1) (h : startRefusal true (bits v 8 6) c = 0) :
    mboxStartOp c = mboxReply (v % 256) 0 (startAccept (bits v 8 6) c) := by
  rw [mboxStartOp, mboxTake_eq hv hctl hk, startJob_accepted h]

theorem mboxStartOp_refuses (hk : mboxKind v = 1) (h : startRefusal true (bits v 8 6) c ≠ 0) :
    mboxStartOp c = mboxReply (v % 256) (startRefusal true (bits v 8 6) c)
      (c.updJob (fun j => { j with refusal := startRefusal true (bits v 8 6) c })) := by
  rw [mboxStartOp, mboxTake_eq hv hctl hk, startJob_refused h]

theorem mboxStopOp_ends (hk : mboxKind v = 2) (h : (c.dev.job.running && !c.dev.job.ending) = true) :
    mboxStopOp c = mboxReply (v % 256) 0 (c.updJob (fun j => { j with ending := true, endCode := 1, endedAt := c.dev.slow })) := by
  rw [mboxStopOp, mboxTake_eq hv hctl hk, if_pos h, endCause_live h]

theorem mboxStopOp_ignores (hk : mboxKind v = 2) (h : (c.dev.job.running && !c.dev.job.ending) = false) :
    mboxStopOp c = mboxReply (v % 256) 0x20 c := by
  rw [mboxStopOp, mboxTake_eq hv hctl hk, if_neg (Bool.eq_false_iff.mp h)]

theorem mboxQuotaOp_sets (hk : mboxKind v = 3) (h : (c.dev.job.running && !c.dev.job.ending) = true)
    (hq : bits v 32 32 ≤ c.dev.job.memQuota) :
    mboxQuotaOp c = mboxReply (v % 256) 0 (quotaCheck (c.updJob (fun j => { j with quota := bits v 32 32 }))) := by
  rw [mboxQuotaOp, mboxTake_eq hv hctl hk, if_pos (by rw [h, decide_eq_true hq]; rfl)]

theorem mboxQuotaOp_refuses (hk : mboxKind v = 3)
    (h : (c.dev.job.running && !c.dev.job.ending) = true → c.dev.job.memQuota < bits v 32 32) :
    mboxQuotaOp c = mboxReply (v % 256) 0x21 c := by
  have hover : ¬ (c.dev.job.running && !c.dev.job.ending && decide (bits v 32 32 ≤ c.dev.job.memQuota)) = true := fun hok => by
    obtain ⟨hlive, hq⟩ := Bool.and_eq_true_iff.mp hok
    exact (h hlive).not_ge (of_decide_eq_true hq)
  rw [mboxQuotaOp, mboxTake_eq hv hctl hk, if_neg hover]

theorem mboxBadCommandOp_answers (hk : mboxKind v = 0) : mboxBadCommandOp c = mboxReply (v % 256) 0x22 c :=
  mboxTake_eq hv hctl hk _

end

/-- Settles O42: every command's meaning is the reply to what its kind and the job's state select; only START and QUOTA accepted change more
than the job block beside it. -/
theorem mailboxCommandsAreAnswered : Obligations.MailboxCommandsAreAnswered := by
  unfold Obligations.MailboxCommandsAreAnswered
  intro s v hv hctl answered quiet live
  refine ⟨fun hk => ⟨fun h => ?accepted, fun code h hne => ?refused⟩, fun hk => ⟨fun h => ?stopped, fun h => ?ignored⟩,
    fun hk => ⟨fun h hq => ?quotaSet, fun h => ?quotaRefused⟩, fun hk => ?bad⟩
  case accepted => exact completes_becomes rfl rfl (mboxStartOp_accepts hv hctl hk h)
  case refused =>
    subst h
    exact completes_mboxReply rfl rfl (mboxStartOp_refuses hv hctl hk hne)
  case stopped => exact completes_mboxReply rfl rfl (mboxStopOp_ends hv hctl hk h)
  case ignored => exact completes_mboxReply (f := id) rfl rfl (mboxStopOp_ignores hv hctl hk h)
  case quotaSet => exact completes_becomes rfl rfl (mboxQuotaOp_sets hv hctl hk h hq)
  case quotaRefused => exact completes_mboxReply (f := id) rfl rfl (mboxQuotaOp_refuses hv hctl hk h)
  case bad => exact completes_mboxReply (f := id) rfl rfl (mboxBadCommandOp_answers hv hctl hk)

/-! ### The release (R408, R325) -/

/-- A channel of an engine at the release: one with a program waits at entry 0. -/
def FurChan.await (x : FurChan) : FurChan :=
  { x with pc := 0, iter := 0, iterSticky := false, run := none, state := if x.len = 0 then 0 else 1 }

/-- A furrow engine at the release: its counts are zero, its latch is unlit and its channels wait. -/
def FurSt.await (x : FurSt) : FurSt :=
  { x with skipCount := 0, skipSticky := false, latch := false, commits := 0, chans := x.chans.map (fun p => (p.1, p.2.await)) }

/-- A channel outside the table is without a program, and stays as it is. -/
theorem FurSt.await_chan (x : FurSt) (k : Nat) : Tab.get {} x.await.chans k = (Tab.get {} x.chans k : FurChan).await := by
  have h := Tab.get_map_key (R := fun y z => z = FurChan.await y) (q := fun _ => true) (d := {}) rfl (fun _ => rfl) x.chans (k := k) rfl
  simp only [if_true] at h
  exact h

/-- What a change of each of several engines, one after another, leaves of engine `d`. -/
theorem forAll_updFur {ks : List Nat} (hks : ks.Nodup) (f : FurSt → FurSt) (c : Ctx) (d : Nat) :
    (forAll ks (fun e a => a.updFur e f) c).fur d = if d ∈ ks then f (c.fur d) else c.fur d := by
  induction ks generalizing c with
  | nil => simp [forAll]
  | cons e ks ih =>
    obtain ⟨he, hks⟩ := List.nodup_cons.mp hks
    refine (ih hks (c.updFur e f)).trans ?_
    rcases eq_or_ne d e with rfl | hne
    · simp [he]
    · simp [hne]

/-- The context in which every channel with a program waits. -/
def allAwait (c : Ctx) : Ctx := forAll (List.range 4) chansWait c

theorem allAwait_chan (c : Ctx) {d : Nat} (hd : d < 4) (k : Nat) : (allAwait c).chan d k = (c.chan d k).await := by
  have hfur : (allAwait c).fur d = (c.fur d).await := (forAll_updFur List.nodup_range FurSt.await c d).trans (if_pos (List.mem_range.mpr hd))
  rw [Ctx.chan, hfur, FurSt.await_chan]
  rfl

/-- What the furrow engines leave alone: the log, and the other devices. -/
def Ctx.besideFurrows (c : Ctx) : List Wr × Dev := (c.log, { c.dev with furrows := [] })

theorem res_of_besideFurrows {a b : Ctx} (h : a.besideFurrows = b.besideFurrows) : a.res = b.res := congrArg (fun x => x.2.res) h

theorem allAwait_besideFurrows (c : Ctx) : (allAwait c).besideFurrows = c.besideFurrows :=
  forAll_keeps (f := chansWait) (g := Ctx.besideFurrows) (fun _ _ => rfl) _ c

/-- Units and dies taken into service keep what is neither theirs nor in memory. -/
theorem epochAll_admitAll_keeps {β : Type} {g : Ctx → β} (hz : ∀ c lo n, g (c.zero lo n) = g c)
    (hp : ∀ c p e, g { c with dev := { c.dev with poison := p, errs := e } } = g c) (hu : ∀ c u f, g (c.updUnit u f) = g c)
    (hd : ∀ c d f, g (c.updDie d f) = g c) (c : Ctx) : g (epochAll (admitAll c)) = g c := by
  have hadmit (u : Nat) (a : Ctx) : g (admitUnit u a) = g a := by rw [admitUnit, hu, umZero, hz, hp]
  unfold epochAll admitAll
  rw [forAll_keeps (g := g) fun e a => ?die, forAll_keeps (g := g) fun u a => ?unit, forAll_keeps hadmit]
  case die =>
    split
    · exact hd ..
    · rfl
  case unit =>
    split
    · exact hu ..
    · rfl

section
variable (c : Ctx)

theorem epochAll_admitAll_job : (epochAll (admitAll c)).dev.job = c.dev.job :=
  epochAll_admitAll_keeps (g := fun c => c.dev.job) (fun _ _ _ => by rw [Ctx.zero_dev]) (fun _ _ _ => rfl) (fun _ _ _ => rfl)
    (fun _ _ _ => rfl) c

theorem epochAll_admitAll_res : (epochAll (admitAll c)).res = c.res :=
  epochAll_admitAll_keeps (g := Ctx.res) (fun _ _ _ => by rw [Ctx.res, Ctx.zero_dev, Ctx.res]) (fun _ _ _ => rfl) (fun _ _ _ => rfl)
    (fun _ _ _ => rfl) c

theorem epochAll_admitAll_chan (d k : Nat) : (epochAll (admitAll c)).chan d k = c.chan d k :=
  epochAll_admitAll_keeps (g := fun c => c.chan d k) (fun _ _ _ => by simp only [Ctx.chan, Ctx.fur, Ctx.zero_dev]) (fun _ _ _ => rfl)
    (fun _ _ _ => rfl) (fun _ _ _ => rfl) c

end

/-- The job block at the release. -/
def JobSt.release (now : Nat) (j : JobSt) : JobSt := { j with released := true, releasedAt := now, stepAt := now, stepStart := now }

/-- The release of a job without a resilience block: no sheaf is planned. -/
theorem jobReleaseOp_releases {c : Ctx} (hrun : c.dev.job.running = true) (hrel : c.dev.job.released = false)
    (hend : c.dev.job.ending = false) (hs : c.dev.safe.safe = false) (hres : c.dev.res.restore = 0) (hl : loadsEnded c = true)
    (hu : c.dev.units.any (fun p => p.2.resetting) = false) (hp : c.dev.res.present = false) :
    jobReleaseOp c = (allAwait (epochAll (admitAll c))).updJob (JobSt.release c.dev.slow) := by
  have hpresent : (allAwait (epochAll (admitAll c))).res.present = false := by
    rw [res_of_besideFurrows (allAwait_besideFurrows _), epochAll_admitAll_res]
    exact hp
  unfold jobReleaseOp
  dsimp only
  rw [← allAwait]
  generalize allAwait (epochAll (admitAll c)) = a at hpresent ⊢
  have hplan (f : JobSt → JobSt) : (a.updJob f).res.present = false := hpresent
  rw [if_neg (by simp [Ctx.res, hrun, hrel, hend, hs, hres, hl, hu])]
  exact if_neg (by simp [hplan])

/-- A command that leaves context `a` with a change of the job block, where `a` is `b` but for the furrow engines. -/
theorem completes_besideFurrows {i : Instr} {s : State} {op : Ctx → Ctx} {a b : Ctx} {f : JobSt → JobSt} (hw : i.wf = true)
    (he : exec i s = perform i s op) (hop : op s.ctx = a.updJob f) (h : a.besideFurrows = b.besideFurrows) :
    Completes i s fun t => Wrote s b t ∧ t.dev = { b.dev with furrows := t.dev.furrows, job := t.dev.job } ∧ t.dev.job = f b.dev.job ∧
      ∀ d k, t.ctx.chan d k = a.chan d k := by
  obtain ⟨hlog, hdev⟩ := Prod.mk.inj h
  have ha : a.dev = { b.dev with furrows := a.dev.furrows } := congrArg (fun x : Dev => { x with furrows := a.dev.furrows }) hdev
  refine .of_run op hw he ⟨.of_log (by rw [hop]; exact hlog), ?devices, ?job, fun d k => ?chan⟩
  case devices => rw [State.run_dev, hop, Ctx.updJob, ha]
  case job => rw [State.run_dev, hop, Ctx.updJob, ha]
  case chan => rw [Ctx.chan, Ctx.fur, State.ctx_dev, State.run_dev, hop]; rfl

/-! ### The limits and the stop (R414–R416, R420) -/

section
variable {c : Ctx}

theorem timeLimitOp_ends (h : limitsCount c = true) (hset : c.dev.job.timeLimit ≠ 0)
    (hpast : c.dev.job.timeLimit ≤ c.since c.dev.job.releasedAt) : timeLimitOp c = endCause 2 c := by
  simp only [timeLimitOp, h, hset, hpast, ne_eq, not_false_eq_true, decide_true, Bool.and_self, if_true]

theorem jobStalledOp_ends (h : limitsCount c = true) (hset : c.dev.job.stallLimit ≠ 0) (hpast : c.dev.job.stallLimit ≤ stalledFor c) :
    jobStalledOp c = endCause 0x13 c := by
  simp only [jobStalledOp, h, hset, hpast, ne_eq, not_false_eq_true, decide_true, Bool.and_self, if_true]

/-- Limits count for a job that runs and does not end. -/
theorem live_of_limitsCount (h : limitsCount c = true) : (c.dev.job.running && !c.dev.job.ending) = true :=
  (Bool.and_eq_true_iff.mp h).1

variable (he : c.dev.job.ending = true) (hst : c.dev.job.stopped = false) (hs : c.dev.safe.safe = false)
include he hst hs

theorem jobDrainCompleteOp_stops (h : drainsCode c.dev.job.endCode = false ∨ workDrained c = true) :
    jobDrainCompleteOp c = jobStopNotice c := by
  have hdrained : (!drainsCode c.dev.job.endCode || workDrained c) = true := by simpa using h
  simp only [jobDrainCompleteOp, he, hst, hs, hdrained, Bool.not_false, Bool.and_self, if_true]

theorem jobDrainLimitOp_stops (hd : drainsCode c.dev.job.endCode = true) (h : c.dev.job.drainLimit < c.since c.dev.job.endedAt) :
    jobDrainLimitOp c = jobStopNotice c := by
  simp only [jobDrainLimitOp, he, hst, hs, hd, h, decide_true, Bool.not_false, Bool.and_self, if_true]

end

/-- A limit passed is the job's end cause, and changes nothing else. -/
theorem completes_endCause {i : Instr} {s : State} {op : Ctx → Ctx} {code : Nat} (hw : i.wf = true) (he : exec i s = perform i s op)
    (hop : op s.ctx = endCause code s.ctx) (hlive : (s.dev.job.running && !s.dev.job.ending) = true) :
    Completes i s fun t => t.mem = s.mem ∧
      t.dev = { s.dev with job := { s.dev.job with ending := true, endCode := code, endedAt := s.dev.slow } } :=
  completes_dev hw he (hop.trans (endCause_live (c := s.ctx) hlive code))

/-! ### The batches due (R569) -/

theorem updPair_eq (c : Ctx) (q : Nat) (f : QPair → QPair) :
    c.updPair q f = c.updStw (fun s => { s with pairs := Tab.set s.pairs q (f (Tab.get {} s.pairs q)) }) := rfl

/-- Bytes of a ring are writes of memory. -/
theorem ringWrite_keeps {β : Type} {g : Ctx → β} (hw : ∀ c a l, g (c.write a l) = g c) (p : QPair) (i : Nat) (l : List Byte) (c : Ctx) :
    g (ringWrite p i l c) = g c := by
  induction l generalizing i c with
  | nil => rfl
  | cons b l ih => exact (ih (i + 1) _).trans (hw c _ _)

section
variable {β : Type} {g : Ctx → β} (hw : ∀ c a l, g (c.write a l) = g c) (hstw : ∀ c f, g (c.updStw f) = g c)
  (hc : ∀ c n f, g (c.updCore n f) = g c) (hm : ∀ c m, g (c.send m) = g c)
include hw hstw hc hm

theorem writeBatch_keeps (event : Bool) (dest destPkg : Nat) (l : List BatchEntry) (c : Ctx) : g (writeBatch event dest destPkg l c) = g c := by
  unfold writeBatch
  dsimp only
  split
  · exact hm c _
  · split
    · rfl
    · rw [msix_keeps hm, irqRaise_keeps hstw hc, updPair_eq]
      exact (hstw _ _).trans (ringWrite_keeps hw _ _ _ c)

/-- A batch is bytes in its ring or a message, and its event. -/
theorem flushBatch_keeps (hsrv : ∀ c f, g (c.updSrv f) = g c) (event : Bool) (c : Ctx) : g (flushBatch event c) = g c := by
  unfold flushBatch
  refine List.foldlRecOn (motive := fun a => g a = g c) _ _ rfl fun a ha d _ => ?_
  dsimp only
  split
  · rw [writeBatch_keeps hw hstw hc hm, hsrv, ha]
  · exact ha

end

theorem flushBatch_job (event : Bool) (c : Ctx) : (flushBatch event c).dev.job = c.dev.job :=
  flushBatch_keeps (g := fun c => c.dev.job) (fun _ _ _ => by rw [Ctx.write_dev]) (fun _ _ => rfl) (fun _ _ _ => rfl) (fun _ _ => rfl)
    (fun _ _ => rfl) event c

/-! ### The report of the end (R565, step 7 of Table 11-4) -/

/-- The job block of a job that is over. -/
def JobSt.over (j : JobSt) : JobSt := { j with running := false, ending := false, overQuota := false, areas := [] }

/-- The context in which the end stands in the steward's block, its event still to be raised. -/
def endReported (c : Ctx) : Ctx :=
  let c1 := c.updJob JobSt.over
  let c2 : Ctx := { c1 with dev := { c1.dev with frozenRemotes := [] } }
  (if c.dev.job.kind = 2 then forAll (List.range 8) (fun q x => x.updPair q QPair.leave) c2 else c2).updStw
    (fun s => { s with endIndex := c.dev.job.index, endCode := c.dev.job.endCode, endStep := c.dev.job.step })

theorem jobReport_eq (c : Ctx) : jobReport c = episodesAfterJob (msix 0 1 (irqRaise 9 (endReported c))) := rfl

theorem episodesAfterJob_keeps {β : Type} {g : Ctx → β} (hk : ∀ c k f, g (c.updColl k f) = g c) (hp : ∀ c f, g (c.updPins f) = g c)
    (hs : ∀ c f, g (c.updStw f) = g c) (hc : ∀ c n f, g (c.updCore n f) = g c) (hm : ∀ c m, g (c.send m) = g c) (c : Ctx) :
    g (episodesAfterJob c) = g c := by
  rw [episodesAfterJob, updAlert_keeps (fun _ _ => hp _ _) hs hc hm, forAll_keeps fun _ _ => hk _ _ _]

/-- The report writes no memory, closes the job block and releases the masters frozen until then. -/
theorem jobReport_closes (c : Ctx) :
    (jobReport c).log = c.log ∧ (jobReport c).dev.job = c.dev.job.over ∧ (jobReport c).dev.frozenRemotes = [] := by
  let g (c : Ctx) : List Wr × JobSt × List Nat := (c.log, c.dev.job, c.dev.frozenRemotes)
  have hreported : g (endReported c) = (c.log, c.dev.job.over, []) := by
    unfold endReported
    dsimp only
    split
    · exact forAll_keeps (g := g) (f := fun q x => x.updPair q QPair.leave) (fun _ _ => rfl) _ _
    · rfl
  have h : g (jobReport c) = (c.log, c.dev.job.over, []) := by
    rw [jobReport_eq,
      episodesAfterJob_keeps (g := g) (fun _ _ _ => rfl) (fun _ _ => rfl) (fun _ _ => rfl) (fun _ _ _ => rfl) fun _ _ => rfl,
      msix_keeps (g := g) fun _ _ => rfl, irqRaise_keeps (g := g) (fun _ _ => rfl) fun _ _ _ => rfl, hreported]
  simpa only [g, Prod.mk.injEq] using h

theorem episodesAfterJob_stw (c : Ctx) : ∃ m, (episodesAfterJob c).dev.stw = { c.dev.stw with irq := c.dev.stw.irq ||| m } := by
  obtain ⟨m, hm⟩ := updAlert_stw (forAll (List.range 5) (fun k a => a.updColl k (fun x =>
    { x with episodes := x.episodes.filter (fun p => !(p.2.froze && p.2.done == 2)) })) c)
  rw [forAll_keeps (g := fun c : Ctx => c.dev.stw) fun k a => updColl_stw a k _] at hm
  exact ⟨m, hm⟩

/-- The end as the host reads it, with the event of the end pending. -/
theorem jobReport_stw (c : Ctx) :
    (jobReport c).dev.stw.endIndex = c.dev.job.index ∧ (jobReport c).dev.stw.endCode = c.dev.job.endCode ∧
    (jobReport c).dev.stw.endStep = c.dev.job.step ∧ bit (jobReport c).dev.stw.irq 9 = true := by
  obtain ⟨m, hm⟩ := episodesAfterJob_stw (msix 0 1 (irqRaise 9 (endReported c)))
  rw [jobReport_eq, hm, msix_stw, irqRaise_stw]
  exact ⟨rfl, rfl, rfl, by rw [bit, Nat.testBit_or, Nat.testBit_or, Nat.testBit_two_pow_self, Bool.or_true, Bool.true_or]⟩

/-- The report once no record waits any more, and the start that may follow (R406). -/
theorem jobEndReportOp_reports {c : Ctx} (he : c.dev.job.ending = true) (hst : c.dev.job.stopped = true) (hs : c.dev.safe.safe = false)
    (hb : (flushBatch true c).srv.batch = []) : jobEndReportOp c =
      if c.dev.job.endCode = 0 then autoStart 2 c.dev.job.index (jobReport (flushBatch true c)) else jobReport (flushBatch true c) := by
  simp only [jobEndReportOp, he, hst, hs, hb, List.isEmpty_nil, Bool.not_true, Bool.or_self, Bool.false_eq_true, if_false]

theorem jobEndReport_completes {s : State} (hop : jobEndReportOp s.ctx = jobReport (flushBatch true s.ctx)) :
    Completes .jobEndReport s fun t => Wrote s (flushBatch true s.ctx) t ∧ t.dev.job = s.dev.job.over ∧
      t.dev.stw.endIndex = s.dev.job.index ∧ t.dev.stw.endCode = s.dev.job.endCode ∧ t.dev.stw.endStep = s.dev.job.step ∧
      bit t.dev.stw.irq 9 = true ∧ t.dev.frozenRemotes = [] := by
  obtain ⟨hlog, hjob, hfrozen⟩ := jobReport_closes (flushBatch true s.ctx)
  obtain ⟨hindex, hcode, hstep, hirq⟩ := jobReport_stw (flushBatch true s.ctx)
  rw [flushBatch_job, State.ctx_dev] at hjob hindex hcode hstep
  rw [← hop] at hlog hjob hfrozen hindex hcode hstep hirq
  exact .of_run _ rfl rfl ⟨.of_log hlog, hjob, hindex, hcode, hstep, hirq, hfrozen⟩

/-! ### The end of a drain (R419–R421) -/

/-- The job block with a function's drain over. -/
def JobSt.drained (fn : DisFn) (j : JobSt) : JobSt :=
  { j with drains := j.drains.filter (fun x => x.fn != fn), disabled := j.disabled ++ [fn] }

theorem disableDrainLimitOp_ends {c : Ctx} {fn : DisFn} {d : Drain} (hd : c.dev.job.drains.find? (fun d => d.fn == fn) = some d)
    (hs : c.dev.safe.safe = false) (he : c.dev.job.ending = false) (h : workLeft c fn = false ∨ d.limit < c.since d.since) :
    disableDrainLimitOp fn c = (abortWork fn c).updJob (JobSt.drained fn) := by
  have hover : (workLeft c fn && decide (c.since d.since ≤ d.limit)) = false := by
    rw [Bool.and_eq_false_iff, decide_eq_false_iff_not, Nat.not_le]
    exact h
  simp only [disableDrainLimitOp, hd, hs, he, hover, Bool.or_self, Bool.false_eq_true, if_false]
  rfl

/-- Settles O43: the release, the limits, the stop, the report and the end of a drain are each the branch of the command's meaning that the
hypotheses select; the release and the report keep all but what they name. -/
theorem jobsReleaseLimitAndEnd : Obligations.JobsReleaseLimitAndEnd := by
  unfold Obligations.JobsReleaseLimitAndEnd
  intro s fn j
  refine ⟨fun hrun hrel hend hs hres hl hu hp => ?release, fun h hset hpast => ?timeLimit, fun h hset hpast => ?stalled,
    fun he hst hs => ⟨fun h => ?drained, fun hd h => ?drainLimit⟩, fun he hst hs hb => ⟨fun hcode => ?restart, fun hcode => ?report⟩,
    fun d hwf hd hs he h => ?disabled⟩
  case release =>
    have hop := jobReleaseOp_releases (c := s.ctx) hrun hrel hend hs hres hl hu hp
    refine (completes_besideFurrows rfl rfl hop (allAwait_besideFurrows _)).imp fun t ⟨hwrote, hdev, hjob, hchan⟩ =>
      ⟨hwrote, hdev, ?_, fun d k hd hprog => ?_⟩
    · rw [hjob, epochAll_admitAll_job]; rfl
    · rw [hchan, allAwait_chan _ hd, epochAll_admitAll_chan]
      exact ⟨if_neg hprog, rfl, rfl, rfl⟩
  case timeLimit => exact completes_endCause rfl rfl (timeLimitOp_ends (c := s.ctx) h hset hpast) (live_of_limitsCount h)
  case stalled => exact completes_endCause rfl rfl (jobStalledOp_ends (c := s.ctx) h hset hpast) (live_of_limitsCount h)
  case drained => exact completes_becomes rfl rfl (jobDrainCompleteOp_stops (c := s.ctx) he hst hs h)
  case drainLimit => exact completes_becomes rfl rfl (jobDrainLimitOp_stops (c := s.ctx) he hst hs hd h)
  case restart => exact completes_becomes rfl rfl ((jobEndReportOp_reports (c := s.ctx) he hst hs hb).trans (if_pos hcode))
  case report => exact jobEndReport_completes ((jobEndReportOp_reports (c := s.ctx) he hst hs hb).trans (if_neg hcode))
  case disabled =>
    refine (completes_becomes (i := .disableDrainLimit fn) hwf rfl (disableDrainLimitOp_ends (c := s.ctx) hd hs he h)).imp fun t ht => ⟨ht, ?_⟩
    rw [ht.1]
    exact List.mem_append_right _ List.mem_cons_self

end Sys2Proof.Machine

/-! # The link ports: proofs

Flits on the wire and in the link layer (R431–R438), the training of a port (Table 12-4), its admission (R550, R551) and the topology check (R450).
Each command's meaning is first given as the branch that its hypotheses select; most change one port and send messages. States that meet
the hypotheses stand in `wit_links`, `wit_training` and `wit_admission`. -/

namespace Sys2Proof.Machine

/-! ### Changes of one port, and messages sent -/

theorem updPort_updPort (c : Ctx) (p : Nat) (f g : Port → Port) : (c.updPort p f).updPort p g = c.updPort p (fun x => g (f x)) := by
  simp [Ctx.updPort, Ctx.port]

theorem updPort_congr {c : Ctx} {p : Nat} {f g : Port → Port} (h : f (c.port p) = g (c.port p)) : c.updPort p f = c.updPort p g := by
  rw [Ctx.updPort, h, Ctx.updPort]

theorem updLink_updLink (c : Ctx) (p : Nat) (f g : LinkLayer → LinkLayer) :
    (c.updLink p f).updLink p g = c.updLink p (fun l => g (f l)) := updPort_updPort c p _ _

theorem updLink_same (c : Ctx) (p : Nat) (f : LinkLayer → LinkLayer) :
    (c.updLink p f).port p = { c.port p with link := f (c.port p).link } := updPort_same c p _

/-- What a port's link layer is no part of, a change of a link layer keeps. -/
theorem updLink_port_keeps {β : Type} {g : Port → β} (h : ∀ x l, g { x with link := l } = g x) (c : Ctx) (p : Nat)
    (f : LinkLayer → LinkLayer) (q : Nat) : g ((c.updLink p f).port q) = g (c.port q) := by
  rcases eq_or_ne q p with rfl | hne
  · rw [updLink_same, h]
  · rw [Ctx.updLink, updPort_other _ _ hne]

/-- What a change of a link layer keeps of the layer, it keeps at every port. -/
theorem updLink_link_keeps {β : Type} {g : LinkLayer → β} (f : LinkLayer → LinkLayer) (h : ∀ l, g (f l) = g l) (c : Ctx) (p q : Nat) :
    g ((c.updLink p f).port q).link = g (c.port q).link := by
  rcases eq_or_ne q p with rfl | hne
  · rw [updLink_same, h]
  · rw [Ctx.updLink, updPort_other _ _ hne]

/-- A command that changes one port and sends messages. -/
theorem completes_port {i : Instr} {s : State} {op : Ctx → Ctx} {p : Nat} {f : Port → Port} {msgs : List Msg} (hw : i.wf = true)
    (he : exec i s = perform i s op) (hop : op s.ctx = (s.ctx.updPort p f).sends msgs) :
    Completes i s fun t => OnlyPort p s t ∧ t.ctx.port p = f (s.ctx.port p) ∧ t.dev.outbox = s.dev.outbox ++ msgs := by
  have hport (q : Nat) : (s.run op).ctx.port q = (s.ctx.updPort p f).port q := by rw [State.run_at_port, hop]; rfl
  have hdev : (s.run op).dev = ((s.ctx.updPort p f).sends msgs).dev := by rw [State.run_dev, hop]
  refine .of_run op hw he ⟨⟨State.run_mem_of_log s op (by rw [hop]; rfl), by rw [hdev]; rfl, fun q hq => ?_⟩, ?_, by rw [hdev]; rfl⟩
  · rw [hport, updPort_other _ _ hq]
  · rw [hport, updPort_same]

/-- A command that changes one port and sends nothing. -/
theorem completes_port_quiet {i : Instr} {s : State} {op : Ctx → Ctx} {p : Nat} {f : Port → Port} (hw : i.wf = true)
    (he : exec i s = perform i s op) (hop : op s.ctx = s.ctx.updPort p f) :
    Completes i s fun t => OnlyPort p s t ∧ t.dev.outbox = s.dev.outbox ∧ t.ctx.port p = f (s.ctx.port p) :=
  (completes_port (msgs := []) hw he (hop.trans (sends_nil _).symm)).imp fun _ ⟨honly, hport, hout⟩ =>
    ⟨honly, hout.trans (List.append_nil _), hport⟩

/-- A command that changes the link layers of two ports, one after the other, and sends messages. -/
theorem completes_links {i : Instr} {s : State} {op : Ctx → Ctx} {p q : Nat} {f g : LinkLayer → LinkLayer} {msgs : List Msg}
    (hw : i.wf = true) (he : exec i s = perform i s op) (hop : op s.ctx = ((s.ctx.updLink p f).sends msgs).updLink q g) :
    Completes i s fun t => t.mem = s.mem ∧ t.dev = { s.dev with ports := t.dev.ports, outbox := s.dev.outbox ++ msgs } ∧
      ∀ k, t.ctx.port k = ((s.ctx.updLink p f).updLink q g).port k :=
  .of_run op hw he ⟨State.run_mem_of_log s op (by rw [hop]; rfl), by rw [State.run_dev, hop]; rfl,
    fun k => by rw [State.run_at_port, hop]; rfl⟩

/-! ### The 256 bytes of a flit (R431, Tables 12-2 and 12-3) -/

theorem ofBytes_toBytes (n x : Nat) : ofBytes (toBytes n x) = x % 256 ^ n := by
  induction n generalizing x with
  | zero => rw [Nat.pow_zero, Nat.mod_one]; rfl
  | succ n ih =>
    have hcons : toBytes (n + 1) x = BitVec.ofNat 8 x :: toBytes n (x / 256) := by
      simp only [toBytes, List.range_succ_eq_map, List.map_cons, List.map_map, Nat.mul_zero, Nat.shiftRight_zero]
      refine congrArg _ (List.map_congr_left fun i _ => ?_)
      rw [Function.comp_apply, Nat.mul_succ, Nat.add_comm, Nat.shiftRight_add, Nat.shiftRight_eq_div_pow x 8]
    rw [hcons, ofBytes, ih, BitVec.toNat_ofNat, Nat.pow_succ' (m := 256), Nat.mod_mul (x := x)]

/-- A CRC of a 32-bit polynomial has 32 bits. -/
theorem crcByte_lt {poly : Nat} (hpoly : poly < 2 ^ 32) (n : Nat) {x : Nat} (hx : x < 2 ^ 32) : crcByte poly n x < 2 ^ 32 := by
  induction n generalizing x with
  | zero => exact hx
  | succ n ih =>
    rw [crcByte]
    refine ih ?_
    split
    · exact Nat.xor_lt_two_pow (by omega) hpoly
    · omega

theorem crcOf_lt {poly : Nat} (hpoly : poly < 2 ^ 32) (l : List Byte) : crcOf poly l < 2 ^ 32 := by
  refine Nat.xor_lt_two_pow (List.foldlRecOn (motive := fun x => x < 2 ^ 32) l _ (by decide) fun x hx b _ => ?_) (by decide)
  exact crcByte_lt hpoly 8 (Nat.xor_lt_two_pow hx (b.isLt.trans (by decide)))

/-- The header of a flit as a number. -/
def flitHeader (f : Flit) : Nat :=
  f.vc + 2 ^ 3 * f.cls + 2 ^ 6 * f.hops + 2 ^ 11 * f.dst + 2 ^ 29 * f.src + 2 ^ 47 * f.payload.length + 2 ^ 55 * b2n f.last + 2 ^ 56 * b2n f.poison

/-- Its link word as a number. -/
def flitLink (f : Flit) : Nat :=
  f.seq + 2 ^ 12 * f.ack + 2 ^ 24 * f.creditVc + 2 ^ 27 * f.credit + 2 ^ 30 * f.creditCls + 2 ^ 31 * b2n f.nak

/-- Its payload with zeros up to 240 bytes. -/
def flitPayload (f : Flit) : List Byte := (f.payload ++ List.replicate 240 0).take 240

/-- The bytes that its CRC protects. -/
def flitBody (f : Flit) : List Byte := toBytes 8 (flitHeader f) ++ flitPayload f ++ toBytes 4 (flitLink f)

section
variable (f : Flit)

theorem flitBytes_eq : flitBytes f = flitBody f ++ toBytes 4 (crc32 (flitBody f)) := rfl

theorem length_flitPayload : (flitPayload f).length = 240 := by
  rw [flitPayload, List.length_take, List.length_append, List.length_replicate]
  omega

theorem length_flitBody : (flitBody f).length = 252 := by
  simp only [flitBody, List.length_append, length_toBytes, length_flitPayload]

theorem length_flitBytes : (flitBytes f).length = 256 := by
  rw [flitBytes_eq, List.length_append, length_flitBody, length_toBytes]

/-- A flit goes out with a good CRC. -/
theorem crcGood_flitBytes : crcGood (flitBytes f) = true := by
  have hcrc : crc32 (flitBody f) % 256 ^ 4 = crc32 (flitBody f) := Nat.mod_eq_of_lt (crcOf_lt (by decide) _)
  rw [crcGood, flitBytes_eq, List.take_left' (length_flitBody f), List.drop_left' (length_flitBody f),
    List.take_of_length_le (length_toBytes _ _).le, ofBytes_toBytes, hcrc, beq_self_eq_true]

theorem flitBytes_header : (flitBytes f).take 8 = toBytes 8 (flitHeader f) := by
  rw [flitBytes_eq, flitBody, List.append_assoc, List.append_assoc, List.take_left' (length_toBytes _ _)]

theorem flitBytes_payload {n : Nat} (hn : n ≤ 240) : ((flitBytes f).drop 8).take n = (flitPayload f).take n := by
  rw [flitBytes_eq, flitBody, List.append_assoc, List.append_assoc, List.drop_left' (length_toBytes _ _),
    List.take_append_of_le_length (hn.trans (length_flitPayload f).ge)]

theorem flitBytes_link : ((flitBytes f).drop 248).take 4 = toBytes 4 (flitLink f) := by
  have hlen : (toBytes 8 (flitHeader f) ++ flitPayload f).length = 248 := by
    rw [List.length_append, length_toBytes, length_flitPayload]
  rw [flitBytes_eq, flitBody, List.append_assoc, List.drop_left' hlen, List.take_left' (length_toBytes _ _)]

end

theorem b2n_lt_two (b : Bool) : b2n b < 2 := by cases b <;> decide

/-- A flag read back from its place in a number. -/
theorem bit_of_b2n {x i : Nat} {b : Bool} (h : x / 2 ^ i % 2 = b2n b) : bit x i = b := by
  rw [bit, Nat.testBit_eq_decide_div_mod_eq, h]
  cases b <;> rfl

section
variable {f : Flit} (hf : f.wf = true)
include hf

theorem flit_fields_lt : f.vc < 8 ∧ f.cls < 2 ∧ f.hops < 32 ∧ f.dst < 2 ^ 18 ∧ f.src < 2 ^ 18 ∧ f.payload.length ≤ 240 ∧ f.seq < 4096 ∧
    f.ack < 4096 ∧ f.creditVc < 8 ∧ f.creditCls < 2 ∧ f.credit < 8 := by
  simpa only [Flit.wf, Bool.and_eq_true, decide_eq_true_eq, and_assoc] using hf

/-- The fields of the header do not overlap, and KIND is that of a data flit. -/
theorem flitHeader_fields : flitHeader f < 256 ^ 8 ∧ bits (flitHeader f) 4 2 = 0 ∧ bits (flitHeader f) 0 3 = f.vc ∧
    bits (flitHeader f) 3 1 = f.cls ∧ bits (flitHeader f) 6 5 = f.hops ∧ bits (flitHeader f) 11 18 = f.dst ∧
    bits (flitHeader f) 29 18 = f.src ∧ bits (flitHeader f) 47 8 = f.payload.length ∧ bit (flitHeader f) 55 = f.last ∧
    bit (flitHeader f) 56 = f.poison := by
  obtain ⟨hvc, hcls, hhops, hdst, hsrc, hlen, -⟩ := flit_fields_lt hf
  have hlast := b2n_lt_two f.last
  have hpoison := b2n_lt_two f.poison
  simp only [bits, Nat.shiftRight_eq_div_pow, flitHeader]
  refine ⟨?_, ?_, ?_, ?_, ?_, ?_, ?_, ?_, bit_of_b2n ?_, bit_of_b2n ?_⟩ <;> omega

/-- The fields of the link word do not overlap. -/
theorem flitLink_fields : flitLink f < 256 ^ 4 ∧ bits (flitLink f) 0 12 = f.seq ∧ bits (flitLink f) 12 12 = f.ack ∧
    bits (flitLink f) 24 3 = f.creditVc ∧ bits (flitLink f) 27 3 = f.credit ∧ bits (flitLink f) 30 1 = f.creditCls ∧
    bit (flitLink f) 31 = f.nak := by
  obtain ⟨-, -, -, -, -, -, hseq, hack, hvc, hcls, hcredit⟩ := flit_fields_lt hf
  have hnak := b2n_lt_two f.nak
  simp only [bits, Nat.shiftRight_eq_div_pow, flitLink]
  refine ⟨?_, ?_, ?_, ?_, ?_, ?_, bit_of_b2n ?_⟩ <;> omega

/-- The flit that was sent is read back. -/
theorem flitOf_flitBytes : flitOf (flitBytes f) = some f := by
  obtain ⟨hh, hkind, hvc, hcls, hhops, hdst, hsrc, hlen, hlast, hpoison⟩ := flitHeader_fields hf
  obtain ⟨hl, hseq, hack, hcvc, hcredit, hccls, hnak⟩ := flitLink_fields hf
  obtain ⟨-, -, -, -, -, hle, -⟩ := flit_fields_lt hf
  have hpayload : ((flitBytes f).drop 8).take f.payload.length = f.payload := by
    rw [flitBytes_payload f hle, flitPayload, List.take_take, Nat.min_eq_left hle, List.take_left]
  simp only [flitOf, flitBytes_header, flitBytes_link, ofBytes_toBytes, Nat.mod_eq_of_lt hh, Nat.mod_eq_of_lt hl, hkind, hvc, hcls, hhops,
    hdst, hsrc, hlen, hlast, hpoison, hseq, hack, hcvc, hcredit, hccls, hnak, Nat.min_eq_right hle, hpayload, ne_eq, not_true_eq_false, if_false]

end

/-! ### The link word of a flit received (R434–R437) -/

/-- The link layer after link word `w`: what it acknowledges is freed, the credits it returns are not used any more. -/
def LinkLayer.taken (w : LinkWord) (l : LinkLayer) : LinkLayer := { l with
  replay := unacked l.replay w.ack
  resend := unacked l.resend w.ack
  replayFails := if (unacked l.replay w.ack).length < l.replay.length then 0 else l.replayFails
  used := Tab.set l.used (vcIdx w.creditVc w.creditCls) (Tab.get 0 l.used (vcIdx w.creditVc w.creditCls) - w.credit) }

/-- The link word that a flit carries. -/
def linkWordOf (f : Flit) : LinkWord := { ack := f.ack, creditVc := f.creditVc, creditCls := f.creditCls, credit := f.credit, nak := f.nak }

/-- The link layer once a flit is accepted in order. -/
def LinkLayer.advanced (f : Flit) (l : LinkLayer) : LinkLayer :=
  { l.taken (linkWordOf f) with rxNext := (l.rxNext + 1) % 4096, discarding := false }

/-- The link layer with one buffer more to return of pair `k`. -/
def LinkLayer.owing (k : Nat) (l : LinkLayer) : LinkLayer := { l with owed := Tab.set l.owed k (Tab.get 0 l.owed k + 1) }

section
variable (p : Nat) (c : Ctx)

theorem linkWordTake_ack {w : LinkWord} (h : w.nak = false) : linkWordTake p w c = c.updLink p (LinkLayer.taken w) := by
  simp only [linkWordTake, h, Bool.false_eq_true, if_false]
  rfl

variable {p c}

theorem replay_nothing (h : (c.port p).link.replay = []) : replay p c = linkErr p 1 c := by
  simp only [replay, h, List.isEmpty_nil, if_true]

theorem replay_retrains (h : (c.port p).link.replay ≠ []) (h8 : (c.port p).link.replayFails = 8) :
    replay p c = retrain p (c.updLink p (fun l => { l with replayFails := 0 })) := by
  simp only [replay, List.isEmpty_iff, h, h8, if_false, if_true]

theorem replay_resends (h : (c.port p).link.replay ≠ []) (h8 : (c.port p).link.replayFails ≠ 8) :
    replay p c = linkErr p 1 (c.updLink p (fun l => { l with resend := l.replay, replayFails := l.replayFails + 1 })) := by
  simp only [replay, List.isEmpty_iff, h, h8, if_false]

end

/-! ### A NAK (R435, R436) -/

section
variable {c : Ctx} {p : Nat} {w : LinkWord} (ht : (c.port p).trained = true)
include ht

/-- A NAK is a link word, and then a replay of what it leaves unacknowledged. -/
theorem nakOp_eq : nakOp p w c = replay p (c.updLink p (LinkLayer.taken w)) := if_pos ht

theorem nakOp_nothing (hu : unacked (c.port p).link.replay w.ack = []) : nakOp p w c = linkErr p 1 (c.updLink p (LinkLayer.taken w)) := by
  rw [nakOp_eq ht, replay_nothing (by rw [updLink_same]; exact hu)]

theorem nakOp_retrains (hu : unacked (c.port p).link.replay w.ack ≠ []) (h8 : ((c.port p).link.taken w).replayFails = 8) :
    nakOp p w c = retrain p (c.updLink p (fun l => { l.taken w with replayFails := 0 })) := by
  rw [nakOp_eq ht, replay_retrains (by rw [updLink_same]; exact hu) (by rw [updLink_same]; exact h8), updLink_updLink]

theorem nakOp_replays (hu : unacked (c.port p).link.replay w.ack ≠ []) (h8 : ((c.port p).link.taken w).replayFails ≠ 8) :
    nakOp p w c = linkErr p 1 (c.updLink p (fun l =>
      { l.taken w with resend := unacked l.replay w.ack, replayFails := (l.taken w).replayFails + 1 })) := by
  rw [nakOp_eq ht, replay_resends (by rw [updLink_same]; exact hu) (by rw [updLink_same]; exact h8), updLink_updLink]
  rfl

end

/-! ### A link layer is no part of routing (R452, R453) -/

section
variable (c : Ctx) (p : Nat) (f : LinkLayer → LinkLayer)

theorem vcOpen_updLink (q vc : Nat) : vcOpen (c.updLink p f) q vc = vcOpen c q vc := by
  have htrained := updLink_port_keeps (g := Port.trained) (fun _ _ => rfl) c p f q
  have hstate := updLink_port_keeps (g := Port.state) (fun _ _ => rfl) c p f q
  simp only [vcOpen, htrained, hstate]
  rfl

theorem candidateWeight_updLink : candidateWeight (c.updLink p f) = candidateWeight c := by
  have hstate := updLink_port_keeps (g := Port.state) (fun _ _ => rfl) c p f
  have hlanes := updLink_port_keeps (g := Port.lanes) (fun _ _ => rfl) c p f
  have hrate := updLink_port_keeps (g := Port.rate) (fun _ _ => rfl) c p f
  funext e i
  simp only [candidateWeight, hstate, hlanes, hrate]

theorem routeVc_updLink (d vc dst src : Nat) : routeVc (c.updLink p f) d vc dst src = routeVc c d vc dst src := by
  have hstate := updLink_port_keeps (g := Port.state) (fun _ _ => rfl) c p f
  have hentry : routeEntry (c.updLink p f) d dst = routeEntry c d dst := rfl
  simp only [routeVc, route, candidateWeight_updLink, hstate, hentry]

end

/-! ### A flit comes (R431, R435, R447, R453–R455) -/

section
variable {c : Ctx} {p : Nat} {f : Flit}

/-- A flit for this package is delivered and its buffer returned, whatever its link word has changed. -/
theorem flitAccept_delivers (g : LinkLayer → LinkLayer) (hvc : vcOpen c p f.vc = true) (hus : forUs c f = true) :
    flitAccept p f (c.updLink p g) = (c.updLink p (fun l => (g l).owing (vcIdx f.vc f.cls))).send (.delivered p f) := by
  have hus' : forUs (c.updLink p g) f = true := hus
  simp only [flitAccept, vcOpen_updLink, hvc, hus', Bool.not_true, Bool.false_eq_true, if_false, if_true, bufferFree, updLink_updLink]
  rfl

/-- The class of a transit flit after the hop (R454). -/
def forwardClass (c : Ctx) (p : Nat) (line : Bool) (f : Flit) : Nat :=
  if line then 1 else if phaseAt (c.port p).partner.pkg f.dst < phaseAt c.dev.boot.pkg f.dst then 0 else f.cls

/-- The queue of the next port takes a transit flit. -/
def LinkLayer.queued (p cls : Nat) (f : Flit) (l : LinkLayer) : LinkLayer := { l with
  txq := l.txq ++ [{ flit := { f with hops := f.hops - 1, cls := cls }, origin := some (p, vcIdx f.vc f.cls) }] }

theorem flitAccept_forwards {q : Nat} {line : Bool} (g : LinkLayer → LinkLayer) (hvc : vcOpen c p f.vc = true) (hus : forUs c f = false)
    (hs : c.dev.safe.safe = false) (h1 : f.hops ≠ 1) (h0 : f.hops ≠ 0) (hr : routeVc c (p / 9) f.vc f.dst f.src = some (q, line)) :
    flitAccept p f (c.updLink p g) = (c.updLink p g).updLink q (LinkLayer.queued p (forwardClass c p line f) f) := by
  have hus' : forUs (c.updLink p g) f = false := hus
  have hs' : (c.updLink p g).dev.safe.safe = false := hs
  have hhops : f.hops - 1 ≠ 0 := by omega
  have hpartner := updLink_port_keeps (g := fun x => x.partner.pkg) (fun _ _ => rfl) c p g p
  simp only [flitAccept, vcOpen_updLink, hvc, hus', hs', Bool.not_true, Bool.false_eq_true, if_false, forward, hhops, routeVc_updLink, hr, hpartner,
    decide_eq_true_eq]
  rfl

theorem badFlit_opens (h : (c.port p).link.discarding = false) :
    badFlit p c = linkErr p 0 (c.updLink p (fun l => { l with discarding := true, nakDue := true })) := by
  simp only [badFlit, h, Bool.false_and, Bool.false_eq_true, if_false]

theorem badFlit_ignored (h : (c.port p).link.discarding = true) (hn : (c.port p).link.nakDue = true) : badFlit p c = c := by
  simp only [badFlit, h, hn, Bool.not_true, Bool.and_false, Bool.false_eq_true, if_false, Bool.true_or, Bool.and_self, if_true]

/-- After the NAK has left, a bad flit belongs to the open episode or opens the next (log entry 127). -/
theorem badFlit_free (h : (c.port p).link.discarding = true) (hn : (c.port p).link.nakDue = false) :
    badFlit p c = (c.draw 1).2 ∨
      badFlit p c = linkErr p 0 ((c.draw 1).2.updLink p (fun l => { l with discarding := true, nakDue := true })) := by
  simp only [badFlit, h, hn, Bool.not_false, Bool.and_self, if_true, Bool.false_or, Bool.true_and]
  cases Config.freeBool (c.draw 1).1
  · exact .inl rfl
  · exact .inr rfl

variable (ht : (c.port p).trained = true) {raw : List Byte}
include ht

theorem dataFlitReceiveOp_bad {fec : Bool} (h : (fec && crcGood raw) = false) : dataFlitReceiveOp p raw fec c = badFlit p c := by
  have hbad : (!fec || !crcGood raw) = true := by rw [← Bool.not_and, h]; rfl
  simp only [dataFlitReceiveOp, ht, hbad, Bool.not_true, Bool.false_eq_true, if_false, if_true]

/-- A good flit's link word is taken, and the flit next in order accepted. -/
theorem dataFlitReceiveOp_good (hcrc : crcGood raw = true) (hf : flitOf raw = some f) (hnak : f.nak = false) :
    dataFlitReceiveOp p raw true c =
      if f.seq = (c.port p).link.rxNext then flitAccept p f (c.updLink p (LinkLayer.advanced f))
      else c.updLink p (LinkLayer.taken (linkWordOf f)) := by
  have hword : linkWordTake p (linkWordOf f) c = c.updLink p (LinkLayer.taken (linkWordOf f)) := linkWordTake_ack p c hnak
  rw [linkWordOf] at hword
  have htrained : ((c.updLink p (LinkLayer.taken (linkWordOf f))).port p).trained = true :=
    (updLink_port_keeps (g := Port.trained) (fun _ _ => rfl) c p _ p).trans ht
  have hnext : ((c.updLink p (LinkLayer.taken (linkWordOf f))).port p).link.rxNext = (c.port p).link.rxNext :=
    updLink_link_keeps (g := LinkLayer.rxNext) (LinkLayer.taken _) (fun _ => rfl) c p p
  rw [linkWordOf] at htrained hnext
  simp only [dataFlitReceiveOp, ht, hcrc, hf, hword, htrained, hnext, Bool.not_true, Bool.or_self, Bool.false_or, Bool.false_eq_true, if_false,
    updLink_updLink, decide_eq_true_eq, ne_eq]
  rw [ite_not]
  rfl

end

/-! ### A flit leaves (R433–R438) -/

/-- A flit with the link word and the SEQ it leaves with. -/
def stamped (w : LinkWord) (f : Flit) (seq : Nat) : Flit :=
  { f with seq := seq, ack := w.ack, creditVc := w.creditVc, creditCls := w.creditCls, credit := w.credit, nak := w.nak }

/-- The link layer once waiting flit `q` has left for the first time. -/
def LinkLayer.sentFlit (q : TxFlit) (turn n : Nat) (l : LinkLayer) : LinkLayer := { (linkWordMake l).2 with
  txq := (linkWordMake l).2.txq.erase q
  replay := (linkWordMake l).2.replay ++ [stamped (linkWordMake l).1 q.flit l.txSeq]
  txSeq := (l.txSeq + 1) % 4096
  used := Tab.set (linkWordMake l).2.used (vcIdx q.flit.vc q.flit.cls) (Tab.get 0 (linkWordMake l).2.used (vcIdx q.flit.vc q.flit.cls) + 1)
  turn := turn
  turnSent := n }

/-- The receive buffer of a transit flit that leaves is returned at the port it came by. -/
def bufferReturned (origin : Option (Nat × Nat)) (c : Ctx) : Ctx :=
  match origin with
  | some (o, k) => c.updLink o (LinkLayer.owing k)
  | none => c

theorem ownFlits_nil (p : Nat) (c : Ctx) : ownFlits p [] c = c.updPort p id := by
  simp only [ownFlits, Ctx.updLink, List.filterMap_nil, List.append_nil]
  rfl

theorem ownFlits_keeps {β : Type} {g : Port → β} (h : ∀ x l, g { x with link := l } = g x) (p : Nat) (own : List (Nat × Flit)) (c : Ctx)
    (q : Nat) : g ((ownFlits p own c).port q) = g (c.port q) := updLink_port_keeps h c p _ q

theorem nextFlit_updPort_id (c : Ctx) (p : Nat) : nextFlit (c.updPort p id) p = nextFlit c p := by
  simp only [nextFlit, vcOpen, updPort_same, id_eq, updPort_safe, updPort_boot]
  rfl

section
variable {c : Ctx} {p : Nat} (ht : (c.port p).trained = true)
include ht

/-- Own flits join the queue first. -/
theorem flitSendOp_own (own : List (Nat × Flit)) : flitSendOp p own c = flitSendOp p [] (ownFlits p own c) := by
  have hagain : ownFlits p [] (ownFlits p own c) = ownFlits p own c := by
    rw [ownFlits_nil, ownFlits, Ctx.updLink, updPort_updPort]
    rfl
  have htrained : ((ownFlits p own c).port p).trained = true := (ownFlits_keeps (g := Port.trained) (fun _ _ => rfl) p own c p).trans ht
  simp only [flitSendOp, ht, htrained, hagain, Bool.not_true, Bool.false_eq_true, if_false]

theorem flitSendOp_resends {g : Flit} {rest : List Flit} (h : (c.port p).link.resend = g :: rest) :
    flitSendOp p [] c = (c.updLink p (fun l => { (linkWordMake l).2 with resend := rest })).sends
      [.flit p (stamped (linkWordMake (c.port p).link).1 g g.seq)] := by
  simp only [flitSendOp, ht, Bool.not_true, Bool.false_eq_true, if_false, ownFlits_nil, updPort_same, id_eq, h, Ctx.updLink, updPort_updPort]
  rfl

variable (hr : (c.port p).link.resend = [])
include hr

theorem flitSendOp_null (h : 4095 ≤ (c.port p).link.replay.length ∨ nextFlit c p = none) :
    flitSendOp p [] c = (c.updLink p (fun l => (linkWordMake l).2)).sends [.nullFlit p (linkWordMake (c.port p).link).1] := by
  have hnone : (if (c.port p).link.replay.length < 4095 then nextFlit c p else none) = none := by
    rcases h with h | h
    · rw [if_neg (Nat.not_lt.mpr h)]
    · rw [h, ite_self]
  simp only [flitSendOp, ht, Bool.not_true, Bool.false_eq_true, if_false, ownFlits_nil, updPort_same, id_eq, hr, nextFlit_updPort_id, hnone, Ctx.updLink,
    updPort_updPort]
  rfl

/-- A data flit leaves, and a transit flit's buffer is returned. -/
theorem flitSendOp_sends {q : TxFlit} {turn n : Nat} (hl : (c.port p).link.replay.length < 4095) (h : nextFlit c p = some (q, turn, n)) :
    flitSendOp p [] c = bufferReturned q.origin ((c.updLink p (LinkLayer.sentFlit q turn n)).sends
      [.flit p (stamped (linkWordMake (c.port p).link).1 q.flit (c.port p).link.txSeq)]) := by
  simp only [flitSendOp, ht, Bool.not_true, Bool.false_eq_true, if_false, ownFlits_nil, updPort_same, id_eq, hr, nextFlit_updPort_id, if_pos hl, h,
    Ctx.updLink, updPort_updPort]
  rfl

end

/-- Settles O44: the bytes of a flit are read back field by field; sending and receiving are the branch that the hypotheses select, each a change
of the port's link layer, for a transit flit also of the next port's. -/
theorem linkFlitsAreSentAndTakenInOrder : Obligations.LinkFlitsAreSentAndTakenInOrder := by
  unfold Obligations.LinkFlitsAreSentAndTakenInOrder
  intro s p f raw fec lw hp hf hlw hraw ht x l w l1 sent taken fw inOrder
  have hsend : (Instr.flitSend p []).wf = true := by simp [Instr.wf, hp]
  have hdata (fec : Bool) : (Instr.dataFlitReceive p raw fec).wf = true := by simp [Instr.wf, hp, hraw]
  have hnull : (Instr.nullFlit p lw).wf = true := by simp [Instr.wf, hp, hlw]
  have hnak : (Instr.nak p lw).wf = true := hnull
  refine ⟨⟨length_flitBytes f, crcGood_flitBytes f, flitOf_flitBytes hf⟩, fun g rest h => ?resend, fun hr h => ?null,
    fun q turn n hr hl h ho => ?own, fun q turn n o k hr hl h ho hne => ?transit, fun own hown => ?queue,
    fun hcrc hof hfn hseq hvc => ⟨fun hus => ?delivered, fun q line hus hs h1 h0 hroute => ?forwarded⟩,
    fun hcrc hof hfn hseq => ?outOfOrder, fun hbad => ⟨fun hd => ?opened, fun hd hn => ?ignored, fun hd hn => ?free⟩,
    fun hn => ?nullTaken, fun hu => ?nakNothing, fun hu h8 => ?nakRetrains, fun hu h8 => ?nakReplays⟩
  case resend => exact completes_port hsend rfl (flitSendOp_resends ht h)
  case null => exact completes_port hsend rfl (flitSendOp_null ht hr h)
  case own =>
    have hop := flitSendOp_sends ht hr hl h
    rw [ho] at hop
    exact (completes_port hsend rfl hop).imp fun t ⟨honly, hport, hout⟩ => ⟨honly, hout, hport⟩
  case transit =>
    have hop := flitSendOp_sends ht hr hl h
    rw [ho] at hop
    refine (completes_links hsend rfl hop).imp fun t ⟨hmem, hdev, hport⟩ => ⟨hmem, (congrArg Dev.outbox hdev :), ?_⟩
    have hother : (s.ctx.updLink p (LinkLayer.sentFlit q turn n)).port o = s.ctx.port o := updPort_other _ _ hne
    rw [hport, updLink_same, hother]
    exact Tab.get_set_same ..
  case queue =>
    have hwf : (Instr.flitSend p own).wf = true := by simp only [Instr.wf, hp, hown, decide_true, Bool.and_self]
    exact completes_becomes hwf rfl (flitSendOp_own ht own)
  case delivered =>
    have hop := (dataFlitReceiveOp_good ht hcrc hof hfn).trans ((if_pos hseq).trans (flitAccept_delivers (LinkLayer.advanced f) hvc hus))
    exact (completes_port (hdata true) rfl hop).imp fun t ⟨honly, hport, hout⟩ => ⟨honly, hout, hport⟩
  case forwarded =>
    have hop := (dataFlitReceiveOp_good ht hcrc hof hfn).trans
      ((if_pos hseq).trans (flitAccept_forwards (LinkLayer.advanced f) hvc hus hs h1 h0 hroute))
    rw [← sends_nil (s.ctx.updLink p _)] at hop
    refine (completes_links (hdata true) rfl hop).imp fun t ⟨hmem, hdev, hport⟩ =>
      ⟨hmem, hdev.trans (by rw [List.append_nil]), ?_, ?_, fun k hkp hkq => ?_⟩
    · rw [hport, updLink_same]
      exact congrArg (· ++ _) (updLink_link_keeps (g := LinkLayer.txq) (LinkLayer.advanced f) (fun _ => rfl) s.ctx p q)
    · rw [hport, updLink_link_keeps (g := LinkLayer.rxNext) (LinkLayer.queued _ _ _) (fun _ => rfl), updLink_same]
      rfl
    · rw [hport]
      exact (updPort_other _ _ hkq).trans (updPort_other _ _ hkp)
  case outOfOrder => exact completes_port_quiet (hdata true) rfl ((dataFlitReceiveOp_good ht hcrc hof hfn).trans (if_neg hseq))
  case opened => exact completes_becomes (hdata fec) rfl ((dataFlitReceiveOp_bad ht hbad).trans (badFlit_opens hd))
  case ignored => exact completes_dev (dev := s.dev) (hdata fec) rfl ((dataFlitReceiveOp_bad ht hbad).trans (badFlit_ignored hd hn))
  case free =>
    refine .of_run _ (hdata fec) rfl ((badFlit_free hd hn).imp (fun h => .of_eq ?_) fun h => .of_eq ?_)
    · exact (dataFlitReceiveOp_bad ht hbad).trans h
    · exact (dataFlitReceiveOp_bad ht hbad).trans h
  case nullTaken => exact completes_port_quiet hnull rfl ((if_pos ht).trans (linkWordTake_ack p s.ctx hn))
  case nakNothing => exact completes_becomes hnak rfl (nakOp_nothing ht hu)
  case nakRetrains => exact completes_becomes hnak rfl (nakOp_retrains ht hu h8)
  case nakReplays => exact completes_becomes hnak rfl (nakOp_replays ht hu h8)

end Sys2Proof.Machine

namespace Sys2Proof.Machine

/-! ### Attempts of a training (R439, R444, R652) -/

/-- A port that begins an attempt at `code`. -/
def Port.attempting (code now : Nat) (x : Port) : Port := { x with step := 2, code := code, agreed := false, since := now }

/-- An attempt changes the port, and its proposal goes out. -/
theorem attempt_eq (p code : Nat) (c : Ctx) :
    attempt p code c = (c.updPort p (Port.attempting code c.dev.slow)).sends [.rateProposal p code ownRates] := rfl

/-- A command with which a port, changed by `f`, begins an attempt at `code`. -/
theorem completes_attempt {i : Instr} {s : State} {op : Ctx → Ctx} {p code : Nat} {f : Port → Port} (hw : i.wf = true)
    (he : exec i s = perform i s op) (hop : op s.ctx = attempt p code (s.ctx.updPort p f)) :
    Completes i s fun t => OnlyPort p s t ∧ t.ctx.port p = (f (s.ctx.port p)).attempting code s.dev.slow ∧
      t.dev.outbox = s.dev.outbox ++ [.rateProposal p code ownRates] :=
  completes_port hw he (hop.trans (by rw [attempt_eq, updPort_updPort]))

/-- A training that begins with a change of the port which leaves the rates to propose. -/
theorem trainStart_updPort (p : Nat) (again : Bool) (c : Ctx) {f : Port → Port} (hf : firstCode (f (c.port p)) = firstCode (c.port p)) :
    trainStart p again (c.updPort p f) =
      attempt p (firstCode (c.port p)) (c.updPort p (fun x => { f x with attempts := 0, again := again })) := by
  rw [trainStart, updPort_updPort, updPort_same, hf]

section
variable {c : Ctx} {p : Nat}

theorem linkSignalDetectOp_trains (hs : (c.port p).signal = false) (hst : (c.port p).state = 1) (hstep : (c.port p).step = 1) :
    linkSignalDetectOp p c =
      attempt p (firstCode (c.port p)) (c.updPort p (fun x => { x with signal := true, attempts := 0, again := false })) := by
  simp only [linkSignalDetectOp, hs, hst, hstep, Bool.false_eq_true, if_false, decide_true, Bool.and_self, if_true]
  exact trainStart_updPort p false c rfl

/-- A port that went DOWN for want of signal or of a training that passed trains again (R444). -/
theorem linkSignalDetectOp_trainsAgain (hs : (c.port p).signal = false) (hst : (c.port p).state = 5) (hcause : (c.port p).downCause ∈ [1, 2, 6])
    (hstep : (c.port p).step ≤ 1) : linkSignalDetectOp p c =
      attempt p (firstCode (c.port p)) (c.updPort p (fun x => { x with signal := true, attempts := 0, again := true })) := by
  have hcause' : (decide ((c.port p).downCause = 1) || decide ((c.port p).downCause = 2) || decide ((c.port p).downCause = 6)) = true := by
    simpa [or_assoc] using hcause
  simp only [linkSignalDetectOp, hs, hst, hstep, hcause', Bool.false_eq_true, if_false, Nat.reduceEqDiff, decide_false, Bool.false_and, decide_true,
    Bool.and_self, if_true]
  exact trainStart_updPort p true c rfl

theorem linkSignalLossOp_retrains (ht : (c.port p).trained = true) :
    linkSignalLossOp p c = retrain p (c.updPort p (fun y => { y with signal := false })) := if_pos ht

theorem linkSignalLossOp_notes (ht : (c.port p).trained = false) :
    linkSignalLossOp p c = c.updPort p (fun y => { y with signal := false, lost := y.lost || y.state == 4 }) := by
  by_cases h4 : (c.port p).state = 4
  · simp only [linkSignalLossOp, ht, h4, Bool.false_eq_true, if_false, if_true, updPort_updPort]
    refine updPort_congr ?_
    simp only [h4, beq_self_eq_true, Bool.or_true]
  · simp only [linkSignalLossOp, ht, h4, Bool.false_eq_true, if_false]
    refine updPort_congr ?_
    simp only [beq_eq_false_iff_ne.mpr h4, Bool.or_false]

/-- The highest code with which a proposal is answered: the expected rate at the first attempt, the code of the attempt later (R652). -/
def answerTop (x : Port) : Nat := if x.attempts = 0 ∧ x.code = firstCode x then x.expRate else x.code

/-- A port with the code agreed of its own proposal and its partner's. -/
def Port.agreeing (own proposed rates : Nat) (x : Port) : Port := { x with
  partner := { x.partner with rates := rates, heard := true }, code := min own proposed, agreed := true
  attempts := if min own proposed = x.code then x.attempts else 0 }

theorem rateProposalOp_agrees {proposed rates own : Nat} (ht : (c.port p).trained = false) (hstep : (c.port p).step = 2)
    (hs : (c.port p).signal = true) (hown : bestRate (answerTop (c.port p)) rates = some own) :
    rateProposalOp p proposed rates c = (c.updPort p (Port.agreeing own proposed rates)).sends
      (if own = (c.port p).code then [] else [.rateProposal p own ownRates]) := by
  have hown' : bestRate (if ((c.port p).attempts = 0 && (c.port p).code = firstCode (c.port p)) = true then (c.port p).expRate
      else (c.port p).code) rates = some own := by simpa only [answerTop, Bool.and_eq_true, decide_eq_true_eq] using hown
  simp only [rateProposalOp, rateTake, ht, hstep, hs, hown', ne_eq, not_true_eq_false, decide_false, Bool.not_true, Bool.or_self, Bool.false_eq_true,
    if_false, updPort_updPort]
  split
  · exact (sends_nil _).symm
  · rfl

/-! ### The end of the attempts (R429, R440, Table 12-4) -/

/-- The lanes that pass and that the defect list does not hold out. -/
def lanesPassed (c : Ctx) (p lanes : Nat) : Nat := maskOf 4 (fun i => bit lanes i && !bit (lanesHeld c p) i)

theorem equalisationCompleteOp_passes {lanes loss delay set : Nat} (hstep : (c.port p).step = 2) (ha : (c.port p).agreed = true)
    (hs : (c.port p).signal = true) (hst : (c.port p).state ≠ 4) (hset : laneSet (lanesPassed c p lanes) = some set) :
    equalisationCompleteOp p lanes loss delay c =
      (c.updPort p (fun y => { y with
        step := 7, rate := y.code, lanes := set, lanesOk := lanesPassed c p lanes, loss := loss, length := min 255 ((2 * delay + 94) / 188)
        link := {} })).sends [.capability p (capOf c p (lanesPassed c p lanes) c.dev.boot.deviceId8)] := by
  rw [lanesPassed] at hset
  simp only [equalisationCompleteOp, hstep, ha, hs, hst, hset, ne_eq, not_true_eq_false, decide_false, Bool.not_true, Bool.or_self,
    Bool.false_eq_true, if_false]
  rfl

theorem overdue_not (h : ¬ ((c.port p).state = 4 ∧ (c.port p).lost = true ∧
    9 * (c.linkCfg (p / 9)).trainTimeout ≤ c.since (c.port p).retrainAt)) : overdue p c = c := by
  refine if_neg fun hover => h ?_
  simpa only [Bool.and_eq_true, decide_eq_true_eq, and_assoc] using hover

/-- An attempt that has had its time: the next at the same code, else at the next lower one, else none. -/
theorem trainTimeoutOp_eq (hstep : (c.port p).step = 2) (hpast : (c.linkCfg (p / 9)).trainTimeout ≤ c.since (c.port p).since)
    (h : ¬ ((c.port p).state = 4 ∧ (c.port p).lost = true ∧ 9 * (c.linkCfg (p / 9)).trainTimeout ≤ c.since (c.port p).retrainAt)) :
    trainTimeoutOp p c =
      if (c.port p).attempts + 1 < 3 then attempt p (c.port p).code (c.updPort p (fun y => { y with attempts := y.attempts + 1 }))
      else if (c.port p).code = 0 then stageStep (trainFailed p c)
      else attempt p ((c.port p).code - 1) (c.updPort p (fun y => { y with attempts := 0 })) := by
  have hgo : ((c.port p).step ≠ 2 || decide (c.since (c.port p).since < (c.linkCfg (p / 9)).trainTimeout)) = false := by
    simpa [hstep] using hpast
  rw [trainTimeoutOp, overdue_not h]
  simp only [attemptFailed, hgo, Bool.false_eq_true, if_false]

theorem discoveryWindowOp_trainsAgain (hst : (c.port p).state = 5) (hcause : (c.port p).downCause ∈ [2, 6]) (hs : (c.port p).signal = true)
    (hstep : (c.port p).step ≤ 1) (hpast : (c.linkCfg (p / 9)).discoveryWindow ≤ c.since (c.port p).lastEnd) :
    discoveryWindowOp (some p) c =
      attempt p (firstCode (c.port p)) (c.updPort p (fun x => { x with attempts := 0, again := true })) := by
  have hcause' : (decide ((c.port p).downCause = 2) || decide ((c.port p).downCause = 6)) = true := by simpa using hcause
  simp only [discoveryWindowOp, hst, hcause', hs, hstep, hpast, decide_true, Bool.and_self, if_true]
  rfl

end

/-- The end of the discovery window takes the ports without signal DOWN. -/
theorem windowEnd_over {c : Ctx} (hs : c.dev.topo.started = true) (h : (c.linkCfg 0).discoveryWindow ≤ c.since c.dev.topo.since) :
    windowEnd c = forAll (usedPorts c) (fun q a => if (a.port q).state = 1 && (a.port q).step = 1 then portDown q 1 a else a) c := by
  refine if_pos ?_
  rw [hs, decide_eq_true h, Bool.and_self]

/-- Settles O45: each command is the branch of its meaning that the hypotheses select: an attempt, a change of the port, or the shared end of a
training. -/
theorem portsTrainStepByStep : Obligations.PortsTrainStepByStep := by
  unfold Obligations.PortsTrainStepByStep
  intro s p lanes loss delay proposed rates hp hlanes hloss hdelay hproposed hrates x tries
  have hwf {i : Instr} (h : i.wf = decide (p < 36)) : i.wf = true := h.trans (decide_eq_true hp)
  have hrate : (Instr.rateProposal p proposed rates).wf = true := by simp [Instr.wf, hp, hproposed, hrates]
  have hequal : (Instr.equalisationComplete p lanes loss delay).wf = true := by simp [Instr.wf, hp, hlanes, hloss, hdelay]
  refine ⟨fun hs hst hstep => ?detected, fun hs hst hcause hstep => ?detectedAgain, fun ht => ?lostTrained, fun ht => ?lost,
    fun ht => ?proposalRetrains, fun own ht hstep hs hown => ?agreed, fun set hstep ha hs hst => ?equalised, ?timeout,
    fun hstep hpast hover => ⟨fun hmore => ?repeated, fun hlast hcode => ?lowered, fun hlast hcode => ?failed⟩,
    fun hst hcause hs hstep hpast => ?windowAgain, fun hs hpast => ?window⟩
  case detected => exact completes_attempt (hwf rfl) rfl (linkSignalDetectOp_trains hs hst hstep)
  case detectedAgain => exact completes_attempt (hwf rfl) rfl (linkSignalDetectOp_trainsAgain hs hst hcause hstep)
  case lostTrained => exact completes_becomes (hwf rfl) rfl (linkSignalLossOp_retrains ht)
  case lost => exact completes_port_quiet (hwf rfl) rfl (linkSignalLossOp_notes ht)
  case proposalRetrains => exact completes_becomes hrate rfl (congrArg (rateTake p proposed rates) (if_pos ht))
  case agreed =>
    exact (completes_port hrate rfl (rateProposalOp_agrees ht hstep hs hown)).imp fun t ⟨honly, hport, hout⟩ => ⟨honly, hout, hport⟩
  case equalised =>
    intro pass hset
    exact (completes_port hequal rfl (equalisationCompleteOp_passes hstep ha hs hst hset)).imp fun t ⟨honly, hport, hout⟩ => ⟨honly, hout, hport⟩
  case timeout => exact completes_becomes (hwf rfl) rfl rfl
  case windowAgain => exact completes_attempt (hwf rfl) rfl (discoveryWindowOp_trainsAgain hst hcause hs hstep hpast)
  case window => exact completes_becomes rfl rfl (congrArg stageStep (windowEnd_over hs hpast))
  case repeated => exact completes_attempt (hwf rfl) rfl ((trainTimeoutOp_eq hstep hpast hover).trans (if_pos hmore))
  case lowered =>
    exact completes_attempt (hwf rfl) rfl
      ((trainTimeoutOp_eq hstep hpast hover).trans ((if_neg (Nat.not_lt.mpr hlast)).trans (if_neg hcode)))
  case failed =>
    exact completes_becomes (hwf rfl) rfl
      ((trainTimeoutOp_eq hstep hpast hover).trans ((if_neg (Nat.not_lt.mpr hlast)).trans (if_pos hcode)))

end Sys2Proof.Machine

namespace Sys2Proof.Machine

/-! ### Capability records (R441, R446, R449) -/

/-- The port after a capability record has been kept. -/
def recordKept (p : Nat) (r : CapRecord) (c : Ctx) : Ctx := c.updPort p (fun y => { y with partner := partnerOf r, busy := r.busy })

/-- The duplicate and the notice that a record brings. -/
def recordNoted (p : Nat) (r : CapRecord) (c : Ctx) : Ctx :=
  let c1 := recordKept p r c
  let c2 := match duplicate c1 p r with | some id => dupFound p id c1 | none => c1
  if r.unavailable = true ∧ (c.port p).partner.unavailable = false then sendNotice (r.pkg / 8) 2 c2 else c2

theorem recordNoted_quiet {p : Nat} {r : CapRecord} {c : Ctx} (hd : duplicate (recordKept p r c) p r = none) (hu : r.unavailable = false) :
    recordNoted p r c = recordKept p r c := by
  simp only [recordNoted, hd, hu, Bool.false_eq_true, false_and, if_false]

/-- A record that a port in its training or trained takes. -/
theorem capabilityRecordOp_eq {p : Nat} {r : CapRecord} {c : Ctx} (h : 7 ≤ (c.port p).step ∨ (c.port p).trained = true) :
    capabilityRecordOp p r c =
      if (c.port p).step = 7 then
        if (c.port p).state ≠ 4 ∧ ((c.linkCfg (p / 9)).admOn = true ∨ r.admOn = true) then admissionStart p (recordNoted p r c)
        else stageStep (portSettle p (recordNoted p r c))
      else if (c.port p).step = 8 then recordNoted p r c
      else followPartner p (recordNoted p r c) := by
  have htakes : (decide ((c.port p).step < 7) && !(c.port p).trained) = false := by
    rcases h with h | h
    · rw [decide_eq_false (Nat.not_lt.mpr h), Bool.false_and]
    · rw [h, Bool.not_true, Bool.and_false]
  simp only [capabilityRecordOp, htakes, Bool.false_eq_true, if_false, Bool.and_eq_true, Bool.or_eq_true, Bool.not_eq_true', decide_eq_true_eq]
  rfl

/-! ### Admission (R442, R550, R551) -/

/-- The nonce that an admission exchange draws. -/
def drawnNonce (c : Ctx) : Nat := (List.range 12).foldl (fun n i => 2 ^ 32 * n + Config.freeNat (c.dev.fresh + i) % 2 ^ 32) 0

/-- A port that begins the exchange. -/
def Port.exchanging (nonce now : Nat) (x : Port) : Port := { x with step := 8, since := now, admission := { ownNonce := nonce } }

/-- The exchange begins with the nonce and this side's certificates. -/
theorem admissionStart_eq (p : Nat) (c : Ctx) : admissionStart p c =
    ((c.draw 12).2.updPort p (Port.exchanging (drawnNonce c) c.dev.slow)).sends
      [.admNonce p (drawnNonce c), .admIdentity p (identityCert c), .admOwner p (ownerCertOf c (imgBase c))] := by
  simp only [admissionStart, Ctx.send, List.append_assoc]
  rfl

theorem admissionStart_port (p : Nat) (c : Ctx) : (admissionStart p c).port p = (c.port p).exchanging (drawnNonce c) c.dev.slow := by
  rw [admissionStart_eq]
  exact updPort_same (c.draw 12).2 p _

theorem admissionStart_outbox (p : Nat) (c : Ctx) : (admissionStart p c).dev.outbox =
    c.dev.outbox ++ [.admNonce p (drawnNonce c), .admIdentity p (identityCert c), .admOwner p (ownerCertOf c (imgBase c))] := by
  rw [admissionStart_eq]
  rfl

section
variable {c : Ctx} {p : Nat} (h8 : (c.port p).step = 8)
include h8

theorem admNonceOp_proves (nonce : Nat) (hn : (c.port p).admission.haveNonce = false) :
    admNonceOp p nonce c =
      let g := deviceSign c (proofDigest nonce c.dev.sec.ownerDigest c.dev.boot.pkg p)
      (c.updPort p (fun y => { y with admission := { y.admission with peerNonce := nonce, haveNonce := true } })).sends
        [.admProof p { ownerDigest := c.dev.sec.ownerDigest, pkg := c.dev.boot.pkg, port := p, r := g.1, s := g.2 }] := by
  simp only [admNonceOp, h8, hn, ne_eq, not_true_eq_false, decide_false, Bool.or_self, Bool.false_eq_true, if_false]
  rfl

theorem admIdentityOp_records (cert : List Byte) :
    admIdentityOp p cert c = c.updPort p (fun y => { y with admission := { y.admission with
      devX := (certKey cert).1, devY := (certKey cert).2, idOk := certValid c 1 cert, haveId := true } }) := by
  rw [admIdentityOp, if_neg (not_not.mpr h8)]

theorem admOwnerOp_records (cert : List Byte) :
    admOwnerOp p cert c = c.updPort p (fun y => { y with admission := { y.admission with
      ownerOk := certValid c 2 cert, ownerDigest := keyDigest (certKey cert).1 (certKey cert).2, haveOwner := true } }) := by
  rw [admOwnerOp, if_neg (not_not.mpr h8)]

theorem admProofOp_settles (m : AdmProof) :
    admProofOp p m c =
      let ok := !(c.linkCfg (p / 9)).admOn || admitOk c (c.port p) m
      stageStep (portSettle p (c.updPort p (fun y => { y with
        admitted := ok, admission := { y.admission with proofOk := ok, haveProof := true, failed := !ok } }))) := by
  rw [admProofOp, if_neg (not_not.mpr h8)]

theorem admitTimeoutOp_settles (hpast : (c.linkCfg (p / 9)).admitTimeout ≤ c.since (c.port p).since) :
    admitTimeoutOp p c = stageStep (portSettle p (c.updPort p (fun y => { y with admission := { y.admission with failed := true } }))) := by
  simp only [admitTimeoutOp, h8, hpast, decide_true, Bool.and_self, if_true]

end

/-! ### The topology check (R450, R456) -/

/-- A port without signal goes DOWN without an event (R444). -/
theorem portDown_noSignal_keeps {β : Type} {g : Ctx → β} (hp : ∀ c p f, g (c.updPort p f) = g c) (p : Nat) (c : Ctx) :
    g (portDown p 1 c) = g c := by
  simp only [portDown, decide_true, Bool.or_true, if_true]
  exact hp _ _ _

theorem windowEnd_keeps {β : Type} {g : Ctx → β} (hp : ∀ c p f, g (c.updPort p f) = g c) (c : Ctx) : g (windowEnd c) = g c := by
  unfold windowEnd
  split
  · refine forAll_keeps (g := g) (fun q a => ?_) _ c
    split
    · exact portDown_noSignal_keeps hp q a
    · rfl
  · rfl

theorem loadRoutes_keeps {β : Type} {g : Ctx → β} (hl : ∀ (c : Ctx) (l : Tab LinkCfg), g { c with dev := { c.dev with linkCfg := l } } = g c) (c : Ctx) :
    g (loadRoutes c) = g c :=
  List.foldlRecOn (motive := fun a => g a = g c) _ _ rfl fun a ha _ _ => (hl a _).trans ha

/-- The ports in use that are in a state. -/
def portsIn (c : Ctx) (state : Nat) : Nat := ((usedPorts c).filter (fun q => (c.port q).state == state)).length

/-- LNK_TOPOLOGY and the routing tables once the check has been made. -/
def topologyRecorded (c : Ctx) : Ctx :=
  loadRoutes (c.updTopo (fun t => { t with outcome := topologyOutcome c, down := portsIn c 5, degraded := portsIn c 3, held := portsIn c 6 }))

theorem topologyRecorded_keeps {β : Type} {g : Ctx → β} (hp : ∀ c p f, g (c.updPort p f) = g c) (ht : ∀ c f, g (c.updTopo f) = g c)
    (hl : ∀ (c : Ctx) (l : Tab LinkCfg), g { c with dev := { c.dev with linkCfg := l } } = g c) (c : Ctx) :
    g (topologyRecorded (windowEnd c)) = g c := by
  rw [topologyRecorded, loadRoutes_keeps hl, ht, windowEnd_keeps hp]

theorem topologyRecorded_topo (c : Ctx) : (topologyRecorded c).dev.topo =
    { c.dev.topo with outcome := topologyOutcome c, down := portsIn c 5, degraded := portsIn c 3, held := portsIn c 6 } :=
  loadRoutes_keeps (g := fun c => c.dev.topo) (fun _ _ => rfl) _

theorem topologyRecorded_ports (c : Ctx) : (topologyRecorded c).dev.ports = c.dev.ports :=
  loadRoutes_keeps (g := fun c => c.dev.ports) (fun _ _ => rfl) _

/-- What the check leaves alone: the log, and the devices but the ports, LNK_TOPOLOGY and the link configuration. -/
def Ctx.besideLinks (c : Ctx) : List Wr × Dev := (c.log, { c.dev with ports := [], topo := {}, linkCfg := [] })

theorem topologyCheckOp_checks {c : Ctx} (hst : c.dev.boot.stage = 7) (hstop : c.dev.boot.stopped = false) (hout : c.dev.topo.outcome = 0)
    (hl : linksSettled c = true) : topologyCheckOp c =
      if topologyOutcome (windowEnd c) = 3 then bootStop 8 (topologyRecorded (windowEnd c))
      else (topologyRecorded (windowEnd c)).updBoot (fun b => { b with stage := 8 }) := by
  simp only [topologyCheckOp, hst, hstop, hout, hl, ne_eq, not_true_eq_false, decide_false, Bool.not_true, Bool.or_self, Bool.false_eq_true, if_false]
  rfl

/-- A check that passes leads to stage 8 and changes only what it records. -/
theorem topologyCheck_passes {s : State}
    (hop : topologyCheckOp s.ctx = (topologyRecorded (windowEnd s.ctx)).updBoot (fun b => { b with stage := 8 })) :
    Completes .topologyCheck s fun t => t.mem = s.mem ∧ t.dev.boot = { s.dev.boot with stage := 8 } ∧
      t.dev = { s.dev with
        boot := t.dev.boot, topo := t.dev.topo, linkCfg := (topologyRecorded (windowEnd s.ctx)).dev.linkCfg, ports := (windowEnd s.ctx).dev.ports } ∧
      t.dev.topo = { s.dev.topo with
        outcome := topologyOutcome (windowEnd s.ctx), down := portsIn (windowEnd s.ctx) 5, degraded := portsIn (windowEnd s.ctx) 3
        held := portsIn (windowEnd s.ctx) 6 } := by
  have hbeside := topologyRecorded_keeps (g := Ctx.besideLinks) (fun _ _ _ => rfl) (fun _ _ => rfl) (fun _ _ => rfl) s.ctx
  have hwindow : (windowEnd s.ctx).dev.topo = s.dev.topo := windowEnd_keeps (g := fun c => c.dev.topo) (fun _ _ _ => rfl) s.ctx
  have htopo := topologyRecorded_topo (windowEnd s.ctx)
  rw [hwindow] at htopo
  have hports := topologyRecorded_ports (windowEnd s.ctx)
  generalize topologyRecorded (windowEnd s.ctx) = c at hop hbeside htopo hports ⊢
  obtain ⟨hlog, hdev⟩ := Prod.mk.inj hbeside
  have hboot : c.dev.boot = s.dev.boot := (congrArg Dev.boot hdev :)
  have hd : c.dev = { s.dev with topo := c.dev.topo, linkCfg := c.dev.linkCfg, ports := c.dev.ports } :=
    congrArg (fun x : Dev => { x with topo := c.dev.topo, linkCfg := c.dev.linkCfg, ports := c.dev.ports }) hdev
  refine .of_run _ rfl rfl ⟨State.run_mem_of_log s _ (by rw [hop]; exact hlog), ?boot, ?devices, ?topo⟩
  case boot => rw [State.run_dev, hop, updBoot_boot, hboot]
  case devices =>
    rw [State.run_dev, hop, ← hports]
    exact congrArg (fun x : Dev => { x with boot := { c.dev.boot with stage := 8 } }) hd
  case topo => rw [State.run_dev, hop]; exact htopo

/-- Settles O46: the records and the parts of the exchange are each the branch of their meaning that the hypotheses select; the check changes only
what it records. -/
theorem portsAdmitAndSettle : Obligations.PortsAdmitAndSettle := by
  unfold Obligations.PortsAdmitAndSettle
  intro s p nonce r cert m hp hnonce hrec x c1 keeps c2 c3 asks
  have hwf : decide (p < 36) = true := decide_eq_true hp
  have hnwf : (Instr.admNonce p nonce).wf = true := by rw [Instr.wf, hwf, decide_eq_true hnonce]; rfl
  refine ⟨⟨fun h7 ha => ?asked, fun h7 ha => ?settled, fun h8 => ?noted, fun h7 h8 ht => ?followed⟩,
    fun h8 => ⟨fun hn => ?nonce, ?identity, ?owner, ?proof, fun hpast => ?timeout⟩,
    fun hst hstop hout hl => ⟨fun hne => ?passes, fun h3 => ?stops⟩⟩
  case asked =>
    have hop : capabilityRecordOp p r s.ctx = admissionStart p (recordNoted p r s.ctx) :=
      (capabilityRecordOp_eq (.inl h7.ge)).trans ((if_pos h7).trans (if_pos ha))
    refine (completes_becomes hrec rfl hop).imp fun t ht => ⟨ht, fun hd hu => ?_⟩
    rw [recordNoted_quiet hd hu] at ht
    obtain ⟨hdev, hwrote⟩ := ht
    have hport : t.ctx.port p = (admissionStart p (recordKept p r s.ctx)).port p := by rw [Ctx.port, State.ctx_dev, hdev]; rfl
    rw [hport, hdev, admissionStart_port, admissionStart_outbox]
    exact ⟨hwrote.mem_eq rfl, rfl, congrArg Port.partner (updPort_same s.ctx p _), rfl⟩
  case settled => exact completes_becomes hrec rfl ((capabilityRecordOp_eq (.inl h7.ge)).trans ((if_pos h7).trans (if_neg ha)))
  case noted =>
    have h7 : (s.ctx.port p).step ≠ 7 := fun h7 => absurd (h7.symm.trans h8) (by decide)
    have hle : 7 ≤ (s.ctx.port p).step := (Nat.le_succ 7).trans h8.ge
    exact completes_becomes hrec rfl ((capabilityRecordOp_eq (.inl hle)).trans ((if_neg h7).trans (if_pos h8)))
  case followed => exact completes_becomes hrec rfl ((capabilityRecordOp_eq (.inr ht)).trans ((if_neg h7).trans (if_neg h8)))
  case nonce =>
    exact (completes_port hnwf rfl (admNonceOp_proves h8 nonce hn)).imp fun t ⟨honly, hport, hout⟩ => ⟨⟨honly, hport⟩, hout⟩
  case identity =>
    exact (completes_port_quiet (i := .admIdentity p cert) hwf rfl (admIdentityOp_records h8 cert)).imp fun t ⟨honly, hout, hport⟩ => ⟨hout, honly, hport⟩
  case owner =>
    exact (completes_port_quiet (i := .admOwner p cert) hwf rfl (admOwnerOp_records h8 cert)).imp fun t ⟨honly, hout, hport⟩ => ⟨hout, honly, hport⟩
  case proof => exact completes_becomes hwf rfl (admProofOp_settles h8 m)
  case timeout => exact completes_becomes hwf rfl (admitTimeoutOp_settles h8 hpast)
  case passes => exact topologyCheck_passes ((topologyCheckOp_checks hst hstop hout hl).trans (if_neg hne))
  case stops => exact completes_becomes rfl rfl ((topologyCheckOp_checks hst hstop hout hl).trans (if_pos h3))

end Sys2Proof.Machine

/-! # Messages between members: proofs

PLAN, DONE, NOTICE, JOIN and CHECK (R468–R474, R478, R482). A message sent touches the queues of the ports and the outbox alone; what a package
takes from one changes its resilience block. States that meet the hypotheses stand in `wit_messages`. -/

namespace Sys2Proof.Machine

/-! ### Messages sent one after another -/

theorem passOn_keeps {β : Type} {g : Ctx → β} (hp : ∀ c p f, g (c.updPort p f) = g c) (hs : ∀ c m, g (c.send m) = g c) (type : Nat)
    (m : ResMsg) (c : Ctx) : g (passOn type m c) = g c := by
  unfold passOn
  split
  · rfl
  · exact forAll_keeps (fun i a => sendRes_keeps hp hs (8 * ownTray c + i + 1) type m a) _ c

theorem commitSeq_keeps {β : Type} {g : Ctx → β} (hr : ∀ c f, g (c.updRes f) = g c) (seq : Nat) (c : Ctx) : g (commitSeq seq c) = g c := by
  unfold commitSeq commitWhere
  split
  · rfl
  · split
    · exact hr _ _
    · rfl

/-! ### PLAN (R468, R469, R471) -/

/-- The context in which a PLAN has been passed on and its SEQ committed. -/
def planCommitted (m : ResMsg) (c : Ctx) : Ctx :=
  let c0 := commitSeq m.seq (passOn 1 m c)
  if m.seq = noSeq then c0 else c0.updRes (fun x => { x with nextSeq := max x.nextSeq (m.seq + 1) })

/-- What messages and the resilience block's books are no part of: the log, and the other devices. -/
def Ctx.besideMessages (c : Ctx) : List Wr × Dev := (c.log, { c.dev with res := {}, ports := [], outbox := [] })

theorem planCommitted_besideMessages (m : ResMsg) (c : Ctx) : (planCommitted m c).besideMessages = c.besideMessages := by
  have hcommit : (commitSeq m.seq (passOn 1 m c)).besideMessages = c.besideMessages :=
    (commitSeq_keeps (g := Ctx.besideMessages) (fun _ _ => rfl) _ _).trans
      (passOn_keeps (g := Ctx.besideMessages) (fun _ _ _ => rfl) (fun _ _ => rfl) _ _ _)
  unfold planCommitted
  dsimp only
  split
  · exact hcommit
  · exact hcommit

/-- The step of a PLAN is behind this package: its job's, or a furrow engine's. -/
def planMissed (step : Nat) (c : Ctx) : Prop := step < c.dev.job.step ∨ ∃ d, d < 4 ∧ step < (c.fur d).commits

theorem planMissed_planCommitted (m : ResMsg) (c : Ctx) : planMissed m.step (planCommitted m c) ↔ planMissed m.step c := by
  have hdev := congrArg Prod.snd (planCommitted_besideMessages m c)
  have hjob : (planCommitted m c).dev.job = c.dev.job := (congrArg Dev.job hdev :)
  have hfur : (planCommitted m c).dev.furrows = c.dev.furrows := (congrArg Dev.furrows hdev :)
  simp only [planMissed, Ctx.fur, hjob, hfur]

section
variable (report : ResMsg → Ctx → Ctx) {m : ResMsg} {c : Ctx}

/-- The test of a PLAN that is made once its SEQ is committed. -/
theorem planMissed_iff : (decide (m.step < (planCommitted m c).dev.job.step) ||
    (List.range 4).any (fun d => decide (m.step < (Tab.get {} (planCommitted m c).dev.furrows d).commits))) = true ↔ planMissed m.step c := by
  rw [← planMissed_planCommitted]
  simp only [planMissed, Ctx.fur, Bool.or_eq_true, decide_eq_true_eq, List.any_eq_true, List.mem_range]

theorem planTakeWith_missed (h : planMissed m.step c) : planTakeWith report m c =
    report (doneMsg (planCommitted m c) m.step (planCommitted m c).res.nextSeq 1 1) ((planCommitted m c).updRes (fun x =>
      { x with nextSeq := x.nextSeq + 1, lastResult := 1, planned := none, lastPoint := m.step })) :=
  if_pos (planMissed_iff.mpr h)

theorem planTakeWith_plans (h : ¬ planMissed m.step c) : planTakeWith report m c = setPlan m.step (planCommitted m c) :=
  if_neg (mt planMissed_iff.mp h)

end

/-- A PLAN ahead of the package is planned, and changes the resilience block, the ports' queues and the outbox alone. -/
theorem plan_plans {s : State} {m : ResMsg} (hin : inJob s.ctx = true) (h : ¬ planMissed m.step s.ctx) : Completes (.plan m) s fun t =>
    (t.mem = s.mem ∧ t.dev = { s.dev with res := t.dev.res, ports := t.dev.ports, outbox := t.dev.outbox }) ∧
      Becomes s (setPlan m.step (planCommitted m s.ctx)) t ∧ t.dev.res.planned = some m.step ∧ t.dev.res.lastPoint = m.step := by
  have hop : planOp m s.ctx = setPlan m.step (planCommitted m s.ctx) := (if_pos hin).trans (planTakeWith_plans _ h)
  obtain ⟨hlog, hdev⟩ := Prod.mk.inj (planCommitted_besideMessages m s.ctx)
  refine (completes_becomes rfl rfl hop).imp fun t ht => ⟨⟨ht.2.mem_eq hlog, ?_⟩, ht, by rw [ht.1]; exact ⟨rfl, rfl⟩⟩
  rw [ht.1]
  exact congrArg (fun x : Dev => { x with
    res := (setPlan m.step (planCommitted m s.ctx)).dev.res, ports := (planCommitted m s.ctx).dev.ports
    outbox := (planCommitted m s.ctx).dev.outbox }) hdev

/-! ### DONE, NOTICE and REFORM (R468, R472–R474) -/

/-- A DONE of the tray is kept until all eight have come. -/
theorem doneTake_collects {m : ResMsg} {c : Ctx} (fuel : Nat) (ht : m.sender / 8 = ownTray c)
    (hl : (ofSeq m.seq (c.res.trayDones.filter (fun x => x.sender != m.sender || x.seq != m.seq))).length < 7) :
    doneTake (fuel + 1) m c = c.updRes (fun r =>
      { r with trayDones := r.trayDones.filter (fun x => x.sender != m.sender || x.seq != m.seq) ++ [m] }) := by
  have hfew : (ofSeq m.seq (c.res.trayDones.filter (fun x => x.sender != m.sender || x.seq != m.seq)) ++ [m]).length < 8 := by
    rw [List.length_append, List.length_singleton]
    omega
  simp only [doneTake, ht, ne_eq, not_true_eq_false, if_false, if_pos hfew]

/-- A notice taken while no sheaf is in progress is only remembered. -/
theorem noticeTake_remembers {tray : Nat} {c : Ctx} (hpres : c.res.present = true) (ht : (memberTrays c).contains tray = true)
    (hr : c.res.run = none) : noticeTake tray c = c.updRes (fun r => { r with
      notices := (c.dev.job.step :: r.notices).take 16
      namedAt := if r.named.isEmpty then c.dev.slow else r.namedAt
      named := if r.named.contains tray then r.named else r.named ++ [tray] }) := by
  have hrun (f : ResSt → ResSt) (hf : ∀ r, (f r).run = r.run) : abandonSheaf (c.updRes f) = c.updRes f := by
    have : (c.updRes f).res.run = none := (hf c.res).trans hr
    simp only [abandonSheaf, this]
  simp only [noticeTake, hpres, ht, Bool.not_true, Bool.or_self, Bool.false_eq_true, if_false]
  exact hrun _ fun _ => rfl

theorem noticeWaitOp_reforms {c : Ctx} (hin : inJob c = true) (hn : c.res.named ≠ [])
    (htaker : (noticeTakers c).contains c.dev.boot.pkg = true) (hw : c.res.noticeWait ≤ c.since c.res.namedAt)
    (ha : actsAsCoordinator c = true) :
    noticeWaitOp c = sendReform (c.res.removed ++ c.res.named) (memberTrays c) (c.updRes (fun r => { r with named := [] })) := by
  have hempty : c.res.named.isEmpty = false := by rwa [List.isEmpty_eq_false_iff]
  simp only [noticeWaitOp, hin, hempty, htaker, decide_eq_false (Nat.not_lt.mpr hw), ha, Bool.not_true, Bool.or_self, Bool.false_eq_true, if_false]

/-- REFORM goes out at the next epoch. -/
theorem sendReform_epoch (removed trays : List Nat) {c : Ctx} (h : c.dev.epoch < 0xFFFFFFFF) :
    (sendReform removed trays c).dev.epoch = c.dev.epoch + 1 := by
  have hcaps : (sendCaps { c with dev := { c.dev with epoch := c.dev.epoch + 1 } }).dev.epoch = c.dev.epoch + 1 :=
    sendCaps_keeps (g := fun c => c.dev.epoch) (fun _ _ => rfl) _
  simp only [sendReform, epochAdvance, if_neg (Nat.not_le.mpr h), Bool.not_true, Bool.false_eq_true, if_false, updRes_epoch]
  refine (forAll_keeps (g := fun c : Ctx => c.dev.epoch) (fun t a => ?_) trays _).trans hcaps
  split
  · rfl
  · exact sendRes_keeps (g := fun c : Ctx => c.dev.epoch) (fun _ _ _ => rfl) (fun _ _ => rfl) _ _ _ a

theorem reformWaitTimeoutOp_ends {a : Nat} {c : Ctx} (hin : inJob c = true) (ha : c.res.noticeAt = some a)
    (hw : 2 * c.res.noticeWait + (c.linkCfg 0).respTimeout ≤ c.since a) :
    reformWaitTimeoutOp c = endCause 0x14 (c.updRes (fun r => { r with noticeAt := none })) := by
  simp only [reformWaitTimeoutOp, ha, hin, hw, decide_true, Bool.and_self, if_true]

/-! ### The replica check (R478) -/

theorem checkTake_collects {pkg h : Nat} {c : Ctx} (hl : (Tab.set c.res.checks pkg h).length < 8) :
    checkTake pkg h c = c.updRes (fun r => { r with checks := Tab.set r.checks pkg h }) := by
  simp only [checkTake, if_pos hl]
  rfl

theorem checkOp_takes {m : ResMsg} {c : Ctx} (hin : inJob c = true) (h0 : ownSlot c = 0) (ht : m.sender / 8 = ownTray c) :
    checkOp m c = checkTake m.sender m.digest c := by
  simp only [checkOp, hin, h0, ht, beq_self_eq_true, Bool.and_self, if_true]

/-- The region is digested; slot 0 takes its own digest, another slot sends it there. -/
theorem jobRestoreCheckOp_checks {c : Ctx} (hin : inJob c = true) (hb : c.res.checkBytes ≠ 0) (hc : c.Clean) :
    jobRestoreCheckOp c =
      let h := sha384Nat (c.read c.res.checkBase c.res.checkBytes)
      let c1 := c.updRes (fun r => { r with checkSent := true })
      if ownSlot c = 0 then checkTake c.dev.boot.pkg h c1 else sendRes (8 * ownTray c) 8 { resMsg c with digest := h } c1 := by
  simp only [jobRestoreCheckOp, hin, hb, eccRead_clean _ _ hc, Bool.not_true, decide_false, Bool.or_self, Bool.false_eq_true, if_false]
  rfl

/-- A message leaves in the outbox and in a port's queue. -/
theorem sendRes_dev (pkg type : Nat) (m : ResMsg) (c : Ctx) : (sendRes pkg type m c).dev =
    { c.dev with ports := (sendRes pkg type m c).dev.ports, outbox := c.dev.outbox ++ [.resilience pkg type m] } := by
  have hkeep : { (sendRes pkg type m c).dev with ports := [], outbox := [] } = { c.dev with ports := [], outbox := [] } :=
    sendRes_keeps (g := fun c => { c.dev with ports := [], outbox := [] }) (fun _ _ _ => rfl) (fun _ _ => rfl) pkg type m c
  have houtbox := sendRes_outbox pkg type m c
  generalize (sendRes pkg type m c).dev = d at hkeep houtbox ⊢
  rw [← houtbox]
  exact congrArg (fun x : Dev => { x with ports := d.ports, outbox := d.outbox }) hkeep

/-- A command that changes the resilience block and sends a message. -/
theorem completes_sendRes {i : Instr} {s : State} {op : Ctx → Ctx} {pkg type : Nat} {m : ResMsg} {f : ResSt → ResSt} (hw : i.wf = true)
    (he : exec i s = perform i s op) (hop : op s.ctx = sendRes pkg type m (s.ctx.updRes f)) :
    Completes i s fun t => Becomes s (sendRes pkg type m (s.ctx.updRes f)) t ∧ t.mem = s.mem ∧ t.dev =
      { s.dev with res := f s.dev.res, ports := t.dev.ports, outbox := s.dev.outbox ++ [.resilience pkg type m] } := by
  have hlog : (sendRes pkg type m (s.ctx.updRes f)).log = [] := sendRes_keeps (g := Ctx.log) (fun _ _ _ => rfl) (fun _ _ => rfl) ..
  refine (completes_becomes hw he hop).imp fun t ht => ⟨ht, ht.2.mem_eq hlog, ?_⟩
  rw [ht.1]
  exact sendRes_dev pkg type m (s.ctx.updRes f)

/-- Settles O48: each message is taken by the branch of its meaning that the hypotheses select; what is only remembered changes the resilience
block alone, and a message sent the ports' queues and the outbox beside it. -/
theorem membersExchangeTheirMessages : Obligations.MembersExchangeTheirMessages := by
  unfold Obligations.MembersExchangeTheirMessages
  intro s m pkg hin hpkg r onlyRes p0 p
  have hpresent : s.ctx.res.present = true := (Bool.and_eq_true_iff.mp hin).2
  refine ⟨fun hstep hcommits => ?planned, fun hmissed => ?missed, fun h0 => ⟨?done, ?kept⟩,
    fun htaker => ⟨?notice, fun ht hr => ?noticeKept, fun hn hw ha => ?reform⟩, fun a ha hw => ?reformLate, fun hc => ?joined,
    fun hlate => ?late, fun hb hclean => ?checked, fun h0 ht => ⟨fun hl => ?checkKept, ?check⟩⟩
  case planned =>
    refine plan_plans hin fun hmissed => ?_
    rcases hmissed with h | ⟨d, hd, h⟩
    · exact absurd hstep (Nat.not_le.mpr h)
    · exact absurd (hcommits d hd) (Nat.not_le.mpr h)
  case missed => exact completes_becomes rfl rfl ((if_pos hin).trans (planTakeWith_missed reportDone hmissed))
  case done => exact completes_becomes rfl rfl (if_pos (by rw [hin, h0]; rfl))
  case kept =>
    intro others ht hl
    have hop : doneOp m s.ctx = doneTake 3 m s.ctx := if_pos (by rw [hin, h0]; rfl)
    exact completes_dev rfl rfl (hop.trans (doneTake_collects 2 ht hl))
  case notice => exact completes_becomes rfl rfl (if_pos (by rw [hin]; exact htaker))
  case noticeKept =>
    have hop : noticeOp m s.ctx = noticeTake m.subject s.ctx := if_pos (by rw [hin]; exact htaker)
    exact completes_dev rfl rfl (hop.trans (noticeTake_remembers hpresent ht hr))
  case reform =>
    refine (completes_becomes rfl rfl (noticeWaitOp_reforms hin hn htaker hw ha)).imp fun t ht => ⟨ht, fun hepoch => ?_⟩
    rw [ht.1]
    exact sendReform_epoch _ _ hepoch
  case reformLate => exact completes_becomes rfl rfl (reformWaitTimeoutOp_ends hin ha hw)
  case joined => exact completes_dev rfl rfl (if_pos (by rw [hin, hc]; exact beq_self_eq_true _))
  case late => exact completes_becomes (decide_eq_true hpkg) rfl (if_pos (by rw [hin]; exact hlate))
  case checked =>
    intro h c1
    have hop := jobRestoreCheckOp_checks hin hb (State.clean_ctx hclean)
    exact ⟨fun h0 => completes_sendRes rfl rfl (hop.trans (if_neg h0)), fun h0 => completes_becomes rfl rfl (hop.trans (if_pos h0))⟩
  case checkKept => exact completes_dev rfl rfl ((checkOp_takes hin h0 ht).trans (checkTake_collects hl))
  case check => exact completes_becomes rfl rfl (checkOp_takes hin h0 ht)

end Sys2Proof.Machine

/-! # Commands and runs of the block, the management bridge and the test port: proofs -/

namespace Sys2Proof.Machine

/-! ### Commands and runs (what each step holds) -/

/-- Settles O1: a step reads the front of the queue, where the command stands. -/
theorem stepRunsTheFrontCommand : Obligations.StepRunsTheFrontCommand := fun _ _ => rfl

/-- Settles O3: every command performs one meaning, which is refused for hardware that does not exist and else leaves the queue alone. -/
theorem wellFormedCommandsComplete : Obligations.WellFormedCommandsComplete := by
  unfold Obligations.WellFormedCommandsComplete
  intro i s
  obtain ⟨f, hf⟩ := exec_performs i s
  refine ⟨fun hw => ⟨s.run f, hf.trans (perform_wf s f hw), State.run_pending s f⟩, fun hw => hf.trans ?_⟩
  exact if_neg (Bool.eq_false_iff.mp hw)

/-- A step that answers a next state has taken the front command, if any, off the queue. -/
theorem step_pending {s t : State} (h : step s = .next t) : t.pending = s.pending.drop 1 := by
  obtain ⟨hp, ht⟩ | ⟨c, rest, hp, ht⟩ := step_cases h
  · cases ht
    rw [tick_pending, hp, List.drop_nil]
  · obtain ⟨-, f, rfl⟩ := exec_next ht.symm
    rw [hp, State.run_pending, List.drop_one, List.tail_cons]

/-- No step faults. -/
theorem step_not_fault (s : State) (r : Fault) : step s ≠ .fault r := by
  intro h
  obtain ⟨-, ht⟩ | ⟨c, rest, -, ht⟩ := step_cases h
  · cases ht
  · obtain ⟨f, hf⟩ := exec_performs c { s with pending := rest }
    exact perform_not_fault c _ f r (hf.symm.trans ht.symm)

/-- Everything a run of one step more can answer: its first step answers a next state, from which the rest runs, or refuses. -/
theorem run_succ_cases {k : Nat} {s : State} {o : Host.Outcome State Fault Refusal} (h : Host.Core.run Sys2Proof.core (k + 1) s = o) :
    (∃ s', step s = .next s' ∧ Host.Core.run Sys2Proof.core k s' = o) ∨ (∃ r, o = .refused r) := by
  simp only [Host.Core.run] at h
  split at h
  · next s' hs => exact .inl ⟨s', hs, h⟩
  · next r hs => exact absurd hs (step_not_fault s r)
  · next r _ => exact .inr ⟨r, h.symm⟩

/-- Settles O4, by induction on the number of steps: a step takes one command and never faults. -/
theorem runsTakeCommandsInOrderWithoutFault : Obligations.RunsTakeCommandsInOrderWithoutFault := by
  unfold Obligations.RunsTakeCommandsInOrderWithoutFault
  refine ⟨fun k => ?order, fun k => ?safe⟩
  case order =>
    induction k with
    | zero =>
      intro s t h
      cases h
      rfl
    | succ k ih =>
      intro s t h
      obtain ⟨s', hstep, hrun⟩ | ⟨r, hr⟩ := run_succ_cases h
      · rw [ih s' t hrun, step_pending hstep, List.drop_drop, Nat.add_comm]
      · cases hr
  case safe =>
    induction k with
    | zero =>
      intro s r h
      cases h
    | succ k ih =>
      intro s r h
      obtain ⟨s', -, hrun⟩ | ⟨r', hr⟩ := run_succ_cases h
      · exact ih s' r hrun
      · cases hr

/-! ### The management bridge and the test port (R576, R578, R646) -/

/-- Settles O60: each command changes fields of the steward's state alone, and a free value is drawn where the spec states none. -/
theorem bridgeAndTestPortRead : Obligations.BridgeAndTestPortRead := by
  unfold Obligations.BridgeAndTestPortRead
  intro s v hv x identity sets
  refine ⟨fun hr => ⟨?address, ?read⟩, completes_dev rfl rfl rfl, fun ha => ?armed, fun ha => ?unarmed, completes_dev rfl rfl rfl,
    fun hc => ?low, fun hc => ?high⟩
  case address => exact completes_dev (decide_eq_true hv) rfl (if_pos hr)
  case read => exact completes_dev rfl rfl (if_pos hr)
  case armed =>
    refine completes_dev rfl rfl ?_
    simp only [idcodeOp, State.ctx_dev, ha, if_true]
    rfl
  case unarmed =>
    refine .of_run idcodeOp rfl rfl ⟨rfl, ?_⟩
    simp only [State.run_dev, idcodeOp, State.ctx_dev, ha, Bool.false_eq_true, if_false]
    rfl
  case low =>
    refine completes_dev rfl rfl ?_
    simp only [extestOp, State.ctx_dev, hc, if_true]
    rfl
  case high =>
    refine completes_dev rfl rfl ?_
    simp only [extestOp, State.ctx_dev, hc, Bool.false_eq_true, if_false]
    rfl

end Sys2Proof.Machine

/-! # Fault events, episodes, comparators and the safe state: proofs

What an event of a source records and raises (R484–R492, R502), how an episode ends (R493, R494, R499), and what the comparators, the fallow timer
and the governor's window do (R504, R505, R586, R593–R596). -/

namespace Sys2Proof.Machine

/-! ### A table searched by number -/

theorem Tab.find?_set {α : Type} (t : Tab α) (k : Nat) (v : α) : (Tab.set t k v).find? (fun p => p.1 == k) = some (k, v) := by
  unfold Tab.set
  induction Tab.del k t with
  | nil => simp [Tab.insert]
  | cons p t ih =>
    obtain ⟨i, w⟩ := p
    by_cases hi : i < k
    · simp [Tab.insert, hi, show i ≠ k by omega, ih]
    · simp [Tab.insert, hi]

theorem Tab.find?_del {α : Type} (t : Tab α) (k : Nat) : (Tab.del k t).find? (fun p => p.1 == k) = none := by
  induction t with
  | nil => rfl
  | cons p t ih =>
    obtain ⟨i, w⟩ := p
    by_cases hi : i = k <;> simp [Tab.del, hi, ih]

/-! ### The safe state is entered and kept (R503, R504) -/

theorem updAlert_at_safe (c : Ctx) : (updAlert c).dev.safe = c.dev.safe :=
  updAlert_keeps (g := fun a => a.dev.safe) (fun _ _ => rfl) (fun _ _ => rfl) (fun _ _ _ => rfl) (fun _ _ => rfl) c

theorem updAlert_at_coll (c : Ctx) (k : Nat) : (updAlert c).coll k = c.coll k :=
  updAlert_keeps (g := fun a => a.coll k) (fun _ _ => rfl) (fun _ _ => rfl) (fun _ _ _ => rfl) (fun _ _ => rfl) c

/-- A package outside the safe state enters it and releases READY. -/
theorem safeEnter_enters (source : Nat) {c : Ctx} (h : c.dev.safe.safe = false) :
    (safeEnter source c).dev.safe.safe = true ∧ (safeEnter source c).dev.pins.ready = false := by
  rw [safeEnter, if_neg (by rw [h]; exact Bool.false_ne_true)]
  dsimp only
  constructor
  · rw [endCause_keeps (g := fun a => a.dev.safe) fun _ _ => rfl, sendCaps_keeps (g := fun a => a.dev.safe) fun _ _ => rfl, updAlert_at_safe,
      updPins_safe, forAll_keeps (g := fun a : Ctx => a.dev.safe), forAll_keeps (g := fun a : Ctx => a.dev.safe)]
    · rfl
    · exact fun d a => by split <;> rfl
    · exact fun i a => by split <;> rfl
  · rw [endCause_keeps (g := fun a => a.dev.pins.ready) fun _ _ => rfl, sendCaps_keeps (g := fun a => a.dev.pins.ready) fun _ _ => rfl,
      updAlert_keeps (g := fun a => a.dev.pins.ready) (fun _ _ => rfl) (fun _ _ => rfl) (fun _ _ _ => rfl) fun _ _ => rfl]
    rfl

theorem safeEnter_safe (source : Nat) (c : Ctx) : (safeEnter source c).dev.safe.safe = true := by
  cases h : c.dev.safe.safe with
  | false => exact (safeEnter_enters source h).1
  | true => simp only [safeEnter, h, if_true]

/-- In the safe state no level acts (R504). -/
theorem raiseTo_safe (again : Ctx → Ctx) (coll source lvl : Nat) (news : List Nat) {c : Ctx} (h : c.dev.safe.safe = true) :
    raiseTo again coll source lvl news c = c := by
  unfold raiseTo
  split
  · rfl
  · exact if_pos h

/-- An event does not end the safe state. -/
theorem raise_safe (coll source cls : Nat) (idents : List Nat) {c : Ctx} (h : c.dev.safe.safe = true) :
    (raise coll source cls idents c).dev.safe.safe = true := by
  simp only [raise, raiseN, h, if_true]
  split
  · exact h
  · split
    · exact h
    · rw [updAlert_at_safe, raiseTo_safe]
      · exact h
      · exact h

/-- An episode raised to L5 for the first time ends its actions with the entry into the safe state. -/
theorem raiseTo_fatal (again : Ctx → Ctx) {coll source : Nat} (news : List Nat) {c : Ctx} {p : Nat × Episode}
    (h : (c.coll coll).episodes.find? (fun p => p.1 == source) = some p) (hd : p.2.done < 5) :
    (raiseTo again coll source 5 news c).dev.safe.safe = true := by
  unfold raiseTo
  rw [h]
  dsimp only
  split
  · assumption
  · rw [List.range_succ, List.filter_append, List.filter_cons_of_pos (by simp [hd]), List.filter_nil, forAll, List.foldl_append]
    exact safeEnter_safe _ _

theorem classify_fatal (now n w : Nat) (win : Nat × Nat) : classify now n w win 4 = (4, win) := rfl

/-- A FATAL event of a source with no open episode enters the safe state. -/
theorem raise_fatal {coll source : Nat} (idents : List Nat) {c : Ctx} (ha : c.dev.boot.armed = true) (hs : c.dev.safe.safe = false)
    (he : episodeOf c coll source = none) : (raise coll source 4 idents c).dev.safe.safe = true := by
  have hold : ((recordEvent coll source c).coll coll).episodes.find? (fun p => p.1 == source) = none := by
    rw [recordEvent, updColl_same]
    exact Option.map_eq_none_iff.mp he
  rw [raise, raiseN]
  simp only [ha, hs, hold, classify_fatal, entryLevel, Option.isNone_none, Option.elim_none, Bool.not_true, Bool.false_eq_true, if_false]
  rw [if_neg (by decide), updAlert_at_safe]
  exact raiseTo_fatal _ _ (by rw [updColl_same]; exact Tab.find?_set ..) (Nat.zero_lt_succ 4)

/-! ### Episodes end (R493, R494, R499) -/

theorem episodeOf_none {c : Ctx} {coll source : Nat} :
    episodeOf c coll source = none ↔ (c.coll coll).episodes.find? (fun p => p.1 == source) = none := Option.map_eq_none_iff

/-- An episode acknowledged is open no more. -/
theorem episodeOf_closed (c : Ctx) (coll source : Nat) :
    episodeOf (updAlert (c.updColl coll (fun x => { x with episodes := Tab.del source x.episodes }))) coll source = none := by
  rw [episodeOf_none, updAlert_at_coll, updColl_same]
  exact Tab.find?_del _ _

theorem escalationTimerOp_raises {c : Ctx} {coll source : Nat} {e : Episode} (h : episodeOf c coll source = some e) (ht : e.timer = true)
    (hpast : (c.coll coll).escTimer ≤ c.dev.slow - e.since) :
    escalationTimerOp coll source c = updAlert (episodeRaise coll source e.ceiling { e with timer := false } c) := by
  unfold escalationTimerOp
  rw [h]
  exact if_pos (by rw [ht]; exact decide_eq_true hpast)

/-- Application core `k`, where the reaction of PFC source `source` froze it, goes on with an access fault due. -/
def CoreSt.released (source : Nat) (k : CoreSt) : CoreSt :=
  if k.frozen = true ∧ k.frozenBy = source then { k with frozen := false, frozenBy := 0, faultDue := true } else k

theorem released_released (source : Nat) (k : CoreSt) : (k.released source).released source = k.released source := by
  by_cases h : k.frozen = true ∧ k.frozenBy = source <;> simp [CoreSt.released, h]

/-- Application core `i` is released where `source` froze it. -/
def releaseCore (source i : Nat) (a : Ctx) : Ctx :=
  let k := a.core (2070 + i)
  if k.frozen && k.frozenBy = source then a.updCore (2070 + i) (fun k => { k with frozen := false, frozenBy := 0, faultDue := true }) else a

theorem releaseCore_core (source i n : Nat) (a : Ctx) :
    (releaseCore source i a).core n = if n = 2070 + i then (a.core n).released source else a.core n := by
  unfold releaseCore CoreSt.released
  dsimp only
  by_cases hn : n = 2070 + i
  · subst hn
    by_cases hk : (a.core (2070 + i)).frozen = true ∧ (a.core (2070 + i)).frozenBy = source <;> simp [hk]
  · split <;> simp [hn]

/-- Of the application cores listed, each is released where `source` froze it. -/
theorem forAll_releaseCore_core (source n : Nat) (is : List Nat) (c : Ctx) : (forAll is (releaseCore source) c).core n =
    if ∃ i ∈ is, n = 2070 + i then (c.core n).released source else c.core n := by
  induction is generalizing c with
  | nil => simp [forAll]
  | cons i is ih =>
    have hrest := ih (releaseCore source i c)
    rw [releaseCore_core] at hrest
    by_cases hn : n = 2070 + i
    · simpa [forAll, hn, released_released] using hrest
    · simpa [forAll, hn] using hrest

theorem appRelease_keeps {β : Type} {g : Ctx → β} (hc : ∀ c n f, g (c.updCore n f) = g c) (source : Nat) (c : Ctx) :
    g (appRelease source c) = g c :=
  forAll_keeps (f := releaseCore source) (fun i a => by
    unfold releaseCore
    dsimp only
    split
    · exact hc a _ _
    · rfl) _ c

/-- A release changes the cores alone. -/
theorem appRelease_dev (source : Nat) (c : Ctx) : (appRelease source c).dev = { c.dev with cores := (appRelease source c).dev.cores } := by
  have hkeep : { (appRelease source c).dev with cores := [] } = { c.dev with cores := [] } :=
    appRelease_keeps (g := fun a => { a.dev with cores := [] }) (fun _ _ _ => rfl) source c
  generalize (appRelease source c).dev = d at hkeep ⊢
  exact congrArg (fun x : Dev => { x with cores := d.cores }) hkeep

/-- RELEASE counts in the package's collector alone. -/
theorem noRelease {coll v : Nat} (hr : coll = 4 → bit v 9 = false) : (decide (coll = 4) && bit v 9) = false := by
  by_cases h : coll = 4
  · rw [hr h, Bool.and_false]
  · rw [decide_eq_false h, Bool.false_and]

section
variable {coll v : Nat} {c : Ctx} {e : Episode}

/-- An acknowledgement without RELEASE finds no open episode. -/
theorem ackWrite_none (hl : bits v 6 3 < 6) (hr : coll = 4 → bit v 9 = false) (he : episodeOf c coll (bits v 0 6) = none) :
    ackWrite coll v c = c := by
  simp only [ackWrite, noRelease hr, he, Nat.not_le.mpr hl, Bool.false_eq_true, if_false]

/-- An acknowledgement without RELEASE closes the open episode, raised first where its LEVEL is higher. -/
theorem ackWrite_closes (hl : bits v 6 3 < 6) (hr : coll = 4 → bit v 9 = false) (he : episodeOf c coll (bits v 0 6) = some e) :
    ackWrite coll v c =
      updAlert ((if e.level < bits v 6 3 then episodeRaise coll (bits v 0 6) (bits v 6 3) e c else c).updColl coll
        (fun x => { x with episodes := Tab.del (bits v 0 6) x.episodes })) := by
  simp only [ackWrite, noRelease hr, he, Nat.not_le.mpr hl, Bool.false_eq_true, if_false]

/-- One with RELEASE in the package's collector lets the application cores go on that the source froze. -/
theorem ackWrite_releases (hl : bits v 6 3 < 6) (hr : bit v 9 = true) (he : episodeOf c 4 (bits v 0 6) = none) :
    ackWrite 4 v c = appRelease (bits v 0 6) c := by
  have hnone : episodeOf (appRelease (bits v 0 6) c) 4 (bits v 0 6) = none :=
    (appRelease_keeps (g := fun a => episodeOf a 4 (bits v 0 6)) (fun _ _ _ => rfl) _ c).trans he
  simp only [ackWrite, hr, hnone, Nat.not_le.mpr hl, Bool.and_self, decide_true, if_false, if_true]

end

/-- Settles O51: each command takes the branch of its meaning that the hypotheses select. -/
theorem episodesEscalateAndClose : Obligations.EpisodesEscalateAndClose := by
  unfold Obligations.EpisodesEscalateAndClose
  intro s coll source v e hv
  refine ⟨fun hw he ht hpast => completes_becomes hw rfl (escalationTimerOp_raises he ht hpast), fun hlive hl => ?_⟩
  have hack : fcAckOp coll v s.ctx = ackWrite coll v s.ctx := if_pos hlive
  have hwf (hc : coll < 5) : (Instr.fcAck coll v).wf = true := by simpa [Instr.wf, hc] using hv
  refine ⟨fun hc hr he => ?none, fun hc hr he => ?closes, fun hr => ?release, fun hr he => ?cores⟩
  case none => exact completes_dev (hwf hc) rfl (hack.trans (ackWrite_none hl hr he))
  case closes =>
    refine (completes_becomes (hwf hc) rfl (hack.trans (ackWrite_closes hl hr he))).imp fun t ht => ⟨ht, ?_⟩
    rw [episodeOf, Ctx.coll, State.ctx_dev, ht.1]
    exact episodeOf_closed _ _ _
  case release => exact completes_becomes (decide_eq_true hv) rfl (if_pos (by rw [hlive, hr]; rfl))
  case cores =>
    have hop : fcAckReleaseOp v s.ctx = appRelease (bits v 0 6) s.ctx :=
      (if_pos (by rw [hlive, hr]; rfl)).trans (ackWrite_releases hl hr he)
    have hcore (n : Nat) : (fcAckReleaseOp v s.ctx).core n =
        if ∃ i ∈ List.range 24, n = 2070 + i then (s.ctx.core n).released (bits v 0 6) else s.ctx.core n := by
      rw [hop]
      exact forAll_releaseCore_core _ n _ s.ctx
    refine .of_run (fcAckReleaseOp v) (decide_eq_true hv) rfl ⟨State.run_mem_of_log s _ ?_, ?_, fun n hn => ?_, fun i hi => ?_⟩
    · rw [hop]
      exact appRelease_keeps (g := Ctx.log) (fun _ _ _ => rfl) _ _
    · rw [State.run_dev, hop]
      exact appRelease_dev _ _
    · rw [State.run_at_core, hcore, if_neg]
      rintro ⟨i, hi, rfl⟩
      have := List.mem_range.mp hi
      omega
    · rw [State.run_at_core, hcore, if_pos ⟨i, List.mem_range.mpr hi, rfl⟩]
      rfl

/-! ### What an event records (R484–R489) -/

/-- The causes of an event set in its collector. -/
def causesSet (e : FaultEvent) (c : Ctx) : Ctx := e.causes.foldl (fun a k => causeSet e.coll e.source k a) c

theorem causesSet_keeps {β : Type} {g : Ctx → β} (hc : ∀ c k f, g (c.updColl k f) = g c) (e : FaultEvent) (c : Ctx) :
    g (causesSet e c) = g c :=
  List.foldlRecOn (motive := fun a => g a = g c) _ _ rfl fun a ha k _ => by
    rw [causeSet, hc]
    exact ha

/-- The collectors alone are changed. -/
theorem causesSet_dev (e : FaultEvent) (c : Ctx) : (causesSet e c).dev = { c.dev with colls := (causesSet e c).dev.colls } := by
  have hkeep : { (causesSet e c).dev with colls := [] } = { c.dev with colls := [] } :=
    causesSet_keeps (g := fun a => { a.dev with colls := [] }) (fun _ _ _ => rfl) e c
  generalize (causesSet e c).dev = d at hkeep ⊢
  exact congrArg (fun x : Dev => { x with colls := d.colls }) hkeep

/-- A cause sets bits of the cause registers alone. -/
theorem causeSet_coll {β : Type} {g : Coll → β} (herr : ∀ x t, g { x with clerr := t } = g x) (hcause : ∀ x w, g { x with cause := w } = g x)
    (hlnk : ∀ x w, g { x with causeLnk := w } = g x) (coll source : Nat) (k : FaultCause) (c : Ctx) (j : Nat) :
    g ((causeSet coll source k c).coll j) = g (c.coll j) := by
  unfold causeSet
  dsimp only
  by_cases hj : j = coll
  · subst hj
    rw [updColl_same]
    split
    · split
      · exact herr _ _
      · split
        · rfl
        · split
          · exact hcause _ _
          · split
            · exact hlnk _ _
            · split
              · exact hcause _ _
              · split
                · exact hcause _ _
                · rfl
    · split
      all_goals exact hcause _ _
  · rw [updColl_other _ _ hj]

theorem causesSet_coll {β : Type} {g : Coll → β} (herr : ∀ x t, g { x with clerr := t } = g x) (hcause : ∀ x w, g { x with cause := w } = g x)
    (hlnk : ∀ x w, g { x with causeLnk := w } = g x) (e : FaultEvent) (c : Ctx) (j : Nat) : g ((causesSet e c).coll j) = g (c.coll j) :=
  List.foldlRecOn (motive := fun a : Ctx => g (a.coll j) = g (c.coll j)) _ _ rfl fun _ ha _ _ => (causeSet_coll herr hcause hlnk _ _ _ _ _).trans ha

theorem causeSet_other {coll j : Nat} (h : j ≠ coll) (source : Nat) (k : FaultCause) (c : Ctx) : (causeSet coll source k c).coll j = c.coll j :=
  updColl_other _ _ h

theorem causesSet_other {e : FaultEvent} {j : Nat} (h : j ≠ e.coll) (c : Ctx) : (causesSet e c).coll j = c.coll j :=
  List.foldlRecOn (motive := fun a : Ctx => a.coll j = c.coll j) _ _ rfl fun _ ha _ _ => (causeSet_other h _ _ _).trans ha

/-- Of the devices at most collector `k` changed: source `src` is in its status and its count, no episode opened. -/
def Recorded (k src : Nat) (s t : State) : Prop :=
  t.mem = s.mem ∧ t.dev = { s.dev with colls := t.dev.colls } ∧
    (t.ctx.coll k).status = setBit (s.ctx.coll k).status src ∧ (∀ j, j ≠ k → t.ctx.coll j = s.ctx.coll j) ∧
    Tab.get 0 (t.ctx.coll k).counts src = min 255 (Tab.get 0 (s.ctx.coll k).counts src + 1) ∧
    (t.ctx.coll k).episodes = (s.ctx.coll k).episodes

/-- An event is recorded where at most cause bits of the same collector changed before. -/
theorem run_recorded {s : State} {op : Ctx → Ctx} {k src : Nat} {c : Ctx} (hop : op s.ctx = recordEvent k src c) (hlog : c.log = [])
    (hdev : c.dev = { s.dev with colls := c.dev.colls }) (hother : ∀ j, j ≠ k → c.coll j = s.ctx.coll j)
    (hstatus : (c.coll k).status = (s.ctx.coll k).status) (hcounts : (c.coll k).counts = (s.ctx.coll k).counts)
    (hepisodes : (c.coll k).episodes = (s.ctx.coll k).episodes) : Recorded k src s (s.run op) := by
  refine ⟨State.run_mem_of_log s op (by rw [hop]; exact hlog), ?_, ?_, fun j hj => ?_, ?_, ?_⟩
  · rw [State.run_dev, hop, recordEvent, Ctx.updColl, hdev]
  · rw [State.run_at_coll, hop, recordEvent, updColl_same, ← hstatus]
  · rw [State.run_at_coll, hop, recordEvent, updColl_other _ _ hj, hother j hj]
  · rw [State.run_at_coll, hop, recordEvent, updColl_same, ← hcounts, ← stick_fst]
    exact Tab.get_set_same _ _ _ _
  · rw [State.run_at_coll, hop, recordEvent, updColl_same, ← hepisodes]

/-! ### What an event does beside its episode keeps the safe state -/

theorem defectAppend_safe (e : Defect) (c : Ctx) : (defectAppend e c).1.dev.safe = c.dev.safe := by
  unfold defectAppend
  dsimp only
  split
  case h_1 c1 h =>
    split at h
    · cases h
    · unfold defectWrite at h
      dsimp only at h
      split at h
      · cases h
        rw [updBoot_safe, Ctx.write_dev]
        rfl
      · cases h
  case h_2 => rfl

theorem appendEntry_safe (e : Defect) {c : Ctx} (h : c.dev.safe.safe = true) : (appendEntry e c).dev.safe.safe = true := by
  have hsafe : (defectAppend e c).1.dev.safe.safe = true := by rw [defectAppend_safe, h]
  unfold appendEntry
  dsimp only
  split
  · exact raise_safe _ _ _ _ hsafe
  · exact hsafe

theorem unitDisable_safe (u : Nat) (e : Defect) (c : Ctx) : (unitDisable u e c).dev.safe = c.dev.safe := by
  unfold unitDisable
  split
  · rfl
  split
  · rfl
  split
  · exact disableFn_keeps (g := fun a => a.dev.safe) (fun _ _ => rfl) _ c
  · exact unitGone_keeps (g := fun a => a.dev.safe) (fun _ _ _ => rfl) (fun _ _ _ => rfl) (fun _ _ => rfl) u c

theorem columnFault_safe (u column : Nat) {c : Ctx} (h : c.dev.safe.safe = true) : (columnFault u column c).dev.safe.safe = true := by
  unfold columnFault
  dsimp only
  rw [unitDisable_safe]
  split
  · exact h
  · exact appendEntry_safe _ h

theorem stashFreeze_keeps {β : Type} {g : Ctx → β} (hk : ∀ c k f, g (c.updColl k f) = g c) (hj : ∀ c f, g (c.updJob f) = g c)
    (hc : ∀ c n, g (c.updCore n (fun k => { k with frozen := true })) = g c) (coll source u core : Nat) (c : Ctx) :
    g (stashFreeze coll source u core c) = g c := by
  unfold stashFreeze
  split
  · exact (hk _ _ _).trans ((endCause_keeps hj _ _).trans (hc _ _))
  · rfl

/-- The core of the unit that claimed is frozen. -/
theorem stashFreeze_freezes (coll source : Nat) {u core : Nat} (h : unitOfCore core = u) (c : Ctx) :
    ((stashFreeze coll source u core c).core core).frozen = true := by
  rw [stashFreeze, if_pos h]
  have hjob := endCause_keeps (g := fun a => a.core core) (fun _ _ => rfl) 0x10 (c.updCore core (fun k => { k with frozen := true }))
  calc ((markFroze coll source (endCause 0x10 (c.updCore core (fun k => { k with frozen := true })))).core core).frozen
      = ((c.updCore core (fun k => { k with frozen := true })).core core).frozen := congrArg CoreSt.frozen hjob
    _ = true := by rw [updCore_same]

/-- No freeze lets another core go. -/
theorem stashFreeze_frozen (coll source u core n : Nat) {c : Ctx} (h : (c.core n).frozen = true) :
    ((stashFreeze coll source u core c).core n).frozen = true := by
  unfold stashFreeze
  split
  · have hjob := endCause_keeps (g := fun a => a.core n) (fun _ _ => rfl) 0x10 (c.updCore core (fun k => { k with frozen := true }))
    refine (congrArg CoreSt.frozen hjob).trans ?_
    by_cases hn : n = core
    · subst hn
      rw [updCore_same]
    · rw [updCore_other _ _ hn, h]
  · exact h

/-! ### An event of a source -/

/-- The unit that a cause of a cluster's event names. -/
def causeUnit (e : FaultEvent) (k : FaultCause) : Nat := 128 * e.coll + 8 * e.source + k.unit

/-- The causes of a cluster's event with number `n`. -/
def clusterCauses (e : FaultEvent) (n : Nat) : List FaultCause :=
  e.causes.filter (fun k => (decide (e.coll < 4) && decide (e.source < 16)) && k.cause == n)

/-- The gravest class of an event's causes. -/
def gravest (e : FaultEvent) : Nat := e.causes.foldl (fun m k => max m (causeClass e.coll e.source k.cause)) 0

/-- The event raised with its causes set, and its columns listed. -/
def eventRaised (e : FaultEvent) (c : Ctx) : Ctx :=
  (clusterCauses e 4).foldl (fun a k => columnFault (causeUnit e k) k.ident a)
    (raise e.coll e.source (gravest e) (identsOf e) (causesSet e c))

/-- The cores that exhausted an allocator freeze. -/
def stashesFreeze (e : FaultEvent) (c : Ctx) : Ctx :=
  (clusterCauses e 6).foldl (fun a k => stashFreeze e.coll e.source (causeUnit e k) k.ident a) c

/-- Do the collectors act: armed, outside the safe state? -/
def collectorsAct (c : Ctx) : Bool := c.dev.boot.armed && !c.dev.safe.safe

/-- The source of a collector's self-check. -/
def selfSource (k : Nat) : Nat := if k < 4 then 47 else 16

section
variable {e : FaultEvent} {c : Ctx}

/-- Whether an event is its collector's self-check, as its meaning asks. -/
theorem isSelfCheck_iff (hcoll : e.coll < 5) :
    (decide (e.coll < 4) && decide (e.source = 47) || decide (e.coll = 4) && decide (e.source = 16)) = decide (e.source = selfSource e.coll) := by
  unfold selfSource
  by_cases h4 : e.coll < 4
  · simp [h4, show e.coll ≠ 4 by omega]
  · simp [show e.coll = 4 by omega]

theorem faultEventOp_raises (hlive : collectorsLive c = true) (hsrc : e.source ≠ selfSource e.coll) (hcoll : e.coll < 5) :
    faultEventOp e c = if collectorsAct c then stashesFreeze e (eventRaised e c) else eventRaised e c := by
  simp only [faultEventOp, hlive, isSelfCheck_iff hcoll, decide_eq_false hsrc, Bool.not_true, Bool.false_eq_true, if_false]
  unfold collectorsAct
  cases hact : c.dev.boot.armed && !c.dev.safe.safe with
  | true =>
    obtain ⟨ha, hs⟩ := Bool.and_eq_true_iff.mp hact
    simp only [ha, hs, Bool.and_true, if_true]
    rfl
  | false =>
    simp only [Bool.and_assoc _ c.dev.boot.armed _, hact, Bool.and_false, List.filter_false, List.foldl_nil, Bool.false_eq_true, if_false]
    rfl

theorem faultEventOp_self (hlive : collectorsLive c = true) (hsrc : e.source = selfSource e.coll) (hcoll : e.coll < 5) :
    faultEventOp e c = selfCheck e.coll c := by
  simp only [faultEventOp, hlive, isSelfCheck_iff hcoll, decide_eq_true hsrc, Bool.not_true, Bool.false_eq_true, if_false, if_true]

/-- Before the collectors are armed, an event that names no column is only recorded (R510). -/
theorem eventRaised_unarmed (ha : c.dev.boot.armed = false) (hcol : clusterCauses e 4 = []) :
    eventRaised e c = recordEvent e.coll e.source (causesSet e c) := by
  rw [eventRaised, hcol]
  exact raise_unarmed ((causesSet_keeps (g := fun a => a.dev.boot.armed) (fun _ _ _ => rfl) e c).trans ha) _ _ _ _

/-- A FATAL event enters the safe state, and nothing that follows ends it. -/
theorem eventRaised_fatal (ha : c.dev.boot.armed = true) (hs : c.dev.safe.safe = false) (hcls : gravest e = 4)
    (he : episodeOf c e.coll e.source = none) : (eventRaised e c).dev.safe.safe = true := by
  have harmed := (causesSet_keeps (g := fun a => a.dev.boot.armed) (fun _ _ _ => rfl) e c).trans ha
  have hout := (causesSet_keeps (g := fun a => a.dev.safe.safe) (fun _ _ _ => rfl) e c).trans hs
  have hopen : episodeOf (causesSet e c) e.coll e.source = none := by
    rw [episodeOf_none, causesSet_coll (g := Coll.episodes) (fun _ _ => rfl) (fun _ _ => rfl) fun _ _ => rfl]
    exact episodeOf_none.mp he
  refine List.foldlRecOn (motive := fun a : Ctx => a.dev.safe.safe = true) _ _ ?_ fun _ h _ _ => columnFault_safe _ _ h
  rw [hcls]
  exact raise_fatal _ harmed hout hopen

theorem stashesFreeze_safe (e : FaultEvent) (c : Ctx) : (stashesFreeze e c).dev.safe = c.dev.safe :=
  List.foldlRecOn (motive := fun a : Ctx => a.dev.safe = c.dev.safe) _ _ rfl fun a h _ _ =>
    (stashFreeze_keeps (g := fun a => a.dev.safe) (fun _ _ _ => rfl) (fun _ _ => rfl) (fun _ _ => rfl) _ _ _ _ a).trans h

/-- Each core that claimed, of the unit its cause names, is frozen at the end. -/
theorem stashesFreeze_freezes {k : FaultCause} (hk : k ∈ clusterCauses e 6) (hu : unitOfCore k.ident = causeUnit e k) :
    ((stashesFreeze e c).core k.ident).frozen = true := by
  obtain ⟨before, after, hsplit⟩ := List.append_of_mem hk
  rw [stashesFreeze, hsplit, List.foldl_append, List.foldl_cons]
  exact List.foldlRecOn (motive := fun a : Ctx => (a.core k.ident).frozen = true) _ _ (stashFreeze_freezes _ _ hu _)
    fun a h _ _ => stashFreeze_frozen _ _ _ _ _ h

end

/-! ### The collectors' self-check (R502, R504, R510) -/

section
variable {k : Nat} {c : Ctx}

theorem selfCheck_unarmed (ha : c.dev.boot.armed = false) : selfCheck k c = recordEvent k (selfSource k) c := by
  simp only [selfCheck, ha, Bool.not_false, if_true]
  rfl

theorem selfCheck_reloads (ha : c.dev.boot.armed = true) (hs : c.dev.safe.safe = true) :
    selfCheck k c = (recordEvent k (selfSource k) c).updSafe (fun x => { x with since := c.dev.slow }) := by
  simp only [selfCheck, ha, hs, Bool.not_true, Bool.false_eq_true, if_false, if_true]
  rfl

theorem selfCheck_enters (ha : c.dev.boot.armed = true) (hs : c.dev.safe.safe = false) :
    selfCheck k c = safeEnter (if k = 4 then 16 else k) (recordEvent k (selfSource k) c) := by
  simp only [selfCheck, ha, hs, Bool.not_true, Bool.false_eq_true, if_false]
  rfl

end

theorem FaultEvent.coll_lt {e : FaultEvent} (h : e.wf = true) : e.coll < 5 := by
  simp only [FaultEvent.wf, sourceOk, Bool.and_eq_true, Bool.or_eq_true, decide_eq_true_eq, beq_iff_eq] at h
  omega

/-- One cause of a cluster's unit names that unit. -/
theorem identsOf_one {e : FaultEvent} {k : FaultCause} (h : e.causes = [k]) (hc : (decide (e.coll < 4) && decide (e.source < 16)) = true)
    (hk : k.cause < 7) : identsOf e = [k.unit] := by
  rw [identsOf, if_pos hc, h, if_neg (by simp; omega)]
  rfl

/-- Settles O50: an event's meaning records its causes, raises it and then takes its columns and its stashes; the self-check's, of either command,
records and enters the safe state. -/
theorem faultEventsAreRecordedAndRaised : Obligations.FaultEventsAreRecordedAndRaised := by
  unfold Obligations.FaultEventsAreRecordedAndRaised
  intro s e coll hwf hcoll hlive c1 cls cluster unit columns stashes acts noted self
  refine ⟨fun hsrc => ?event, fun k h hc hk => identsOf_one h hc hk, fun k i hi => ?self⟩
  case event =>
    intro c2
    have hop : faultEventOp e s.ctx = if acts then stashesFreeze e (eventRaised e s.ctx) else eventRaised e s.ctx :=
      faultEventOp_raises hlive hsrc (FaultEvent.coll_lt hwf)
    refine .of_run (faultEventOp e) hwf rfl ⟨.of_eq hop, fun hcol ha => ?noted, fun hact hcls he => ?fatal, fun hact k hk hu => ?stash⟩
    case noted =>
      have hacts : acts = false := by simp [acts, ha]
      rw [hacts, if_neg Bool.false_ne_true, eventRaised_unarmed ha hcol] at hop
      refine run_recorded hop ?_ ?_ (fun j hj => causesSet_other hj s.ctx) ?_ ?_ ?_
      · exact causesSet_keeps (g := Ctx.log) (fun _ _ _ => rfl) e s.ctx
      · exact causesSet_dev e s.ctx
      all_goals exact causesSet_coll (fun _ _ => rfl) (fun _ _ => rfl) (fun _ _ => rfl) e s.ctx e.coll
    case fatal =>
      obtain ⟨ha, hs⟩ := Bool.and_eq_true_iff.mp hact
      rw [State.run_dev, hop, if_pos hact, stashesFreeze_safe]
      exact eventRaised_fatal ha (by simpa using hs) hcls he
    case stash =>
      rw [State.run_at_core, hop, if_pos hact]
      exact stashesFreeze_freezes hk hu
  case self =>
    obtain ⟨op, hw, he, hop⟩ : ∃ op : Ctx → Ctx, i.wf = true ∧ exec i s = perform i s op ∧ op s.ctx = selfCheck k s.ctx := by
      obtain ⟨rfl, rfl⟩ | ⟨rfl, hsrc, rfl⟩ := hi
      · exact ⟨_, decide_eq_true hcoll, rfl, if_pos hlive⟩
      · exact ⟨_, hwf, rfl, faultEventOp_self hlive hsrc (FaultEvent.coll_lt hwf)⟩
    refine ⟨fun ha => ?_, fun ha hs => completes_becomes hw he (hop.trans (selfCheck_reloads ha hs)), fun ha hs => ?_⟩
    · exact .of_run op hw he (run_recorded (hop.trans (selfCheck_unarmed ha)) rfl rfl (fun _ _ => rfl) rfl rfl rfl)
    · refine (completes_becomes hw he (hop.trans (selfCheck_enters ha hs))).imp fun t ht => ⟨ht, ?_⟩
      rw [ht.1]
      exact safeEnter_enters _ hs

/-! ### Comparators (R504, R586, R593, R596, R597) -/

/-- What decides how the collectors take an event: whether they are live, armed and outside the safe state, and what they hold. -/
def Ctx.collecting (c : Ctx) : Bool × Bool × Bool × Tab Coll := (collectorsLive c, c.dev.boot.armed, c.dev.safe.safe, c.dev.colls)

theorem setThermal_collecting (d : Nat) (b : Bool) (c : Ctx) : (tripPin (setThermal d b c)).collecting = c.collecting := by
  unfold setThermal
  split <;> rfl

section
variable {i : Instr} {s : State} {op : Ctx → Ctx} {coll source : Nat} {c : Ctx} (hw : i.wf = true) (he : exec i s = perform i s op)
include hw he

/-- A comparator's assertion is set, and raised where the collectors are live; where they act, with no episode open, the package enters the safe
state. -/
theorem completes_fatal (hop : op s.ctx = fatal coll source c) (hc : c.collecting = s.ctx.collecting) :
    (collectorsLive s.ctx = false → Completes i s (Becomes s c)) ∧
    (collectorsLive s.ctx = true → Completes i s fun t => Becomes s (raise coll source 4 [] c) t ∧
      (s.dev.boot.armed = true → s.dev.safe.safe = false → episodeOf s.ctx coll source = none → t.dev.safe.safe = true)) := by
  simp only [Ctx.collecting, Prod.mk.injEq] at hc
  obtain ⟨hlive, harmed, hsafe, hcolls⟩ := hc
  refine ⟨fun h => completes_becomes hw he (hop.trans (if_neg (by rw [hlive, h]; exact Bool.false_ne_true))), fun h => ?_⟩
  refine (completes_becomes hw he (hop.trans (if_pos (hlive.trans h)))).imp fun t ht => ⟨ht, fun ha hs hnone => ?_⟩
  rw [ht.1]
  refine raise_fatal [] (harmed.trans ha) (hsafe.trans hs) ?_
  rw [episodeOf, Ctx.coll, hcolls]
  exact hnone

/-- A comparator clears; the fallow timer starts where that leaves none asserted in the safe state. -/
theorem completes_cleared (hop : op s.ctx = comparatorCleared c) (hmem : c.log = []) (hc : c.dev.safe.safe = s.dev.safe.safe)
    (hslow : c.dev.slow = s.dev.slow) : Completes i s fun t => t.mem = s.mem ∧ t.dev =
      (if s.dev.safe.safe = true ∧ anyComparator c = false then c.updSafe (fun x => { x with since := s.dev.slow }) else c).dev := by
  have hcleared : comparatorCleared c =
      if s.dev.safe.safe = true ∧ anyComparator c = false then c.updSafe (fun x => { x with since := s.dev.slow }) else c := by
    simp only [comparatorCleared, hc, hslow, Bool.and_eq_true, Bool.not_eq_true']
  refine .of_run op hw he ⟨State.run_mem_of_log s op ?_, by rw [State.run_dev, hop, hcleared]⟩
  rw [hop, hcleared]
  split <;> exact hmem

end

section
variable {c : Ctx} {d r p : Nat}

theorem thermalTripOp_trips (h : (c.dev.pins.pwrGood && !thermalOf c d) = true) : thermalTripOp d c =
    fatal (if d < 4 then d else 4) (if d < 4 then 43 else 11) (tripPin (setThermal d true c)) := by
  obtain ⟨hgood, hnot⟩ := Bool.and_eq_true_iff.mp h
  rw [Bool.not_eq_true'] at hnot
  simp only [thermalTripOp, hgood, hnot, Bool.not_true, Bool.or_self, Bool.false_eq_true, if_false]
  by_cases hd : d < 4 <;> simp only [hd, if_true, if_false]

theorem supplyWindowOp_asserts (h : (supplyWatched c && !supplyOf c r) = true) : supplyWindowOp r c =
    fatal (if r < 4 then r else 4) (if r < 4 then 44 else 12) (if r < 4 then c.updDie r (fun x => { x with supply := true })
      else c.updSafe (fun x => { x with supply := r :: x.supply })) := by
  obtain ⟨hwatch, hnot⟩ := Bool.and_eq_true_iff.mp h
  rw [Bool.not_eq_true'] at hnot
  simp only [supplyWindowOp, hwatch, hnot, Bool.not_true, Bool.or_self, Bool.false_eq_true, if_false]
  by_cases hr : r < 4 <;> simp only [hr, if_true, if_false]

theorem pllUnlockOp_unlocks (h : (if p < 4 then (c.die p).locked else c.dev.stw.locked) = true) : pllUnlockOp p c =
    fatal (if p < 4 then p else 4) (if p < 4 then 45 else 13)
      (if p < 4 then c.updDie p (fun x => { x with locked := false, pllLost := true })
      else (c.updStw (fun x => { x with locked := false })).updSafe (fun x => { x with pllLost := true })) := by
  unfold pllUnlockOp
  by_cases hp : p < 4
  · simp only [hp, if_true] at h ⊢
    rw [if_pos h]
  · simp only [hp, if_false] at h ⊢
    rw [if_pos h]

theorem supplyWindowClearOp_clears (h : supplyOf c r = true) : supplyWindowClearOp r c =
    comparatorCleared (if r < 4 then c.updDie r (fun x => { x with supply := false })
      else c.updSafe (fun x => { x with supply := x.supply.filter (fun k => k != r) })) := by
  simp only [supplyWindowClearOp, h, Bool.not_true, Bool.false_eq_true, if_false]
  by_cases hr : r < 4 <;> simp only [hr, if_true, if_false]

theorem pllRelockOp_relocks (h : (if p < 4 then (c.die p).pllLost else c.dev.safe.pllLost) = true) : pllRelockOp p c =
    comparatorCleared (if p < 4 then c.updDie p (fun x => { x with locked := true, pllLost := false })
      else (c.updStw (fun x => { x with locked := true })).updSafe (fun x => { x with pllLost := false })) := by
  unfold pllRelockOp
  by_cases hp : p < 4
  · simp only [hp, if_true] at h ⊢
    rw [if_pos h]
  · simp only [hp, if_false] at h ⊢
    rw [if_pos h]

/-! ### The fallow timer (R505) -/

theorem fallowTimerOp_over (hs : c.dev.safe.safe = true) (hh : c.dev.safe.held = false) (hl : c.dev.safe.leaving = false)
    (hcmp : anyComparator c = false) (hpast : c.dev.safe.fallow ≤ c.since c.dev.safe.since) : fallowTimerOp c =
      if c.dev.safe.recoveryLimit = 0 ∨ c.dev.safe.recoveryCount < c.dev.safe.recoveryLimit then safeLeave c
      else c.updSafe (fun x => { x with held := true }) := by
  simp only [fallowTimerOp, hs, hh, hl, hcmp, Nat.not_lt.mpr hpast, decide_false, Bool.not_true, Bool.or_self, Bool.false_eq_true, if_false,
    Bool.or_eq_true, decide_eq_true_eq]

/-! ### The governor's window (R594, R595) -/

/-- Without a VE command under way that has lane-cycles left, nothing issues. -/
theorem windowIssue_idle {u : Nat} (h : (c.unit u).ve.entries.all (fun e => !e.active || e.lanes == 0) = true) : windowIssue u c = c := by
  have hnone : (c.unit u).ve.entries.findIdx? (fun e => e.active && decide (0 < e.lanes)) = none := by
    rw [List.findIdx?_eq_none_iff]
    intro e he
    have hidle := List.all_eq_true.mp h e he
    simp only [Bool.or_eq_true, Bool.not_eq_true', beq_iff_eq] at hidle
    obtain hact | hlanes := hidle
    · rw [hact, Bool.false_and]
    · simp [hlanes]
  simp only [windowIssue, hnone]

end

/-- A governor whose window restarts. -/
def govRestarted (g : Nat) (c : Ctx) : Ctx := { c with dev := { c.dev with gov := Tab.set c.dev.gov g {} } }

theorem governorWindowOp_idle {g : Nat} {c : Ctx}
    (h : ∀ u, u / 32 = g → (c.unit u).ve.entries.all (fun e => !e.active || e.lanes == 0) = true) :
    governorWindowOp g c = govRestarted g c := by
  refine List.foldlRecOn (motive := fun a => a = govRestarted g c) _ _ rfl fun a ha u hu => ?_
  obtain ⟨i, hi, rfl⟩ := List.mem_map.mp hu
  have hlt := List.mem_range.mp hi
  subst ha
  exact windowIssue_idle (h (32 * g + i) (by omega))

/-- Settles O52: each comparator's command sets it and raises its source or clears it; the timer and the window take the branch that the
hypotheses select. -/
theorem comparatorsAndFallowTakeEffect : Obligations.ComparatorsAndFallowTakeEffect := by
  unfold Obligations.ComparatorsAndFallowTakeEffect
  intro s d r p g hd hr hp hg k heat volt lost
  refine ⟨?assert, ?clear, fun hs hh hl hcmp hpast => ?fallow, ?window⟩
  case assert =>
    refine List.forall_mem_cons.mpr ⟨fun h => ?thermal,
      List.forall_mem_cons.mpr ⟨fun h => ?supply, List.forall_mem_singleton.mpr fun h => ?pll⟩⟩
    case thermal => exact completes_fatal (decide_eq_true hd) rfl (thermalTripOp_trips h) (setThermal_collecting d true s.ctx)
    case supply => exact completes_fatal (decide_eq_true hr) rfl (supplyWindowOp_asserts h) (by dsimp only [volt]; split <;> rfl)
    case pll => exact completes_fatal (decide_eq_true hp) rfl (pllUnlockOp_unlocks h) (by dsimp only [lost]; split <;> rfl)
  case clear =>
    intro cool back found
    refine List.forall_mem_cons.mpr ⟨fun h => ?thermal,
      List.forall_mem_cons.mpr ⟨fun h => ?supply, List.forall_mem_singleton.mpr fun h => ?pll⟩⟩
    case thermal =>
      exact completes_cleared (decide_eq_true hd) rfl (if_pos h) (by dsimp only [cool, setThermal]; split <;> rfl)
        (by dsimp only [cool, setThermal]; split <;> rfl) (by dsimp only [cool, setThermal]; split <;> rfl)
    case supply =>
      exact completes_cleared (decide_eq_true hr) rfl (supplyWindowClearOp_clears h) (by dsimp only [back]; split <;> rfl)
        (by dsimp only [back]; split <;> rfl) (by dsimp only [back]; split <;> rfl)
    case pll =>
      exact completes_cleared (decide_eq_true hp) rfl (pllRelockOp_relocks h) (by dsimp only [found]; split <;> rfl)
        (by dsimp only [found]; split <;> rfl) (by dsimp only [found]; split <;> rfl)
  case fallow =>
    have hop := fallowTimerOp_over (c := s.ctx) hs hh hl hcmp hpast
    exact ⟨fun h => completes_becomes rfl rfl (hop.trans (if_pos h)),
      fun h0 hlim => completes_dev rfl rfl (hop.trans (if_neg fun h => h.elim h0 (Nat.not_lt.mpr hlim)))⟩
  case window =>
    have hwf : (Instr.governorWindow g).wf = true := decide_eq_true hg
    refine (completes_becomes (op := governorWindowOp g) hwf rfl rfl).imp fun t ht => ⟨ht, fun hidle => ?_⟩
    have hop : governorWindowOp g s.ctx = govRestarted g s.ctx := governorWindowOp_idle hidle
    rw [hop] at ht
    obtain ⟨hdev, hwrote⟩ := ht
    rw [hdev]
    exact ⟨hwrote.mem_eq rfl, rfl, Tab.get_set_same _ _ _ _, fun j hj => Tab.get_set_ne _ _ _ hj⟩

end Sys2Proof.Machine

/-! # Loading the cores: proofs

The drill broadcast, the change to glean, the segments fetched and the end of a load (R521, R522, R653). -/

namespace Sys2Proof.Machine

/-! ### Changes of one loader -/

@[simp] theorem updLoader_same (c : Ctx) (n : Nat) (f : Loader → Loader) : (c.updLoader n f).loader n = f (c.loader n) :=
  Tab.get_set_same _ _ _ _

@[simp] theorem updLoader_other (c : Ctx) {k n : Nat} (f : Loader → Loader) (h : k ≠ n) : (c.updLoader n f).loader k = c.loader k :=
  Tab.get_set_ne _ _ _ h

/-- Memory, and every part of the devices but loader `n`, are as before. -/
def OnlyLoader (n : Nat) (s t : State) : Prop :=
  t.mem = s.mem ∧ t.dev = { s.dev with boot := t.dev.boot } ∧ t.dev.boot = { s.dev.boot with loaders := t.dev.boot.loaders } ∧
    ∀ k, k ≠ n → t.ctx.loader k = s.ctx.loader k

/-- A command that changes one loader and nothing else. -/
theorem completes_updLoader {i : Instr} {s : State} {op : Ctx → Ctx} {n : Nat} {f : Loader → Loader} (hw : i.wf = true)
    (he : exec i s = perform i s op) (hop : op s.ctx = s.ctx.updLoader n f) :
    Completes i s fun t => OnlyLoader n s t ∧ t.ctx.loader n = f (s.ctx.loader n) := by
  have hloader (k : Nat) : (s.run op).ctx.loader k = (s.ctx.updLoader n f).loader k := congrArg (fun c => c.loader k) hop
  refine .of_run op hw he ⟨⟨State.run_mem_of_log s op (by rw [hop]; rfl), ?_, ?_, fun k hk => ?_⟩, ?_⟩
  · rw [State.run_dev, hop]; rfl
  · rw [State.run_dev, hop]; rfl
  · rw [hloader, updLoader_other _ _ hk]
  · rw [hloader, updLoader_same]

/-! ### A good segment is taken (R522, Table 15-8) -/

/-- The key of a segment's payload in the RAM of core `n`, and the payload. -/
def segKey (n : Nat) (b : List Byte) : Nat := loadKey n (bit (ofBytes ((b.drop 6).take 1)) 1) (ofBytes ((b.drop 8).take 4))
def segLoad (b : List Byte) : List Byte := (b.drop 32).take (ofBytes ((b.drop 12).take 2) % 8192)

/-- A loader that remembers segment `b`, once. -/
def Loader.take (n : Nat) (b : List Byte) (l : Loader) : Loader :=
  { l with got := if l.got.any (fun p => p.1 == ofBytes (b.take 4)) then l.got
                  else l.got ++ [(ofBytes (b.take 4), segKey n b, ofBytes ((b.drop 12).take 2) % 8192)] }

theorem segTake_eq (n : Nat) (b : List Byte) (c : Ctx) : segTake n b c = (c.write (segKey n b) (segLoad b)).updLoader n (Loader.take n b) := rfl

theorem take_has (n : Nat) (b : List Byte) (l : Loader) : (l.take n b).has (ofBytes (b.take 4)) = true := by
  unfold Loader.take Loader.has
  by_cases h : l.got.any (fun p => p.1 == ofBytes (b.take 4)) = true
  · rw [if_pos h]
    exact h
  · rw [if_neg h]
    simp

/-- A command by which core `n` takes a segment changes its RAM and its loader. -/
theorem completes_segTake {i : Instr} {s : State} {op : Ctx → Ctx} {n : Nat} {b : List Byte} {f : Loader → Loader} (hw : i.wf = true)
    (he : exec i s = perform i s op) (hop : op s.ctx = segTake n b (s.ctx.updLoader n f)) :
    Completes i s fun t => t.bytes (segKey n b) (segLoad b).length = segLoad b ∧ KeepsMemoryBut (segKey n b) (segLoad b).length s t ∧
      t.dev = { s.dev with boot := t.dev.boot } ∧ t.ctx.loader n = (f (s.ctx.loader n)).take n b := by
  have hwrite : (s.ctx.updLoader n f).write (segKey n b) (segLoad b) =
      (s.ctx.write (segKey n b) (segLoad b)).withDev (s.ctx.updLoader n f).dev := write_withDev s.ctx _ _ _
  rw [segTake_eq, hwrite] at hop
  have hwrote : Wrote s (s.ctx.write (segKey n b) (segLoad b)) (s.run op) := .of_log (by rw [hop]; rfl)
  refine .of_run op hw he ⟨hwrote.bytes_write, hwrote.keepsMemoryBut, ?_, ?_⟩
  · rw [State.run_dev, hop]; rfl
  · calc (op s.ctx).loader n = (((s.ctx.write (segKey n b) (segLoad b)).withDev (s.ctx.updLoader n f).dev).loader n).take n b := by
          rw [hop, updLoader_same]
      _ = (f (s.ctx.loader n)).take n b := congrArg (Loader.take n b) (updLoader_same s.ctx n f)

/-! ### The broadcast (R521) -/

/-- The loader of core `n` goes past a segment of the broadcast. -/
def Loader.past (now : Nat) (l : Loader) : Loader := { l with next := l.next + 1, since := now }

section
variable {n : Nat} {bs : List Byte} {c : Ctx} (hr : loaderRuns c n = true) (hg : (c.loader n).gleaning = false) (ht : drillTurn c n = true)
include hr hg ht

theorem segmentOp_marker (hn : groupCount c (c.loader n).plan (c.loader n).group ≤ (c.loader n).next)
    (hm : ofBytes ((bs.drop 4).take 2) = (c.loader n).group) (he : bit (ofBytes ((bs.drop 6).take 1)) 0 = true) :
    segmentOp n bs c = c.updLoader n (fun l => { l with gleaning := true, since := c.dev.slow }) := by
  simp only [segmentOp, hr, hg, ht, hn, hm, he, Bool.not_true, Bool.or_self, Bool.false_eq_true, if_false, if_true, BEq.rfl, Bool.and_self]

theorem segmentOp_next (hc : c.Clean) (hn : (c.loader n).next < groupCount c (c.loader n).plan (c.loader n).group) : segmentOp n bs c =
    if segCrcOk bs = false then c.updLoader n (Loader.past c.dev.slow)
    else if bs ≠ c.read ((c.loader n).segs + 4128 * (groupFirst c (c.loader n).plan (c.loader n).group + (c.loader n).next)) 4128 then c
    else if ofBytes ((bs.drop 4).take 2) = (c.loader n).group then segTake n bs (c.updLoader n (Loader.past c.dev.slow))
    else c.updLoader n (Loader.past c.dev.slow) := by
  simp only [segmentOp, hr, hg, ht, Nat.not_le.mpr hn, eccRead_clean _ _ hc, poisonAt_clean _ _ hc, Bool.not_true, Bool.or_self, Bool.or_false,
    Bool.false_eq_true, if_false, ite_self, Bool.not_eq_true', beq_iff_eq]
  rfl

end

/-! ### The glean (R522, R653) -/

section
variable {n q : Nat} {c : Ctx} (hr : loaderRuns c n = true)
include hr

theorem gleanWaitOp_gleans (hg : (c.loader n).gleaning = false) (hpast : c.readNat ((c.loader n).plan + 8) 4 ≤ c.dev.slow - (c.loader n).since) :
    gleanWaitOp n c = c.updLoader n (fun l => { l with gleaning := true }) := by
  refine if_pos ?_
  rw [hr, hg]
  exact decide_eq_true hpast

variable (hg : (c.loader n).gleaning = true)
include hg

theorem gleanFetchOp_fetches (hc : c.Clean) (hq : (groupSeqs c (c.loader n)).contains q = true) (hhas : (c.loader n).has q = false)
    (ht : (c.loader n).tried.contains q = false) : gleanFetchOp n q c =
      if segCrcOk (c.read ((c.loader n).segs + 4128 * q) 4128) = true then
        segTake n (c.read ((c.loader n).segs + 4128 * q) 4128) (c.updLoader n (fun l => { l with tried := q :: l.tried }))
      else c.updLoader n (fun l => { l with tried := q :: l.tried }) := by
  simp only [gleanFetchOp, hr, hg, hq, hhas, ht, eccRead_clean _ _ hc, poisonAt_clean _ _ hc, Bool.not_true, Bool.not_false, Bool.or_self,
    Bool.true_and, Bool.false_eq_true, if_false]

end

/-! ### The end of an attempt (R522) -/

/-- The bytes that a loader has of its group, in order. -/
def loadPayload (n : Nat) (c : Ctx) : List Byte :=
  (groupSeqs c (c.loader n)).flatMap (fun q => match (c.loader n).got.find? (fun p => p.1 == q) with
    | some (_, key, len) => c.read key len
    | none => [])

/-- Every segment is there, and the digest agrees. -/
def loadComplete (n : Nat) (c : Ctx) : Bool := (groupSeqs c (c.loader n)).all (c.loader n).has
def loadGood (n : Nat) (c : Ctx) : Bool :=
  loadComplete n c && sha384 (loadPayload n c) == c.read (groupAt (c.loader n).plan (c.loader n).group + 8) 48

theorem coreLoadCompleteOp_ends {n : Nat} {c : Ctx} (hr : loaderRuns c n = true) (hg : (c.loader n).gleaning = true)
    (hall : (groupSeqs c (c.loader n)).all (fun q => (c.loader n).has q || (c.loader n).tried.contains q) = true) :
    coreLoadCompleteOp n c =
      if loadGood n c = true then
        loadStageEnd ((c.updLoader n (fun l => { l with active := false })).updCore n (fun k => { k with load := .loaded, pc := entryPc n }))
      else if (c.loader n).attempt = 3 then loadStageEnd (coreDefective n (c.updLoader n (fun l => { l with active := false })))
      else c.updLoader n (fun l => { l with attempt := l.attempt + 1, tried := [], got := if loadComplete n c = true then [] else l.got }) := by
  simp only [coreLoadCompleteOp, hr, hg, hall, Bool.not_true, Bool.or_self, Bool.false_eq_true, if_false]
  rfl

theorem loadStageEnd_keeps {β : Type} {g : Ctx → β} (h : ∀ c, g (c.updBoot (fun b => { b with stage := 7 })) = g c) (c : Ctx) :
    g (loadStageEnd c) = g c := by
  unfold loadStageEnd
  split
  · exact h c
  · rfl

/-- A load that ends well leaves its core at its entry, its loader at rest. -/
theorem completes_loaded {i : Instr} {s : State} {op : Ctx → Ctx} {n : Nat} (hw : i.wf = true) (he : exec i s = perform i s op)
    (hop : op s.ctx = loadStageEnd ((s.ctx.updLoader n (fun l => { l with active := false })).updCore n
      (fun k => { k with load := .loaded, pc := entryPc n }))) : Completes i s fun t => t.mem = s.mem ∧
    t.ctx.core n = { s.ctx.core n with load := .loaded, pc := entryPc n } ∧ t.ctx.loader n = { s.ctx.loader n with active := false } ∧
      ∀ k, k ≠ n → t.ctx.core k = s.ctx.core k := by
  have hcore (k : Nat) : (op s.ctx).core k = ((s.ctx.updLoader n (fun l => { l with active := false })).updCore n
      (fun k => { k with load := .loaded, pc := entryPc n })).core k := by
    rw [hop, loadStageEnd_keeps (g := fun c => c.core k) fun _ => rfl]
  refine .of_run op hw he ⟨State.run_mem_of_log s op ?_, ?_, ?_, fun k hk => ?_⟩
  · rw [hop, loadStageEnd_keeps (g := Ctx.log) fun _ => rfl]
    rfl
  · rw [State.run_at_core, hcore, updCore_same]
    rfl
  · calc (op s.ctx).loader n = (s.ctx.updLoader n (fun l => { l with active := false })).loader n := by
          rw [hop, loadStageEnd_keeps (g := fun c => c.loader n) fun _ => rfl]
          rfl
      _ = _ := updLoader_same _ _ _
  · rw [State.run_at_core, hcore, updCore_other _ _ hk]
    rfl

/-- Settles O57: each command takes the branch of its meaning that the hypotheses select; without errors in memory no read changes anything. -/
theorem loadersLoadTheirCores : Obligations.LoadersLoadTheirCores := by
  unfold Obligations.LoadersLoadTheirCores
  intro s n q bs hn hr l key len load only
  have hseg : (Instr.segment n bs).wf = true := decide_eq_true hn
  have hwait : (Instr.gleanWait n).wf = true := decide_eq_true hn
  have hfetch : (Instr.gleanFetch n q).wf = true := decide_eq_true hn
  have hend : (Instr.coreLoadComplete n).wf = true := decide_eq_true hn
  refine ⟨fun hg => ⟨fun ht => ?drill, fun hpast => ?wait⟩, fun hg => ⟨fun hq hhas htried hc => ?fetch, fun hall => ?ends⟩⟩
  case drill =>
    intro mine count l1
    have hpast (hc : Clean s) (hlt : l.next < count) (hcrc : segCrcOk bs = false) :
        segmentOp n bs s.ctx = s.ctx.updLoader n (Loader.past s.dev.slow) :=
      (segmentOp_next hr hg ht hc hlt).trans (if_pos hcrc)
    refine ⟨fun hle hm hmark => completes_updLoader hseg rfl (segmentOp_marker hr hg ht hle hm hmark),
      fun hlt hcrc hc => completes_updLoader hseg rfl (hpast hc hlt hcrc), fun hlt hcrc hbs hc => ?_⟩
    have hop := (segmentOp_next hr hg ht (State.clean_ctx hc) hlt).trans ((if_neg (by rw [hcrc]; decide)).trans (if_neg (not_not.mpr hbs)))
    refine ⟨fun hm => completes_updLoader hseg rfl (hop.trans (if_neg hm)), fun hm => ?_⟩
    refine (completes_segTake hseg rfl (hop.trans (if_pos hm))).imp fun t ht => ?_
    obtain ⟨hbytes, hkeeps, hdev, hloader⟩ := ht
    refine ⟨hbytes, hkeeps, hdev, ?_, ?_, ?_⟩
    · rw [hloader]; rfl
    · rw [hloader]; rfl
    · rw [hloader]
      exact take_has _ _ _
  case wait => exact completes_updLoader hwait rfl (gleanWaitOp_gleans hr hg hpast)
  case fetch =>
    have hop := gleanFetchOp_fetches hr hg (State.clean_ctx hc) hq hhas htried
    exact ⟨fun hbad => completes_updLoader hfetch rfl (hop.trans (if_neg (Bool.eq_false_iff.mp hbad))),
      fun hgood => completes_becomes hfetch rfl (hop.trans (if_pos hgood))⟩
  case ends =>
    intro complete payload good
    have hop := coreLoadCompleteOp_ends hr hg hall
    refine ⟨fun hgood => completes_loaded hend rfl (hop.trans (if_pos hgood)), fun hbad ha => ?_, fun hbad ha => ?_⟩
    · exact completes_updLoader hend rfl (hop.trans ((if_neg (Bool.eq_false_iff.mp hbad)).trans (if_neg ha)))
    · exact completes_becomes hend rfl (hop.trans ((if_neg (Bool.eq_false_iff.mp hbad)).trans (if_pos ha)))

end Sys2Proof.Machine

/-! # Sheaf points, pages and digests: proofs

A sheaf point starts a sheaf or skips it, acknowledgements end it, and a buddy and a witness take what their wards send (R462–R470). -/

namespace Sys2Proof.Machine

/-! ### A sheaf point (R462, R464) -/

section
variable {c : Ctx} {st : Nat} (hp : c.dev.res.planned = some st) (hl : furLive c 0 = true) (hh : allHeld c = true)
include hp hl hh

theorem sheafStartOp_skips (hs : sheafSkips c = true) : sheafStartOp c =
    let c1 := releaseHeld (c.updRes (fun r => { r with planned := none, nextSeq := c.dev.res.nextSeq + 1, lastResult := 1 }))
    reportDone (doneMsg c1 st c.dev.res.nextSeq 1 1) c1 := by
  simp only [sheafStartOp, Ctx.res, hp, hl, hh, hs, Bool.not_true, Bool.or_self, Bool.false_eq_true, if_false, if_true]

/-- The run of the sheaf that starts at step `st`. -/
def newRun (st : Nat) (c : Ctx) : SheafRun :=
  { seq := c.dev.res.nextSeq, step := st, slot := if (cowStart c).res.valid then 1 - (cowStart c).res.committedSlot else 0, startStep := st + 1
    since := (cowStart c).dev.slow, pages := (scopePages (cowStart c)).length }

/-- The sheaf has started: its manifest stands in the home slot and is on its way. -/
def sheafStarted (r : SheafRun) (c : Ctx) : Ctx :=
  let c2 := store (homeSlot c r.slot) (manifest c r) (setHome r.slot { seq := r.seq, step := r.step, pages := r.pages } c)
  (c2.send (.sheafPage c2.res.buddy r.slot r.seq 0 0 (manifest c r) [])).updRes (fun x =>
    { x with planned := none, nextSeq := r.seq + 1, state := 1, run := some r })

theorem sheafStartOp_starts (hs : sheafSkips c = false) : sheafStartOp c =
    releaseHeld (if (newRun st c).pages = 0 then sendDigest (newRun st c) (sheafStarted (newRun st c) (cowStart c))
      else sheafStarted (newRun st c) (cowStart c)) := by
  simp only [sheafStartOp, Ctx.res, hp, hl, hh, hs, Bool.not_true, Bool.or_self, Bool.false_eq_true, if_false]
  rfl

end

/-! ### Acknowledgements and the end of a sheaf (R465–R467, log entry 134) -/

/-- A run with the acknowledgements of buddy and witness as given. -/
def SheafRun.acked (b w : Bool) (r : SheafRun) : SheafRun := { r with buddyAck := b, witnessAck := w }

theorem ackRun_late (n : Nat) {r : SheafRun} (h : (r.buddyAck || r.witnessAck) = true) : ackRun n r = r.acked true true := if_pos h

/-- The first acknowledgement is the buddy's, the witness's or both. -/
theorem ackRun_first (n : Nat) {r : SheafRun} (h : (r.buddyAck || r.witnessAck) = false) :
    ackRun n r = r.acked true true ∨ ackRun n r = r.acked true false ∨ ackRun n r = r.acked false true := by
  have hfirst : ackRun n r = r.acked (n != 2) (n != 1) := if_neg (Bool.eq_false_iff.mp h)
  rw [hfirst]
  by_cases h2 : n = 2
  · exact .inr (.inr (by rw [h2]; rfl))
  · rw [bne_iff_ne.mpr h2]
    cases n != 1
    · exact .inr (.inl rfl)
    · exact .inl rfl

/-- The run stands with its acknowledgements; the witness is awaited no more once it has acknowledged. -/
def ackTaken (r : SheafRun) (c : Ctx) : Ctx := c.updRes (fun x =>
  { x with run := some r, awaiting := if r.witnessAck then x.awaiting.filter (fun p => p.1 != x.witness) else x.awaiting })

theorem sheafCompleteOp_acks {c : Ctx} {r r1 : SheafRun} (hr : c.dev.res.run = some r) (hd : r.digestSent = true)
    (h1 : ackRun (Config.freeNat c.dev.fresh % 3) r = r1) : sheafCompleteOp c =
      if (r1.buddyAck && r1.witnessAck) = true then sheafDone r1 (ackTaken r1 (c.draw 1).2) else ackTaken r1 (c.draw 1).2 := by
  subst h1
  simp only [sheafCompleteOp, Ctx.res, hr, hd, Bool.not_true, Bool.false_eq_true, if_false]
  rfl

theorem sheafTimeoutOp_abandons {c : Ctx} {r : SheafRun} (hr : c.dev.res.run = some r) (ht : c.dev.res.sheafTimeout ≤ c.dev.slow - r.since) :
    sheafTimeoutOp c = abandonSheaf c := by
  simp only [sheafTimeoutOp, Ctx.res, hr]
  exact if_pos ht

/-! ### Pages of a ward, and pages that come back (R465, R477, log entry 60) -/

/-- What each of a list of codewords poisoned leaves. -/
theorem forAll_setPoison (bs : List Nat) (c : Ctx) :
    ∃ l, forAll bs setPoison c = c.withDev { c.dev with poison := l } ∧ ∀ b, b ∈ l ↔ b ∈ bs ∨ b ∈ c.dev.poison := by
  induction bs generalizing c with
  | nil => exact ⟨c.dev.poison, rfl, fun b => by simp⟩
  | cons x bs ih =>
    obtain ⟨l, hl, hmem⟩ := ih (setPoison x c)
    rw [show forAll (x :: bs) setPoison c = forAll bs setPoison (setPoison x c) from rfl, hl]
    by_cases hx : isPoisoned c x = true
    · have hset : setPoison x c = c := if_pos hx
      rw [hset] at hmem ⊢
      refine ⟨l, rfl, fun b => ?_⟩
      have hin : x ∈ c.dev.poison := List.contains_iff_mem.mp hx
      rw [hmem, List.mem_cons]
      constructor
      · exact fun h => h.elim (fun h => .inl (.inr h)) .inr
      · rintro ((rfl | h) | h)
        · exact .inr hin
        · exact .inl h
        · exact .inr h
    · have hset : setPoison x c = c.withDev { c.dev with poison := x :: c.dev.poison } := if_neg hx
      rw [hset] at hmem ⊢
      refine ⟨l, rfl, fun b => ?_⟩
      rw [hmem, List.mem_cons]
      simp only [Ctx.withDev, List.mem_cons]
      tauto

/-- Where memory holds no error, bytes that land in a slot poison the lines named and no other. -/
theorem landPage_poisons {c : Ctx} (a hdr : Nat) (bytes : List Byte) (poison : List Nat) (hc : c.Clean) :
    ∃ l, landPage a hdr bytes poison c = (c.write a bytes).withDev { c.dev with poison := l } ∧
      ∀ b, b ∈ l ↔ ∃ x ∈ poison, b ∈ wordsOf (a + hdr + 128 * x) 128 := by
  obtain ⟨l, hl, hmem⟩ := forAll_setPoison (poison.flatMap (fun x => wordsOf (a + hdr + 128 * x) 128)) (c.write a bytes)
  refine ⟨l, ?_, fun b => ?_⟩
  · rw [landPage, store_clean a bytes hc, hl, Ctx.write_dev]
  · rw [hmem, Ctx.write_dev, hc.1, List.mem_flatMap]
    simp

/-- Place in a slot, bytes and header of the page with an index: the manifest's first, each other record behind its address. -/
def pageOff (index : Nat) : Nat := if index = 0 then 0 else recordOff (index - 1)
def pageBytes (index addr : Nat) (data : List Byte) : List Byte := if index = 0 then data else toBytes 8 addr ++ data
def pageHdr (index : Nat) : Nat := if index = 0 then 0 else 8

/-- Does the slot take the page: does it exist, and is the page whole and in it? -/
def pageFits (c : Ctx) (slot index addr : Nat) (data : List Byte) : Bool :=
  decide (slot < 2) && decide (pageOff index + (pageBytes index addr data).length ≤ c.dev.res.slotPages * 65536) &&
    (pageBytes index addr data).length == (if index = 0 then 16384 else 65544)

theorem pageFits_iff {c : Ctx} {slot index addr : Nat} {data : List Byte} : pageFits c slot index addr data = true ↔
    slot < 2 ∧ pageOff index + (pageBytes index addr data).length ≤ c.dev.res.slotPages * 65536 ∧
      (pageBytes index addr data).length = (if index = 0 then 16384 else 65544) := by
  simp only [pageFits, Bool.and_eq_true, decide_eq_true_eq, beq_iff_eq, and_assoc]

/-- Does the page come back to the home slot of a package that restores? -/
def comesBack (c : Ctx) (src slot : Nat) (fits : Bool) : Bool :=
  c.dev.res.restore = 1 && c.dev.res.refetched && src == c.dev.res.buddy && slot == c.dev.res.committedSlot && fits

/-- The ward slot after its page `index` has come. -/
def wardTaken (c : Ctx) (slot seq index : Nat) (data : List Byte) : SlotSt :=
  let old := c.dev.res.wards.getD slot {}
  let base : SlotSt := if index = 0 then { seq := seq, step := ofBytes ((data.drop 8).take 6), pages := ofBytes ((data.drop 24).take 4) } else old
  let got := if index = 0 then 0 else base.got + 1
  { base with got := got, valid := got == base.pages && base.seq == seq }

theorem wardTaken_got (c : Ctx) (slot seq index : Nat) (data : List Byte) :
    (wardTaken c slot seq index data).got = if index = 0 then 0 else (c.dev.res.wards.getD slot {}).got + 1 := by
  unfold wardTaken
  by_cases h : index = 0
  · simp only [h, if_true]
  · simp only [h, if_false]

section
variable {c : Ctx} {src slot seq index addr : Nat} {data : List Byte} {poison : List Nat}

theorem sheafPageReceiveOp_refuses (hs : c.dev.safe.safe = false) (h : c.dev.job.running = false ∨ refusesFrom c src = true) :
    sheafPageReceiveOp src slot seq index addr { bytes := data, poison := poison } c = c.send (.sheafAck src seq false false) := by
  have hcond : (!c.dev.job.running || refusesFrom c src) = true := by
    obtain h | h := h
    · rw [h]; rfl
    · rw [h, Bool.or_true]
  simp only [sheafPageReceiveOp, hs, hcond, Bool.false_eq_true, if_false, if_true]

theorem sheafPageReceiveOp_takes (hs : c.dev.safe.safe = false) (hr : c.dev.job.running = true) (hf : refusesFrom c src = false) :
    sheafPageReceiveOp src slot seq index addr { bytes := data, poison := poison } c =
      if comesBack c src slot (pageFits c slot index addr data) = true then
        landPage (homeSlot c slot + pageOff index) (pageHdr index) (pageBytes index addr data) poison
          (c.updRes (fun r => { r with awaiting := r.awaiting.filter (fun p => p.1 != r.buddy) }))
      else if (decide (src = c.dev.res.ward) && pageFits c slot index addr data && c.dev.res.present) = true then
        (setWard slot (wardTaken c slot seq index data) (landPage (wardSlot c slot + pageOff index) (pageHdr index) (pageBytes index addr data)
          poison c)).send (.sheafAck src seq false true)
      else c.send (.sheafAck src seq false false) := by
  simp only [sheafPageReceiveOp, hs, hr, hf, Bool.not_true, Bool.or_self, Bool.false_eq_true, if_false]
  rfl

end

/-- The devices once a ward slot has taken a page: the slot's books, and the answer. -/
def wardTakes (slot : Nat) (x : SlotSt) (answer : Msg) (d : Dev) : Dev :=
  { d with
    res := { d.res with wards := (List.range 2).map (fun k => if k = slot then x else d.res.wards.getD k {}) }
    outbox := d.outbox ++ [answer] }

theorem wardTakes_slot {slot : Nat} (h : slot < 2) (x : SlotSt) (answer : Msg) (d : Dev) :
    (wardTakes slot x answer d).res.wards.getD slot {} = x := by
  simp [wardTakes, List.getD_eq_getElem?_getD, h]

/-- A page has landed: its bytes stand at `a`, its lines named are poisoned, and no other byte changed. -/
def PageLanded (a hdr : Nat) (bytes : List Byte) (poison : List Nat) (s t : State) : Prop :=
  t.bytes a bytes.length = bytes ∧ KeepsMemoryBut a bytes.length s t ∧
    ∀ b, b ∈ t.dev.poison ↔ ∃ l ∈ poison, b ∈ wordsOf (a + hdr + 128 * l) 128

/-- A command that lands a page, with devices changed before (`d0`) and after it (`g`), neither of which touches poison. -/
theorem completes_landPage {i : Instr} {s : State} {op : Ctx → Ctx} {a hdr : Nat} {bytes : List Byte} {poison : List Nat} {d0 : Dev}
    {g : Dev → Dev} (hw : i.wf = true) (he : exec i s = perform i s op) (hc : (s.ctx.withDev d0).Clean) (hg : ∀ d, (g d).poison = d.poison)
    (hop : op s.ctx = (landPage a hdr bytes poison (s.ctx.withDev d0)).withDev (g (landPage a hdr bytes poison (s.ctx.withDev d0)).dev)) :
    Completes i s fun t => PageLanded a hdr bytes poison s t ∧ t.dev = g { d0 with poison := t.dev.poison } := by
  obtain ⟨l, hl, hmem⟩ := landPage_poisons a hdr bytes poison hc
  rw [hl, write_withDev] at hop
  have hwrote : Wrote s (s.ctx.write a bytes) (s.run op) := .of_log (by rw [hop]; rfl)
  have hdev : (s.run op).dev = g { d0 with poison := l } := by rw [State.run_dev, hop]; rfl
  have hp : (s.run op).dev.poison = l := by rw [hdev, hg]
  exact .of_run op hw he ⟨⟨hwrote.bytes_write, hwrote.keepsMemoryBut, fun b => by rw [hp]; exact hmem b⟩, by rw [hp, hdev]⟩

/-! ### Digests (R465, R477) -/

section
variable {c : Ctx} {m : ResMsg} (hr : c.dev.job.running = true)
include hr

theorem digestOp_witnesses (hm : m.sender = c.dev.res.witnessed) (hp : c.dev.res.present = true) : digestOp m c =
    (c.updRes (fun r => { r with witnessDigests := (m.digest :: r.witnessDigests).take 2 })).send (.sheafAck m.sender m.seq true true) := by
  simp only [digestOp, Ctx.res, hr, hm, hp, Bool.not_true, Bool.false_eq_true, if_false, if_true, decide_true, Bool.and_self]

theorem digestOp_serves (hm : m.sender ≠ c.dev.res.witnessed) (hw : m.sender = c.dev.res.ward) (hp : c.dev.res.present = true) :
    digestOp m c = serveRefetch c := by
  rw [hw] at hm
  simp only [digestOp, Ctx.res, hr, hm, hw, hp, Bool.not_true, Bool.false_eq_true, if_false, if_true, decide_true, decide_false, Bool.and_self,
    Bool.false_and]

theorem digestOp_foreign (h : m.sender ≠ c.res.witnessed ∧ m.sender ≠ c.res.ward ∨ c.res.present = false) :
    digestOp m c = if c.dev.res.restore = 1 then c.updRes (fun r => { r with wardDigest := some m.digest })
      else c.send (.sheafAck m.sender m.seq true false) := by
  have hno : (decide (m.sender = c.res.witnessed) && c.res.present) = false ∧ (decide (m.sender = c.res.ward) && c.res.present) = false := by
    obtain ⟨hw, hb⟩ | hp := h
    · rw [decide_eq_false hw, decide_eq_false hb]
      exact ⟨rfl, rfl⟩
    · rw [hp, Bool.and_false, Bool.and_false]
      exact ⟨rfl, rfl⟩
  simp only [digestOp, hr, hno, Bool.not_true, Bool.false_eq_true, if_false]
  rfl

end

/-- Settles O47: each command takes the branch of its meaning that the hypotheses select; which acknowledgement came is the free value drawn. -/
theorem sheafPointsAreHandled : Obligations.SheafPointsAreHandled := by
  unfold Obligations.SheafPointsAreHandled
  intro s st r src slot seq index addr data poison m hsrc haddr hlen hpoison
  have hpage : (Instr.sheafPageReceive src slot seq index addr { bytes := data, poison := poison }).wf = true := by
    simp only [Instr.wf, hsrc, haddr, hlen, hpoison, decide_true, Bool.and_self]
  refine ⟨fun hp hl hh => ⟨fun hs => completes_becomes rfl rfl (sheafStartOp_skips hp hl hh hs),
    fun hs => completes_becomes rfl rfl (sheafStartOp_starts hp hl hh hs)⟩,
    fun hrun => ⟨fun hd => ?acks, completes_becomes rfl rfl rfl, fun ht => completes_becomes rfl rfl (sheafTimeoutOp_abandons hrun ht)⟩,
    ?refused, fun hs => ?silent, fun hjob => ?takes⟩
  case acks =>
    intro acks left finished waits
    have hop {r1 : SheafRun} (h1 : ackRun (Config.freeNat s.dev.fresh % 3) r = r1) := sheafCompleteOp_acks (c := s.ctx) hrun hd h1
    have hboth (h1 : ackRun (Config.freeNat s.dev.fresh % 3) r = r.acked true true) : Completes .sheafComplete s (finished (s.ctx.draw 1).2) :=
      completes_becomes rfl rfl ((hop h1).trans (if_pos rfl))
    refine ⟨fun hlate => hboth (ackRun_late _ hlate), fun hfirst => ?_⟩
    obtain h1 | h1 | h1 := ackRun_first (Config.freeNat s.dev.fresh % 3) hfirst
    · exact (hboth h1).imp fun _ ht => .inl ht
    · exact (completes_dev rfl rfl ((hop h1).trans (if_neg Bool.false_ne_true))).imp fun _ ht => .inr (.inl ht)
    · exact (completes_dev rfl rfl ((hop h1).trans (if_neg Bool.false_ne_true))).imp fun _ ht => .inr (.inr ht)
  case refused => exact fun hs h => completes_dev hpage rfl (sheafPageReceiveOp_refuses hs h)
  case silent => exact completes_dev hpage rfl (if_pos hs)
  case takes =>
    intro off bytes fits takes
    refine ⟨fun hf hs hc => ?pages, fun hm hp => completes_dev rfl rfl (digestOp_witnesses hjob hm hp),
      fun hm hw hp => completes_becomes rfl rfl (digestOp_serves hjob hm hw hp), fun h => ?foreign⟩
    case pages =>
      have hop := sheafPageReceiveOp_takes (c := s.ctx) (slot := slot) (seq := seq) (index := index) (addr := addr) (data := data)
        (poison := poison) hs hjob hf
      refine ⟨fun hres hward hfits hpres => ?ward, fun hres href hbuddy hslot hfits => ?home, fun hres h => ?turned⟩
      case ward =>
        have hfit : pageFits s.ctx slot index addr data = true := pageFits_iff.mpr hfits
        have hback : ¬ comesBack s.ctx src slot (pageFits s.ctx slot index addr data) = true := by simp [comesBack, hres]
        have htakes : (decide (src = s.dev.res.ward) && pageFits s.ctx slot index addr data && s.dev.res.present) = true := by
          rw [hfit, hpres, decide_eq_true hward]; rfl
        refine (completes_landPage (d0 := s.dev)
          (g := wardTakes slot (wardTaken s.ctx slot seq index data) (.sheafAck src seq false true)) hpage rfl hc (fun _ => rfl)
          (hop.trans ((if_neg hback).trans (if_pos htakes)))).imp fun t ht => ?_
        obtain ⟨hlanded, hdev⟩ := ht
        have hresBlock : t.dev.res = (wardTakes slot (wardTaken s.ctx slot seq index data) (.sheafAck src seq false true) s.dev).res :=
          (congrArg Dev.res hdev :)
        refine ⟨hlanded, ?_, ?_, ?_⟩
        · rw [hresBlock]
          exact hdev
        · rw [hresBlock]
          rfl
        · rw [hresBlock, wardTakes_slot hfits.1]
          exact wardTaken_got _ _ _ _ _
      case home =>
        have hfit : pageFits s.ctx slot index addr data = true := pageFits_iff.mpr hfits
        have hback : comesBack s.ctx src slot (pageFits s.ctx slot index addr data) = true := by
          rw [hfit]
          simp [comesBack, hres, href, hbuddy, hslot]
        exact completes_landPage (d0 := { s.dev with res := { s.dev.res with
            awaiting := s.dev.res.awaiting.filter (fun p => p.1 != s.dev.res.buddy) } }) (g := id) hpage rfl hc (fun _ => rfl)
          (hop.trans (if_pos hback))
      case turned =>
        have hback : ¬ comesBack s.ctx src slot (pageFits s.ctx slot index addr data) = true := by simp [comesBack, hres]
        have hnot : ¬ (decide (src = s.dev.res.ward) && pageFits s.ctx slot index addr data && s.dev.res.present) = true := by
          rw [Bool.and_eq_true, Bool.and_eq_true, pageFits_iff, decide_eq_true_eq]
          rintro ⟨⟨hward, hfits⟩, hpres⟩
          exact h.elim (fun h => h hward) fun h => h.elim (fun h => h hfits) fun h => Bool.false_ne_true (h.symm.trans hpres)
        exact completes_dev hpage rfl (hop.trans ((if_neg hback).trans (if_neg hnot)))
    case foreign =>
      have hop := digestOp_foreign (c := s.ctx) hjob h
      by_cases hres : s.dev.res.restore = 1
      · exact completes_dev rfl rfl (hop.trans ((if_pos hres).trans (congrArg s.ctx.withDev (if_pos hres).symm)))
      · exact completes_dev rfl rfl (hop.trans ((if_neg hres).trans (congrArg s.ctx.withDev (if_neg hres).symm)))

end Sys2Proof.Machine

/-! # Survivors restore and resume: proofs

REFORM, the digest checks of a restore, READY and RESUME (R475, R477, R480, Table 13-6). -/

namespace Sys2Proof.Machine

/-! ### REFORM (R475, R480) -/

/-- REFORM passed on, and the notices it answers forgotten. -/
def reformPassed (m : ResMsg) (c : Ctx) : Ctx := (passOn 4 m c).updRes (fun r => { r with named := [], noticeAt := none })

/-- The coordinator has taken READY from a survivor. -/
def readyTaken (pkg : Nat) (c : Ctx) : Ctx :=
  c.updRes (fun r => { r with readies := insNat pkg r.readies, awaiting := r.awaiting.filter (fun p => p.1 != pkg) })

section
variable {c : Ctx} {m : ResMsg} (hin : inJob c = true)
include hin

theorem reformOp_takes : reformOp m c =
    if m.removed.contains (ownTray c) = true then endCause 0x14 (reformPassed m c)
    else if c.dev.job.kind ≤ 1 then restoreStart m (reformPassed m c) else reformLinks m (reformPassed m c) := by
  simp only [reformOp, hin, Bool.not_true, Bool.false_eq_true, if_false]
  rfl

/-! ### The digest checks (steps 5 to 7 of Table 13-6) -/

theorem restoreDigestOp_joined (hres : c.dev.res.restore = 3) (hst : c.dev.res.state = 3) (hl : loadsEnded c = true)
    (hu : c.dev.units.all (fun p => !p.2.resetting) = true) : restoreDigestOp c = restoreReady c := by
  simp only [restoreDigestOp, Ctx.res, hin, hres, hst, hl, hu, decide_true, Bool.and_self, Bool.not_true, Bool.false_eq_true, if_false, if_true]

theorem restoreDigestOp_checks (hres : c.dev.res.restore = 1) (hw : wardRemoved c = false ∨ c.dev.res.wardDigest ≠ none) :
    restoreDigestOp c =
      let c0 := restoreRead c
      if homeOk c0 = false then
        if c0.res.refetched = true then sendNotice (ownTray c0) 6 c0
        else (sendRes c0.res.buddy 7 (resMsg c0) c0).updRes (fun r =>
          { r with refetched := true, awaiting := r.awaiting ++ [(r.buddy, c0.dev.slow)] })
      else if (wardRemoved c0 && !wardOk c0 (c0.res.wardDigest.getD 0)) = true then endCause 0x14 c0
      else restoreReady (regroupAll c0.res.removed (homeBack c0)) := by
  have hready : (wardRemoved c && c.res.wardDigest.isNone) = false := by
    obtain h | h := hw
    · rw [h, Bool.false_and]
    · rw [show c.res.wardDigest.isNone = false from Option.isNone_eq_false_iff.mpr (Option.isSome_iff_ne_none.mpr h), Bool.and_false]
  have hres' : c.res.restore = 1 := hres
  simp only [restoreDigestOp, hin, hres', hready, Bool.not_true, Bool.not_eq_true', Bool.false_eq_true, if_false]
  rfl

/-! ### READY (step 8) -/

theorem survivorReadyOp_takes {pkg : Nat} (hc : coordinator c = c.dev.boot.pkg) : survivorReadyOp pkg c =
    let c1 := readyTaken pkg c
    if allReady c1 = true ∧ c.dev.res.restore = 2 then
      let c2 := resumeTake (resMsg c1) (sendTrays 5 (resMsg c1) (memberTrays c1) c1)
      if (c2.res.planned.isNone && c2.res.enable) = true then
        planNextWith reportDone 1 c2.res.lastPoint (if c2.res.valid then c2.res.seq else noSeq) c2
      else c2
    else c1 := by
  simp only [survivorReadyOp, hin, hc, Bool.not_true, Bool.false_or, ne_eq, not_true_eq_false, decide_false,
    Bool.false_eq_true, if_false, Bool.and_eq_true, decide_eq_true_eq]
  rfl

end

/-! ### RESUME (step 9 of Table 13-6) -/

/-- A channel at a restart: at entry 0, waiting where it has a program. -/
def FurChan.restart (x : FurChan) : FurChan := { x with pc := 0, iter := 0, run := none, state := if x.len = 0 then 0 else 1 }

/-- A furrow engine at a restart: its commits count from step `n`. -/
def FurSt.restart (n : Nat) (x : FurSt) : FurSt := { x with commits := n, chans := x.chans.map (fun p => (p.1, p.2.restart)) }

theorem restart_chan (n : Nat) (x : FurSt) (k : Nat) : Tab.get {} (x.restart n).chans k = (Tab.get {} x.chans k : FurChan).restart := by
  have h := Tab.get_map_key (R := fun y z => z = FurChan.restart y) (q := fun _ => true) (d := {}) rfl (fun _ => rfl) x.chans (k := k) rfl
  simp only [if_true] at h
  exact h

/-- The furrow engines restart at step `n`. -/
def enginesRestarted (n : Nat) (c : Ctx) : Ctx := forAll (List.range 4) (fun d a => a.updFur d (FurSt.restart n)) c

/-- The event counters of every unit listed are zero. -/
def countersCleared (c : Ctx) : Ctx := forAll (listedUnits c) (fun u a => a.updUnit u (fun x => { x with evts := [] })) c

/-- Every control core listed starts from its instruction RAM. -/
def coresRestarted (c : Ctx) : Ctx :=
  forAll ((c.dev.cores.filter (fun p => p.1 < 2048)).map (fun p => p.1)) (fun n a => a.updCore n (fun k => { load := k.load })) c

/-- A function to disable is no furrow channel. -/
def notFurrow (f : DisFn) : Bool := match f with | .furrow _ _ => false | _ => true

/-- The job block at a restart from step `n`: no channel is disabled any more (R365). -/
def JobSt.resume (n now : Nat) (j : JobSt) : JobSt :=
  { j with step := n, released := true, flown := 0, drains := j.drains.filter (fun d => notFurrow d.fn)
           disabled := j.disabled.filter notFurrow, stepAt := now, stepStart := now }

theorem resumeTake_restarts {c : Ctx} {m : ResMsg} (h : c.dev.res.restore = 2) : resumeTake m c = epochAll (admitAll
    (((coresRestarted (countersCleared (enginesRestarted c.dev.res.reformStep (passOn 5 m c)))).updJob
      (JobSt.resume c.dev.res.reformStep c.dev.slow)).updRes (fun r => { r with restore := 0, state := 0 }))) := by
  have hres : ¬ c.res.restore ≠ 2 := not_not.mpr h
  rw [resumeTake, if_neg hres]
  rfl

/-- Restarted cores and cleared counters keep what is neither a core's nor a unit's. -/
theorem coresCounters_keeps {β : Type} {g : Ctx → β} (hu : ∀ c u f, g (c.updUnit u f) = g c) (hc : ∀ c n f, g (c.updCore n f) = g c)
    (c : Ctx) :
    g (coresRestarted (countersCleared c)) = g c :=
  (forAll_keeps (fun _ _ => hc _ _ _) _ _).trans (forAll_keeps (fun _ _ => hu _ _ _) _ c)

theorem enginesRestarted_keeps {β : Type} {g : Ctx → β} (hf : ∀ c d f, g (c.updFur d f) = g c) (n : Nat) (c : Ctx) :
    g (enginesRestarted n c) = g c := forAll_keeps (fun _ _ => hf _ _ _) _ c

theorem enginesRestarted_chan (n : Nat) (c : Ctx) {d : Nat} (hd : d < 4) (k : Nat) : (enginesRestarted n c).chan d k = (c.chan d k).restart := by
  have hfur : (enginesRestarted n c).fur d = (c.fur d).restart n :=
    (forAll_updFur List.nodup_range (FurSt.restart n) c d).trans (if_pos (List.mem_range.mpr hd))
  rw [Ctx.chan, hfur, restart_chan]
  rfl

section
variable {c : Ctx} {m : ResMsg} (h : c.dev.res.restore = 2)
include h

theorem resumeTake_job : (resumeTake m c).dev.job = c.dev.job.resume c.dev.res.reformStep c.dev.slow := by
  have hkeep : (coresRestarted (countersCleared (enginesRestarted c.dev.res.reformStep (passOn 5 m c)))).dev.job = c.dev.job := by
    rw [coresCounters_keeps (g := fun a => a.dev.job) (fun _ _ _ => rfl) fun _ _ _ => rfl,
      enginesRestarted_keeps (g := fun a => a.dev.job) fun _ _ _ => rfl, passOn_keeps (g := fun a => a.dev.job) (fun _ _ _ => rfl) fun _ _ => rfl]
  have hset (a : Ctx) (j : JobSt → JobSt) (f : ResSt → ResSt) : ((a.updJob j).updRes f).dev.job = j a.dev.job := rfl
  rw [resumeTake_restarts h, epochAll_admitAll_job, hset, hkeep]

theorem resumeTake_res : (resumeTake m c).res = { c.res with restore := 0, state := 0 } := by
  have hkeep : (coresRestarted (countersCleared (enginesRestarted c.dev.res.reformStep (passOn 5 m c)))).res = c.res := by
    rw [coresCounters_keeps (g := Ctx.res) (fun _ _ _ => rfl) fun _ _ _ => rfl, enginesRestarted_keeps (g := Ctx.res) fun _ _ _ => rfl,
      passOn_keeps (g := Ctx.res) (fun _ _ _ => rfl) fun _ _ => rfl]
  have hset (a : Ctx) (j : JobSt → JobSt) (f : ResSt → ResSt) : ((a.updJob j).updRes f).res = f a.res := rfl
  rw [resumeTake_restarts h, epochAll_admitAll_res, hset, hkeep]

theorem resumeTake_chan {d : Nat} (hd : d < 4) (k : Nat) : (resumeTake m c).chan d k = (c.chan d k).restart := by
  have hset (a : Ctx) (j : JobSt → JobSt) (f : ResSt → ResSt) : ((a.updJob j).updRes f).chan d k = a.chan d k := rfl
  rw [resumeTake_restarts h, epochAll_admitAll_chan, hset, coresCounters_keeps (g := fun a => a.chan d k) (fun _ _ _ => rfl) fun _ _ _ => rfl,
    enginesRestarted_chan _ _ hd, passOn_keeps (g := fun a => a.chan d k) (fun _ _ _ => rfl) fun _ _ => rfl]

end

/-- Settles O49: each message is taken by the branch of its meaning that the hypotheses select; what RESUME restarts is read off the job block,
the resilience block and the channels. -/
theorem survivorsRestoreAndResume : Obligations.SurvivorsRestoreAndResume := by
  unfold Obligations.SurvivorsRestoreAndResume
  intro s m pkg hin hpkg r c1
  refine ⟨fun hrem => ?removed, fun hstay hk => ?training, fun hstay hk => ?other, fun hres hst hl hu => ?joined, fun hres hw => ?checks,
    fun hc => ?ready, fun hres => ?resume⟩
  case removed => exact completes_becomes rfl rfl ((reformOp_takes hin).trans (if_pos hrem))
  case training => exact completes_becomes rfl rfl ((reformOp_takes hin).trans ((if_neg (Bool.eq_false_iff.mp hstay)).trans (if_pos hk)))
  case other =>
    exact completes_becomes rfl rfl ((reformOp_takes hin).trans ((if_neg (Bool.eq_false_iff.mp hstay)).trans (if_neg (Nat.not_le.mpr hk))))
  case joined => exact completes_becomes rfl rfl (restoreDigestOp_joined hin hres hst hl hu)
  case checks =>
    intro c0 wardPasses
    have hop := restoreDigestOp_checks hin hres hw
    have hward : (wardRemoved c0 && !wardOk c0 (c0.res.wardDigest.getD 0)) = true ↔ ¬ wardPasses := by
      simp only [wardPasses, Bool.and_eq_true, Bool.not_eq_true', not_or, Bool.not_eq_false, Bool.not_eq_true]
    have hgood (h : homeOk c0 = true) : ¬ homeOk c0 = false := by rw [h]; decide
    refine ⟨fun hok hp => ?_, fun hok hp => ?_, fun hbad href => ?_, fun hbad href => ?_⟩
    · exact completes_becomes rfl rfl (hop.trans ((if_neg (hgood hok)).trans (if_neg fun h => hward.mp h hp)))
    · exact completes_becomes rfl rfl (hop.trans ((if_neg (hgood hok)).trans (if_pos (hward.mpr hp))))
    · exact completes_becomes rfl rfl (hop.trans ((if_pos hbad).trans (if_neg (Bool.eq_false_iff.mp href))))
    · exact completes_becomes rfl rfl (hop.trans ((if_pos hbad).trans (if_pos href)))
  case ready =>
    intro c2 c3
    have hop := survivorReadyOp_takes (c := s.ctx) (pkg := pkg) hin hc
    have hwf : (Instr.survivorReady pkg).wf = true := decide_eq_true hpkg
    refine ⟨fun h => completes_dev hwf rfl (hop.trans (if_neg ?_)),
      fun hall hres => completes_becomes hwf rfl (hop.trans (if_pos ⟨hall, hres⟩))⟩
    rintro ⟨hall, hres⟩
    exact h.elim (fun h => Bool.false_ne_true (h.symm.trans hall)) fun h => h hres
  case resume =>
    refine (completes_becomes rfl rfl (if_pos hin)).imp fun t ht => ⟨ht, ?_, ?_, fun d k hd hlen => ?_⟩
    · rw [ht.1, resumeTake_job hres]
      rfl
    · rw [ht.1]
      exact resumeTake_res hres
    · have hchan : t.ctx.chan d k = (s.ctx.chan d k).restart := by
        rw [Ctx.chan, Ctx.fur, State.ctx_dev, ht.1]
        exact resumeTake_chan hres hd k
      rw [hchan]
      exact ⟨if_neg hlen, rfl, rfl, rfl⟩

end Sys2Proof.Machine
